-- ==== Sys2Proof/Word.lean ====
section
/-! DEFINITION. The plain types that the whole model speaks of: words, lanes, slots, units, banks, and a
register that each of the four lanes has. -/

namespace Sys2Proof

/-- A byte of memory or of a line frame. -/
abbrev Byte := BitVec 8

/-- A word of the fare memory: 32 data bits (00_scope, section 5). -/
abbrev Word := BitVec 32

/-- A card's Serial (R1). -/
abbrev Serial := BitVec 64

/-- A lane, 0 to 3. Reader n is the modem on lane n (01, section 1.3). -/
abbrev Lane := Fin 4

/-- A command slot, 0 to 7 (R175). -/
abbrev SlotId := Fin 8

/-- A unit id on the neighbor line, also a slot of its cycle (R140). -/
abbrev UnitId := Fin 16

/-- The two Table Banks (R44). -/
inductive BankId where
  | a
  | b
deriving DecidableEq, Repr

/-- The other of the two banks. -/
def BankId.other : BankId → BankId
  | .a => .b
  | .b => .a

/-- One value for each of the four lanes. -/
structure Quad (α : Type) where
  l0 : α
  l1 : α
  l2 : α
  l3 : α
deriving DecidableEq, Repr

/-- The same value for all four lanes. -/
def Quad.all {α : Type} (x : α) : Quad α := ⟨x, x, x, x⟩

/-- The value of lane `n`. -/
def Quad.get {α : Type} (q : Quad α) (n : Lane) : α :=
  match n with
  | 0 => q.l0
  | 1 => q.l1
  | 2 => q.l2
  | 3 => q.l3

/-- `q` with lane `n` at `x`. -/
def Quad.set {α : Type} (q : Quad α) (n : Lane) (x : α) : Quad α :=
  match n with
  | 0 => { q with l0 := x }
  | 1 => { q with l1 := x }
  | 2 => { q with l2 := x }
  | 3 => { q with l3 := x }

/-- The four values, lane 0 first. -/
def Quad.toList {α : Type} (q : Quad α) : List α := [q.l0, q.l1, q.l2, q.l3]

/-- Every lane's value changed by one function. -/
def Quad.map {α β : Type} (f : α → β) (q : Quad α) : Quad β := ⟨f q.l0, f q.l1, f q.l2, f q.l3⟩

/-- The four lanes in ascending order. -/
def allLanes : List Lane := [0, 1, 2, 3]

end Sys2Proof
end

