-- ==== Sys2Proof/Syntax.lean ====
section
/-! DEFINITION. The commands of the block: one constructor of `Instr` for each row of spec/opcode_table.json, with
the operands that the row's rule gives the event. -/

namespace Sys2Proof

/-- The mode line of a processor access, and the authority of a command: SERVICE is less than MAINT (R177). -/
inductive Mode where
  | service
  | maint
deriving DecidableEq, Repr

/-- The two beams of a lane (R124): beam A is on the reader side. -/
inductive Beam where
  | a
  | b
deriving DecidableEq, Repr

/-- What a word access asks for: a read, or a write with its four byte enables and its data (R159). Byte enable `i`
covers bits `8 i` to `8 i + 7` of the word. -/
inductive Access where
  | read
  | write (enables : BitVec 4) (data : Word)
deriving DecidableEq, Repr

/-- A processor write to the go word of a command slot (R175): the slot, the mode line of the access, the byte
enables and the data of word 7. -/
structure GoWrite where
  slot    : SlotId
  mode    : Mode
  enables : BitVec 4
  data    : Word
deriving DecidableEq, Repr

/-- The reader that presents a word, and how many words of the same access, a single word or a burst of 2 to 4, follow it
(R160). -/
structure BurstWord where
  lane : Lane
  left : Fin 4
deriving DecidableEq, Repr

/-- The steps of the LF-24, one for each row of the table. -/
inductive Instr where
  /-- RESET_N_ASSERT (R185). -/
  | resetNAssert
  /-- RESET_N_RELEASE (R185). -/
  | resetNRelease
  /-- CONFIGURATION_LOAD_END (R187): byte 1,023 of the ROM has been taken; the bytes, byte 0 first. -/
  | configurationLoadEnd (rom : List Byte)
  /-- FAULTED_GO_WRITE (R188). -/
  | faultedGoWrite (g : GoWrite)
  /-- BANK_SELECTION (R54). -/
  | bankSelection
  /-- START_UP_SCAN (R116). -/
  | startUpScan
  /-- ENTER_READY (R190). -/
  | enterReady
  /-- REQUEST_RISE (R13): the modems whose requests rise together. -/
  | requestRise (modems : Quad Bool)
  /-- REQUEST_DROP (R14, R16). -/
  | requestDrop (n : Lane)
  /-- GRANT_HOLD_EXPIRY (R15). -/
  | grantHoldExpiry
  /-- LANDING_WORD_WRITE (R7): reader `n` writes word `k` of its lane's landing image. -/
  | landingWordWrite (n : BurstWord) (k : Fin 16) (enables : BitVec 4) (data : Word)
  /-- TAP_WORD_WRITE (R10): reader `n` writes its lane's tap word. -/
  | tapWordWrite (n : BurstWord) (enables : BitVec 4) (data : Word)
  /-- SCREENING_RUN_START (R18). -/
  | screeningRunStart
  /-- LANDED_IMAGE_READ (R21, R22). -/
  | landedImageRead
  /-- JOURNAL_RESERVATION (R111). -/
  | journalReservation
  /-- FORMAT_CHECK (R23, R24). -/
  | formatCheck
  /-- DENY_LOOKUP (R29). -/
  | denyLookup
  /-- SIGHTINGS_LOOKUP (R37, R38). -/
  | sightingsLookup
  /-- FARE_COMPUTATION (R25, R39, R40, R56). -/
  | fareComputation
  /-- COMPOSE_WRITE_BACK (R101). -/
  | composeWriteBack
  /-- VERDICT_HANDOVER (R19). -/
  | verdictHandover
  /-- VERDICT_RECORD_WRITTEN (R78): the last word of lane `n`'s Verdict Record is written. -/
  | verdictRecordWritten (n : Lane)
  /-- PROCEED (R83, R84). -/
  | proceed (g : GoWrite)
  /-- CANCEL (R83, R85). -/
  | cancel (g : GoWrite)
  /-- DECISION_HOLD_EXPIRY (R86). -/
  | decisionHoldExpiry (n : Lane)
  /-- WRITE_BACK_READ (R87): reader `n` reads word `k` of its lane's write-back image. -/
  | writeBackRead (n : BurstWord) (k : Fin 16)
  /-- RESULT_WORD_WRITE (R88): reader `n` writes its lane's result word. -/
  | resultWordWrite (n : BurstWord) (enables : BitVec 4) (data : Word)
  /-- WRITE_TIMEOUT_EXPIRY (R90). -/
  | writeTimeoutExpiry (n : Lane)
  /-- RECOVERY_COMPARISON (R92): the comparison of lane `n`'s new landing reaches its outcome. -/
  | recoveryComparison (n : Lane)
  /-- RECOVERY_WINDOW_EXPIRY (R97). -/
  | recoveryWindowExpiry (n : Lane)
  /-- LANE_RESET (R98). -/
  | laneReset (g : GoWrite)
  /-- JOURNAL_APPEND_COMPLETE (R109). -/
  | journalAppendComplete
  /-- JOURNAL_RELEASE (R115). -/
  | journalRelease (g : GoWrite)
  /-- UNIT_RECORD_REWRITE_COMPLETE (R114). -/
  | unitRecordRewriteComplete
  /-- BANK_SWITCH (R47). -/
  | bankSwitch (g : GoWrite)
  /-- BANK_VALIDATION_END (R48 to R50). -/
  | bankValidationEnd
  /-- BANK_WRITE (R45): a processor write to the word at byte offset `offset` of a bank region. -/
  | bankWrite (bank : BankId) (offset : BitVec 20) (mode : Mode) (enables : BitVec 4) (data : Word)
  /-- SET_OVERRIDE (R67). -/
  | setOverride (g : GoWrite)
  /-- SET_DIRECTION (R121). -/
  | setDirection (g : GoWrite)
  /-- BEAM_CHANGE (R124): one beam input of lane `n` becomes blocked or clear. -/
  | beamChange (n : Lane) (beam : Beam) (blocked : Bool)
  /-- HEAD_TIMER_EXPIRY (R130). -/
  | headTimerExpiry (n : Lane)
  /-- ALARM_HOLD_EXPIRY (R132). -/
  | alarmHoldExpiry (n : Lane)
  /-- CLEAR_ALARM (R133). -/
  | clearAlarm (g : GoWrite)
  /-- GATE_FREE (R134). -/
  | gateFree (g : GoWrite)
  /-- GATE_NORMAL (R135). -/
  | gateNormal (g : GoWrite)
  /-- EMERGENCY_ASSERT (R136). -/
  | emergencyAssert
  /-- EMERGENCY_DEASSERT (R137). -/
  | emergencyDeassert
  /-- EMERGENCY_INPUT_BEFORE_READY (R138): the input's new level. -/
  | emergencyInputBeforeReady (asserted : Bool)
  /-- SLOT_BOUNDARY (R140). -/
  | slotBoundary
  /-- FRAME_COMPLETE (R145). -/
  | frameComplete
  /-- COLLISION (R145). -/
  | collision
  /-- FRAME_RECEIVED (R141): the slot of this unit's clock in which the frame began (R146), and its bytes. -/
  | frameReceived (beganIn : UnitId) (bytes : List Byte)
  /-- SIGHTING_MESSAGE (R153): the next message of a valid frame, a SIGHTING. -/
  | sightingMessage
  /-- DENY_MESSAGE (R154): the next message of a valid frame, a DENY. -/
  | denyMessage
  /-- CHECK_MESSAGE (R158): the next message of a valid frame, a CHECK message. -/
  | checkMessage
  /-- SILENCE_TIMER_EXPIRY (R144). -/
  | silenceTimerExpiry
  /-- RESYNC_END (R147). -/
  | resyncEnd
  /-- LINE_RESTART (R149). -/
  | lineRestart (g : GoWrite)
  /-- LINE_CHECK_START (R156). -/
  | lineCheckStart (g : GoWrite)
  /-- LINE_CHECK_STOP (R156). -/
  | lineCheckStop (g : GoWrite)
  /-- PROCESSOR_WORD_READ (R159). -/
  | processorWordRead (address : BitVec 32) (mode : Mode)
  /-- PROCESSOR_WORD_WRITE (R159, R164). -/
  | processorWordWrite (address : BitVec 32) (mode : Mode) (enables : BitVec 4) (data : Word)
  /-- READER_WORD_ACCESS (R160): a word access of reader `n`. -/
  | readerWordAccess (n : BurstWord) (address : BitVec 32) (access : Access)
  /-- MEMORY_ARBITER_CHOICE (R167). -/
  | memoryArbiterChoice
  /-- UNKNOWN_COMMAND_CODE (R177). -/
  | unknownCommandCode (g : GoWrite)
  /-- DENY_ADD (R32). -/
  | denyAdd (g : GoWrite)
  /-- DENY_REMOVE (R33). -/
  | denyRemove (g : GoWrite)
  /-- FAULT_RELEASE (R173). -/
  | faultRelease (g : GoWrite)
  /-- ECC_BUDGET_RESET (R174). -/
  | eccBudgetReset (g : GoWrite)
  /-- ACK_NOTICES (R183). -/
  | ackNotices (g : GoWrite)
  /-- SET_TIME (R180). -/
  | setTime (g : GoWrite)
  /-- SERVICE_CLOCK_ADVANCE (R179). -/
  | serviceClockAdvance
  /-- STATUS_WORD_WRITE (R184). -/
  | statusWordWrite
deriving DecidableEq, Repr

end Sys2Proof
end

