-- ==== Sys2Proof/Decode.lean ====
section
/-! DEFINITION. The commands that a word spells by the table's bits. -/

namespace Sys2Proof

/-- The command that a word of `nbits` bits spells by spec/opcode_table.json. The table gives no row any bits: its rows
are events of the part, not encodings. So no word spells a command. -/
def decodeTableWord (_nbits _w : Nat) : Option Instr := none

end Sys2Proof
end

