-- ==== Sys2Proof/Config.lean ====
section
/-! DEFINITION. What the part fixes for good (the sizes and constants the rules state), and the free values: what the
spec leaves open and the machine goes on after. What the configuration ROM holds is no constant of this file but state
(`Machine.Configuration`). -/

namespace Sys2Proof.Config

/-- Entries of the Local Deny List (R30). -/
def denyListSize : Nat := 256

/-- Entries of the Sightings Table (R34). -/
def sightingsSize : Nat := 512

/-- Messages of the Transmit Queue (R150). -/
def transmitQueueSize : Nat := 32

/-- Credits of a Credit Queue (R126). -/
def creditQueueSize : Nat := 3

/-- Bytes of the configuration image (R186). -/
def imageBytes : Nat := 1024

/-- The end of the address space: 16 MiB (R159). -/
def memoryEnd : Nat := 16777216

/-- The polynomial of the Check Unit (R4). -/
def crc32Polynomial : Word := 0x04C11DB7

/-- The polynomial of a line frame's CRC-16 (R141). -/
def crc16Polynomial : BitVec 16 := 0x1021

/-- The constant of a Unit Record copy's Mark (R114). -/
def unitRecordMark : Word := 0x6D3A91C4

/-- The sequence at which the journal is exhausted (R113). -/
def lastSequence : Nat := 4294967295

/-- FREE VALUE (log 9). The word an owner takes when a write with no byte enable set falls on a word that is not clean:
R171 hands it "the word as it already stands" without a word operation, and states no value for such a word. Nothing
constrains it; the argument numbers the draws. -/
opaque standingWord : Nat → Word

end Sys2Proof.Config
end

