-- ==== Sys2Proof/Machine/State.lean ====
section
/-! DEFINITION. Everything the spec gives the LF-24, as plain data, and its values while RESET_N is asserted. Each
type's docstring names the rule that gives it. What another field determines (PERMIT, ATTN, the grant lines, CFG_SEL,
the journal's occupancy) is computed in the machine files and not stored twice. -/

namespace Sys2Proof.Machine

/-! ### Time -/

/-- Service time (00, section 5): a day 0..65535 and a second of service day 0..86399. -/
structure ServiceTime where
  day    : Nat
  second : Nat
deriving DecidableEq, Repr

/-! ### The configuration (R186, R187) -/

/-- The Kinds of a region entry (R161). `absent` is the Kind NONE. -/
inductive RegionKind where
  | absent
  | lane
  | command
  | status
  | journal
  | bankA
  | bankB
  | plain
deriving DecidableEq, Repr

/-- The right of one source in one region (R161). `denied` is the right none. -/
inductive Right where
  | denied
  | readOnly
  | readWrite
deriving DecidableEq, Repr

/-- A region entry (R161). Base and Size count units of 4 KiB. -/
structure RegionEntry where
  kind     : RegionKind
  base     : Nat
  size     : Nat
  service  : Right
  maint    : Right
  reader   : Right
  admitted : Quad Bool
deriving DecidableEq, Repr

/-- The Use of a key slot (01, section 1.2). -/
inductive KeyUse where
  | current
  | accept
  | retired
deriving DecidableEq, Repr

/-- A key slot (R3). -/
structure KeySlot where
  generation : Byte
  key        : Word
  use        : KeyUse
deriving DecidableEq, Repr

/-- The Direction of a lane (R120). -/
inductive Direction where
  | entry
  | exit
deriving DecidableEq, Repr

/-- What a load puts into the blocks (R186). Times are in the units R76, R122, R13, R39 and R35 give them. -/
structure Configuration where
  regions          : List RegionEntry
  keys             : List KeySlot
  unitId           : UnitId
  lineEnabled      : Bool
  slotLength       : Nat
  station          : Nat
  zone             : Nat
  present          : Quad Bool
  directions       : Quad Direction
  decisionHold     : Nat
  writeTimeout     : Nat
  recoveryWindow   : Nat
  maximumReissues  : Nat
  passageTimeout   : Nat
  alarmHold        : Nat
  grantHoldLimit   : Nat
  repeatWindow     : Nat
  sightingsWindow  : Nat
  maximumJourney   : Nat
  transferWindow   : Nat
  maximumTransfers : Nat
  transferDiscount : Nat
  overdraftLimit   : Nat
  roundingUnit     : Nat
  fareCeiling      : Nat
  penaltyFare      : Nat
  serviceDayStart  : Nat
  noticeMask       : BitVec 18
deriving DecidableEq, Repr

/-- Before a load: no region, no key, every notice enable off (R161, R3, R181). The rest holds no value then; the
zeros are the model's (log 13). -/
def Configuration.unloaded : Configuration :=
  { regions := [], keys := [], unitId := 0, lineEnabled := false, slotLength := 0, station := 0, zone := 0,
    present := Quad.all false, directions := Quad.all .entry, decisionHold := 0, writeTimeout := 0,
    recoveryWindow := 0, maximumReissues := 0, passageTimeout := 0, alarmHold := 0, grantHoldLimit := 0,
    repeatWindow := 0, sightingsWindow := 0, maximumJourney := 0, transferWindow := 0, maximumTransfers := 0,
    transferDiscount := 0, overdraftLimit := 0, roundingUnit := 0, fareCeiling := 0, penaltyFare := 0,
    serviceDayStart := 0, noticeMask := 0 }

/-- The unit states (R185); `inReset` while RESET_N is asserted. -/
inductive UnitState where
  | inReset
  | loading
  | scanning
  | ready
  | faulted
deriving DecidableEq, Repr

/-- The causes of a failed load, in the order R187 lists them (R188). -/
inductive LoadFault where
  | check
  | kind
  | region
  | key
deriving DecidableEq, Repr

/-- The words that a block has read so far for what it is at, first read first; none for an uncorrectable word (R166,
R170). Each is one word operation, so that operations of other requesters may fall between them. -/
abbrev Fetched := List (Option Word)

/-- The Start-up Controller (R185 to R190). `selectionDone` and `scanDone` say which of the two works of SCANNING
have ended (R189); `got` holds what bank selection, and then the scan, has read so far. `usableSlots` is the base of the
command slots taken while FAULTED (R188). -/
structure StartUp where
  unit          : UnitState
  clamped       : Bool
  loadFault     : Option LoadFault
  usableSlots   : Option Nat
  selectionDone : Bool
  scanDone      : Bool
  got           : Fetched
deriving DecidableEq, Repr

/-! ### The fare memory -/

/-- The fare memory. `bytes` is the data last written, addresses rising and no byte 0 listed: an unlisted byte is 0
(log 7). `upsets` gives, by word address and rising, which of a word's 39 stored bits are wrong against the word last
written (R168); no mask 0 is listed: an unlisted word is clean. -/
structure Memory where
  bytes  : List Host.Cell
  upsets : List (Nat × BitVec 39)
deriving DecidableEq, Repr

/-! ### The ports and the memory path (09) -/

/-- A word presented at the Processor Port (R159). -/
structure ProcessorWord where
  address : Nat
  mode    : Mode
  access  : Access
deriving DecidableEq, Repr

/-- The answer to a port word (R159, R160): performed, with the data of a read; or refused or failed, by ERROR or the
exception line, a read then carrying all ones. -/
inductive Answer where
  | done (data : Option Word)
  | failed (data : Option Word)
deriving DecidableEq, Repr

/-- The Processor Port: the words presented and not yet answered, oldest first; whether the first of them has been
admitted and waits at the Memory Arbiter; the slot for whose six reads the first of them, a go-write that has been
performed, waits to be answered (R176); and the answers given, oldest first (log 5). -/
structure ProcessorPort where
  words   : List ProcessorWord
  taken   : Bool
  held    : Option SlotId
  answers : List Answer
deriving DecidableEq, Repr

/-- A word of a reader's access (R160). -/
structure ReaderWord where
  lane    : Lane
  address : Nat
  access  : Access
deriving DecidableEq, Repr

/-- What the Reader Port signals to a modem: the answer to a word, or the exception of a withdrawal (R15). -/
inductive ReaderSignal where
  | answer (n : Lane) (a : Answer)
  | withdrawn (n : Lane)
deriving DecidableEq, Repr

/-- The Reader Port (R12 to R16). `requests` are the request lines; `left` counts the words of the owner's access that it
has still to present (R160); `ending` says that the owner's request dropped while that access was in progress (R14). -/
structure ReaderPort where
  requests  : Quad Bool
  owner     : Option Lane
  last      : Lane
  holdTimer : Bool
  barred    : Quad Bool
  words     : List ReaderWord
  taken     : Bool
  left      : Fin 4
  ending    : Bool
  signals   : List ReaderSignal
deriving DecidableEq, Repr

/-- What of an internal block makes word operations of its own (R166): the Journal Writer, the Composer, the run of the
Screening Engine, the recovery comparison of a lane, the Verdict Record of a lane, the Status Area, a command slot of the
Command Taker, Bank Control and the Start-up Controller. Each offers one word at a time. -/
inductive Block where
  | journal
  | composer
  | run
  | comparison (n : Lane)
  | verdictRecord (n : Lane)
  | statusArea
  | commandSlot (k : SlotId)
  | bankControl
  | startUp
deriving DecidableEq, Repr

/-- The Memory Arbiter (R166): the Processor Port's consecutive-loss count, and the internal blocks whose word waits, in the
order in which their requests reached it. -/
structure Arbiter where
  losses   : Nat
  requests : List Block
deriving DecidableEq, Repr

/-- The nine fault kinds (R172). -/
inductive PathFault where
  | outside
  | rights
  | uncorrectable
  | bankLocked
  | landingLocked
  | notReleased
  | unexpectedResult
  | grantHold
  | slotBusy
deriving DecidableEq, Repr

/-- The source of a fault (R172). -/
inductive FaultSource where
  | processor
  | reader (n : Lane)
  | internal
deriving DecidableEq, Repr

/-- The direction of a word access. -/
inductive AccessDirection where
  | read
  | write
deriving DecidableEq, Repr

/-- The First Fault (R172). -/
structure FirstFault where
  kind      : PathFault
  source    : FaultSource
  address   : Option Nat
  direction : Option AccessDirection
  mode      : Option Mode
  time      : Option ServiceTime
deriving DecidableEq, Repr

/-- The Fault Record (R172). Held is set exactly while a First Fault is present. -/
structure FaultRecord where
  first   : Option FirstFault
  further : Nat
deriving DecidableEq, Repr

/-! ### Cards, verdicts and lanes (01, 02, 05) -/

/-- A card image (R1, R2): sixteen words. -/
abbrev Image := Vector Word 16

/-- The Reader Status of a tap word (R9). -/
inductive ReaderStatus where
  | good
  | collision
  | readError
deriving DecidableEq, Repr

/-- What an arrival hands over (R10), and the service time when it was taken (R82). -/
structure Arrival where
  status   : ReaderStatus
  complete : Bool
  time     : Option ServiceTime
deriving DecidableEq, Repr

/-- The reasons of UNREADABLE (R26). -/
inductive UnreadableReason where
  | status
  | mask
  | memory
  | format
  | serial
  | carry
  | product
  | inconsistent
deriving DecidableEq, Repr

/-- The reasons of UNIT_FAULT (R26). -/
inductive UnitFaultReason where
  | clock
  | noBank
  | bankDamaged
deriving DecidableEq, Repr

/-- The verdicts of R26, with their reasons and, for DENIED CENTRAL, the central Reason code and Flags. -/
inductive Decision where
  | accept
  | multipleCards
  | unreadable (reason : UnreadableReason)
  | unitFault (reason : UnitFaultReason)
  | emergency
  | gateBusy
  | journalFull
  | forgedKey
  | forgedTag
  | deniedCentral (reason flags : Byte)
  | deniedLocal
  | deniedNeighbor
  | cloneRegression
  | cloneDiverged
  | counterExhausted
  | repeated
  | passback
  | insufficient
  | laneRecovering
deriving DecidableEq, Repr

/-- The fare flags (R57). -/
structure FareFlags where
  penalty  : Bool
  override : Bool
  pass     : Bool
  linked   : Bool
  capped   : Bool
  negative : Bool
deriving DecidableEq, Repr

/-- No fare flag set. -/
def FareFlags.none : FareFlags := ⟨false, false, false, false, false, false⟩

/-- The Verdict field of a Lane Context (R75): the fare, fare flags and DEGRADED of the lane's latest ACCEPT. Its code
is ACCEPT, which has no reason and no detail. -/
structure Verdict where
  fare     : Nat
  flags    : FareFlags
  degraded : Bool
deriving DecidableEq, Repr

/-- The states of a Lane Context (R75). -/
inductive LaneState where
  | idle
  | screening
  | decided
  | released
  | recovery
deriving DecidableEq, Repr

/-- The timer of a Lane Controller (R76): stopped, or running with one of three periods (log 3). -/
inductive LaneTimer where
  | stopped
  | decisionHold
  | writeTimeout
  | recoveryWindow
deriving DecidableEq, Repr

/-- A Lane Context (R75), with the lane's landing mask (R8), the arrival handed over (R10), the marks that the lane is
appending (R80) and comparing (R92), the words that the comparison has read so far, the slot whose LANE_RESET waits for the
run (R98), and the slots of the commands that wait for the lane, oldest first (R80). -/
structure LaneContext where
  state          : LaneState
  verdictNumber  : Nat
  landed         : Option Image
  composed       : Option Image
  verdict        : Option Verdict
  pinned         : Option BankId
  reservation    : Nat
  pendingSeq     : Option Nat
  reissues       : Nat
  timer          : LaneTimer
  resetRequested : Bool
  mask           : BitVec 16
  arrival        : Option Arrival
  appending      : Bool
  comparing      : Bool
  got            : Fetched
  resetSlot      : Option SlotId
  waiting        : List SlotId
deriving DecidableEq, Repr

/-- A Lane Context after unit reset (R75, R8). -/
def LaneContext.reset : LaneContext :=
  { state := .idle, verdictNumber := 0, landed := none, composed := none, verdict := none, pinned := none,
    reservation := 0, pendingSeq := none, reissues := 0, timer := .stopped, resetRequested := false, mask := 0,
    arrival := none, appending := false, comparing := false, got := [], resetSlot := none,
    waiting := [] }

/-! ### Fares and the run (02, 04) -/

/-- The journey fields of the write-back (R62, R74): the entry fields of an entry, or the last exit of an exit. -/
inductive JourneyStamp where
  | entry (time : ServiceTime) (station zone : Nat)
  | exit (time : ServiceTime) (station : Nat)
deriving DecidableEq, Repr

/-- The write-back values that the Fare Unit hands the Composer (R62, R74). -/
structure WriteBack where
  balance       : Int
  daySpent      : Nat
  spendDay      : Nat
  transferCount : Nat
  inside        : Bool
  linked        : Bool
  stamp         : JourneyStamp
deriving DecidableEq, Repr

/-- The result of a fare computation (R56): the fare, the flags, the money test, the write-back values. -/
structure FareResult where
  fare      : Nat
  flags     : FareFlags
  passed    : Bool
  writeBack : WriteBack
deriving DecidableEq, Repr

/-- How far a run has come: the step it makes next (02, section 2.2). -/
inductive RunStage where
  | landing
  | reserving
  | format
  | deny
  | sightings
  | fare
  | composing
  | decided
  | refusing
deriving DecidableEq, Repr

/-- A run in progress (R18, R19): the current lane, the stage, the words that the stage has read so far, the run's now, the
verdict once reached, the fare result, the image being composed with the number of its words written (R101), whether the
pinned bank was made DAMAGED during the run (R20), and DEGRADED as tested for a verdict whose REFUSAL entry is being
appended. -/
structure Run where
  lane        : Lane
  stage       : RunStage
  got         : Fetched
  now         : Option ServiceTime
  decision    : Option Decision
  fare        : Option FareResult
  image       : Option Image
  written     : Nat
  bankDamaged : Bool
  degraded    : Bool
deriving DecidableEq, Repr

/-- The Screening Engine: the Screening Queue (R17) and the run in progress (R18). -/
structure Screening where
  queue : List Lane
  run   : Option Run
deriving DecidableEq, Repr

/-- The service override (R66). -/
structure FareUnit where
  overrideOn : Bool
  factor     : Nat
deriving DecidableEq, Repr

/-! ### The deny list and the sightings (02) -/

/-- Where a deny or a sighting came from (R30, R34). -/
inductive Origin where
  | own
  | neighbor
deriving DecidableEq, Repr

/-- Why a Serial is denied (R30). -/
inductive DenyReason where
  | clone
  | operator
deriving DecidableEq, Repr

/-- An entry of the Local Deny List (R30). -/
structure DenyEntry where
  serial : Serial
  origin : Origin
  reason : DenyReason
  time   : Option ServiceTime
deriving DecidableEq, Repr

/-- An entry of the Sightings Table (R34). -/
structure Sighting where
  serial  : Serial
  counter : Nat
  balance : Word
  unitId  : UnitId
  time    : ServiceTime
  origin  : Origin
deriving DecidableEq, Repr

/-! ### The journal (06) -/

/-- The gate states (R122). -/
inductive GateState where
  | closed
  | opened
  | alarm
  | free
  | emergency
deriving DecidableEq, Repr

/-- The transaction kinds with their own flags (R108; codes in 12.5), REFUSAL apart. -/
inductive TransactionKind where
  | pending
  | commit (conflict recovered : Bool)
  | uncertain
  | uncertainWindow
  | uncertainReset
  | uncertainRestart
  | notCharged
  | notChargedCancelled
  | notChargedExpired
  | notChargedReissuesSpent
  | notChargedReset
  | cancelled
  | cancelledReset
  | expired
deriving DecidableEq, Repr

/-- The contents of a journal entry that its kind decides (R107, R108, R27, R31, R49, R53, R118, R139, R153). -/
inductive EntryBody where
  | transaction (kind : TransactionKind) (serial : Serial) (counter fare : Nat) (balance : Word)
      (reference : Option Nat)
  | refusal (decision : Decision) (serial : Serial) (counter fare : Nat) (balance : Word)
  | unusedPassage (held commitSeq : Nat)
  | tailgate (gate : GateState)
  | wrongWay (gate : GateState) (head : Option Nat)
  | clone (serial : Serial) (counter : Nat) (balance : Word) (sender table : UnitId)
      (unitDiffers balanceDiffers : Bool)
  | denyAdded (serial : Serial) (displaced : Option Serial) (origin : Origin) (reason : DenyReason)
      (originUnit : UnitId)
  | emergencyStart (present : Quad Bool)
  | emergencyEnd (present : Quad Bool)
  | bankSwitch (new : BankId) (version : Word) (former : Option (BankId × Word))
  | bankFallback (damaged : BankId) (new : Option (BankId × Word))
  | restart (nextFound resolutions : Nat) (recordInvalid : Bool)
deriving DecidableEq, Repr

/-- A journal entry before it takes its sequence (R107): the lane, the Time, the fare flags and DEGRADED, the contents,
and the lane whose reservation it uses (none for an append into free space, R112). -/
structure EntryDraft where
  lane     : Option Lane
  time     : Option ServiceTime
  flags    : FareFlags
  degraded : Bool
  body     : EntryBody
  reserved : Option Lane
deriving DecidableEq, Repr

/-- The requester's step that follows an append (R109). -/
inductive AfterAppend where
  | nothing
  /-- PROCEED's release (R84). -/
  | release (n : Lane) (slot : SlotId)
  /-- The lane returns to IDLE (R85, R86, R88, R97, R98); the slot whose command completes DONE. -/
  | toIdle (n : Lane) (slot : Option SlotId)
  /-- The REFUSAL entry of a run is whole: the hand-over follows (R27, R78). -/
  | handOver (n : Lane)
  /-- The COMMIT entry is whole: the credit, with its Grant Time, and the return to IDLE (R89, R104). -/
  | credit (n : Lane) (grant : Option ServiceTime)
  /-- NOT_CHARGED with re-issues spent: fresh screening (R95). -/
  | rescreen (n : Lane)
  /-- UNCERTAIN for a partly written card: the Verdict Record INCONSISTENT (R96). -/
  | inconsistent (n : Lane) (landing : Image)
deriving DecidableEq, Repr

/-- A request that reaches the Journal Writer (R109). `giveBack` is a return of reserved entries (R111); `releasing`
marks the rewrite of a JOURNAL_RELEASE (R115). -/
inductive JournalRequest where
  | reserve (n : Lane)
  | giveBack (k : Nat)
  | append (draft : EntryDraft) (next : AfterAppend)
  | rewrite (releasing : Bool)
deriving DecidableEq, Repr

/-- The request in progress (R109): eight words to write, and how many of them are written. -/
inductive JournalJob where
  | reserve (n : Lane)
  | append (seq : Nat) (words : Vector Word 8) (written : Nat) (reserved : Option Lane) (next : AfterAppend)
  | rewrite (words : Vector Word 8) (written : Nat) (releasing : Bool)
deriving DecidableEq, Repr

/-- The Journal Writer (R106, R109, R115, R117), with the bank and Version that the Unit Record names (R114). -/
structure Journal where
  next             : Nat
  released         : Nat
  reservationTotal : Nat
  unrecorded       : Nat
  job              : Option JournalJob
  queue            : List JournalRequest
  release          : Option (SlotId × Nat)
  activeBank       : Option BankId
  activeVersion    : Word
  resolutions      : Nat
deriving DecidableEq, Repr

/-! ### The banks (03) -/

/-- The bank states (R44). -/
inductive BankState where
  | empty
  | staging
  | validating
  | valid
  | active
  | damaged
deriving DecidableEq, Repr

/-- What Bank Control holds of one bank (R44). `state` is none until start-up selection. -/
structure Bank where
  state   : Option BankState
  pins    : Nat
  version : Word
deriving DecidableEq, Repr

/-- Bank Control (R44): the banks, the validation mark with the slot of its command, the words that the validation has read
so far, the fallback mark, and the entry that selection makes due (R55). -/
structure BankControl where
  a          : Bank
  b          : Bank
  validation : Option (BankId × SlotId)
  got        : Fetched
  fallback   : Bool
  due        : Option EntryBody
deriving DecidableEq, Repr

/-! ### The gates (07) -/

/-- A credit (R126). -/
structure Credit where
  commitSeq : Nat
  grant     : Option ServiceTime
deriving DecidableEq, Repr

/-- The Beam State (R124). -/
inductive BeamState where
  | clear
  | a
  | ab
  | b
deriving DecidableEq, Repr

/-- The Entry Beam (R124). -/
inductive EntryBeam where
  | absent
  | a
  | b
  | unknown
deriving DecidableEq, Repr

/-- A Gate Sequencer (R120, R122), with the two beam inputs of its lane. -/
structure Gate where
  direction     : Direction
  state         : GateState
  credits       : List Credit
  inputA        : Bool
  inputB        : Bool
  beams         : BeamState
  entryBeam     : EntryBeam
  crossed       : Bool
  headTimer     : Bool
  expiryPending : Bool
  alarmTimer    : Bool
deriving DecidableEq, Repr

/-- A Gate Sequencer after unit reset with its beams clear (R122). -/
def Gate.reset : Gate :=
  { direction := .entry, state := .closed, credits := [], inputA := false, inputB := false, beams := .clear,
    entryBeam := .absent, crossed := false, headTimer := false, expiryPending := false, alarmTimer := false }

/-! ### The neighbor line (08) -/

/-- A message that waits to be sent (R142, R150). -/
inductive TransmitMessage where
  | sighting (serial : Serial) (counter : Nat) (balance : Word)
  | deny (serial : Serial) (reason : DenyReason)
deriving DecidableEq, Repr

/-- An item of the Transmit Queue: the message and its in-flight mark (R145). -/
structure QueuedMessage where
  message  : TransmitMessage
  inFlight : Bool
deriving DecidableEq, Repr

/-- A message of a received frame (R142). -/
inductive ReceivedMessage where
  | sighting (serial : Serial) (counter : Nat) (balance : Word) (unitId : UnitId)
  | deny (serial : Serial) (reason : DenyReason) (origin : UnitId)
  | check (index : Nat) (pattern : Vector Byte 8)
deriving DecidableEq, Repr

/-- The membership states (R143). -/
inductive Membership where
  | silent
  | listen
  | joined
  | resync
  | check
deriving DecidableEq, Repr

/-- The modes of a line check (R156). -/
inductive CheckMode where
  | line
  | wrap
deriving DecidableEq, Repr

/-- A frame being sent (R145, R157): its bytes, and its CHECK messages' Indices and patterns when it is a frame of a
check in WRAP mode, to be looped back. -/
structure SentFrame where
  cycle  : Nat
  bytes  : List Byte
  looped : List ReceivedMessage
deriving DecidableEq, Repr

/-- An entry of the Presence table (R155). -/
structure Presence where
  lastCycle : Option Nat
  silence   : Nat
deriving DecidableEq, Repr

/-- A First Mismatch (R158). -/
structure FirstMismatch where
  index    : Nat
  position : Nat
  expected : Byte
  received : Byte
deriving DecidableEq, Repr

/-- An entry of the Check Results table (R158). -/
structure CheckResult where
  synced     : Bool
  lastIndex  : Option Nat
  checked    : Nat
  mismatches : Nat
  missing    : Nat
  first      : Option FirstMismatch
deriving DecidableEq, Repr

/-- A cleared entry (R158). -/
def CheckResult.cleared : CheckResult :=
  { synced := false, lastIndex := none, checked := 0, mismatches := 0, missing := 0, first := none }

/-- The Neighbor Line Controller (08). `joining` says that a frame has aligned the clock in LISTEN and the next slot
boundary makes the controller JOINED (R144); `cycles` counts the cycle boundaries passed in RESYNC (R147); `inbox`
holds the messages of valid frames that have not been taken yet, each with its sender (R152). -/
structure Line where
  membership    : Membership
  slot          : UnitId
  cycle         : Nat
  aligned       : Bool
  running       : Bool
  silenceTimer  : Bool
  joining       : Bool
  cycles        : Nat
  misaligned    : Nat
  queue         : List QueuedMessage
  dropped       : Nat
  framingErrors : Nat
  sending       : Option SentFrame
  inbox         : List (UnitId × ReceivedMessage)
  presence      : Vector Presence 16
  mode          : Option CheckMode
  injection     : Bool
  sendIndex     : Nat
  generator     : BitVec 15
  results       : Vector CheckResult 16
deriving DecidableEq, Repr

/-- The Presence table after reset and in SILENT (R155). -/
def presenceReset : Vector Presence 16 := Vector.replicate 16 ⟨none, 4⟩

/-- The Neighbor Line Controller after unit reset (R140, R141, R143, R146, R150, R151, R155, R158; log 13 for the
check mode, the send Index and the generator). -/
def Line.reset : Line :=
  { membership := .silent, slot := 0, cycle := 0, aligned := false, running := false, silenceTimer := false,
    joining := false, cycles := 0, misaligned := 0, queue := [], dropped := 0, framingErrors := 0, sending := none,
    inbox := [], presence := presenceReset, mode := none, injection := false, sendIndex := 0,
    generator := 0x7FFF, results := Vector.replicate 16 CheckResult.cleared }

/-! ### Commands and the Status Area (10) -/

/-- A command as taken (R176, R177): words 0 to 5 as read, and the effective authority. -/
structure CommandRecord where
  code      : Word
  target    : Word
  arg3      : Word
  arg4      : Word
  arg5      : Word
  authority : Mode
deriving DecidableEq, Repr

/-- The six reads of a slot whose command has been taken (R176): the mode line of its go-write, and the words read so
far. -/
structure SlotRead where
  mode : Mode
  got  : Fetched
deriving DecidableEq, Repr

/-- A result word that is still to be written (R178), and whether the slot's Detail Value has to be written before it. -/
structure SlotResult where
  word        : Word
  afterDetail : Bool
deriving DecidableEq, Repr

/-- What the Command Taker holds of a slot (R175, R176, R178): the Busy mark, Last Taken, the reads while they are made, the
command from then until it completes, the result word until it is written, and the Detail Value. -/
structure CommandSlot where
  busy        : Bool
  lastTaken   : Nat
  reading     : Option SlotRead
  command     : Option CommandRecord
  result      : Option SlotResult
  detailValue : Word
deriving DecidableEq, Repr

/-- What follows when a Verdict Record is complete (R78, R11, R92, R94, R96). -/
inductive AfterRecord where
  | decided
  | idle
  | answeredInRecovery
  | staysInRecovery
  | reissued
deriving DecidableEq, Repr

/-- A Verdict Record being written (R82): its lane and number, its eight words, how many are written (word 0 comes
last), and what follows. -/
structure RecordJob where
  lane    : Lane
  number  : Nat
  words   : Vector Word 8
  written : Nat
  next    : AfterRecord
deriving DecidableEq, Repr

/-- The Status Writer: the notice flags (R181), the stale set as rising word numbers of the Status Area, the Change
Count and those of its values that are still to be written, oldest first (R184), and the Verdict Records being written,
oldest first (R82). -/
structure StatusWriter where
  notices     : BitVec 18
  stale       : List Nat
  changeCount : Option (BitVec 32)
  due         : List Word
  records     : List RecordJob
deriving DecidableEq, Repr

/-! ### The whole -/

/-- The LF-24. -/
structure State where
  /-- The commands that wait, first in, first out (the model's own, log 1). -/
  pending      : List Instr
  /-- How many free values have been drawn (the model's own, log 9). -/
  freeDraws    : Nat
  startUp      : StartUp
  cfg          : Configuration
  /-- The level of the EMERGENCY input (R136). -/
  emergency    : Bool
  memory       : Memory
  processor    : ProcessorPort
  reader       : ReaderPort
  arbiter      : Arbiter
  /-- The corrected-error budget (R169). -/
  budget       : Nat
  faultRecord  : FaultRecord
  lanes        : Quad LaneContext
  /-- The last Verdict Number taken in the unit (R81). -/
  verdictCount : Nat
  screening    : Screening
  fareUnit     : FareUnit
  denyList     : List DenyEntry
  sightings    : List Sighting
  journal      : Journal
  banks        : BankControl
  gates        : Quad Gate
  line         : Line
  slots        : Vector CommandSlot 8
  status       : StatusWriter
  /-- The Service Clock (R179): none while UNSET. -/
  clock        : Option ServiceTime
deriving DecidableEq, Repr

/-- The machine while RESET_N is asserted, right after power: every block at its reset value (R185), memory with
nothing listed (log 7), every input low. -/
def State.reset : State :=
  { pending := []
    freeDraws := 0
    startUp := { unit := .inReset, clamped := false, loadFault := none, usableSlots := none,
                 selectionDone := false, scanDone := false, got := [] }
    cfg := Configuration.unloaded
    emergency := false
    memory := { bytes := [], upsets := [] }
    processor := { words := [], taken := false, held := none, answers := [] }
    reader := { requests := Quad.all false, owner := none, last := 3, holdTimer := false, barred := Quad.all false,
                words := [], taken := false, left := 0, ending := false, signals := [] }
    arbiter := { losses := 0, requests := [] }
    budget := 255
    faultRecord := { first := none, further := 0 }
    lanes := Quad.all LaneContext.reset
    verdictCount := 0
    screening := { queue := [], run := none }
    fareUnit := { overrideOn := false, factor := 1000 }
    denyList := []
    sightings := []
    journal := { next := 1, released := 0, reservationTotal := 0, unrecorded := 0, job := none, queue := [],
                 release := none, activeBank := none, activeVersion := 0, resolutions := 0 }
    banks := { a := ⟨none, 0, 0⟩, b := ⟨none, 0, 0⟩, validation := none, got := [], fallback := false, due := none }
    gates := Quad.all Gate.reset
    line := Line.reset
    slots := Vector.replicate 8
      { busy := false, lastTaken := 0, reading := none, command := none, result := none, detailValue := 0 }
    status := { notices := 0, stale := [], changeCount := none, due := [], records := [] }
    clock := none }

/-! ### How a step can stop -/

/-- The faults that stop the machine. There is none: the spec gives the LF-24 an answer, an outcome or a recorded
fault for every event (R165, R178, R188), and after each of them it goes on. So no constructor. -/
inductive Fault where
deriving DecidableEq, Repr

/-- The refusals of a step. -/
inductive Refusal where
  /-- Raised by exec for a row that has no meaning yet. Safe: nothing is claimed of the row. No row is left so. -/
  | notModelled (mnemonic : String)
deriving DecidableEq, Repr

end Sys2Proof.Machine
end

