-- ==== Sys2Proof/Machine/Operands.lean ====
section
/-! DEFINITION. How the part reads its operands: bit fields and byte order (R191), the Check Unit's shift (R4, R141),
the pattern generator (R157), and the fields of a card image (R1, R2; layout 12.2). -/

namespace Sys2Proof.Machine

/-! ### Words, bytes and fields -/

/-- Bits `lo` to `lo + len - 1` of a word, as an unsigned number. -/
def bits (w : Word) (lo len : Nat) : Nat := w.toNat / 2 ^ lo % 2 ^ len

/-- The number `v` in bits `lo` to `lo + len - 1` of a word that is 0 elsewhere. -/
def put (v lo len : Nat) : Word := BitVec.ofNat 32 (v % 2 ^ len * 2 ^ lo)

/-- A flag in bit `i` of a word that is 0 elsewhere. -/
def putFlag (b : Bool) (i : Nat) : Word := if b then put 1 i 1 else 0

/-- The number of a flag. -/
def flagNumber (b : Bool) : Nat := if b then 1 else 0

/-- Byte `i` of a word in little-endian order (R191): byte 0 is the one at the lowest address. -/
def byteOf (w : Word) (i : Nat) : Byte := BitVec.ofNat 8 (bits w (8 * i) 8)

/-- The word whose bytes are `b0` to `b3`, `b0` at the lowest address (R191). -/
def wordOfBytes (b0 b1 b2 b3 : Byte) : Word :=
  put b0.toNat 0 8 ||| put b1.toNat 8 8 ||| put b2.toNat 16 8 ||| put b3.toNat 24 8

/-- The four bytes of a word, lowest address first. -/
def bytesOf (w : Word) : List Byte := [byteOf w 0, byteOf w 1, byteOf w 2, byteOf w 3]

/-- The enabled bytes from the new data and the others from the word read (R171). -/
def mergeBytes (enables : BitVec 4) (old new : Word) : Word :=
  let pick (i : Nat) : Byte := if enables.getLsbD i then byteOf new i else byteOf old i
  wordOfBytes (pick 0) (pick 1) (pick 2) (pick 3)

/-- A Serial from its two words, low word first (R191). -/
def serialOf (low high : Word) : Serial := BitVec.ofNat 64 (low.toNat + high.toNat * 2 ^ 32)

/-- The low word of a Serial. -/
def serialLow (x : Serial) : Word := BitVec.ofNat 32 x.toNat

/-- The high word of a Serial. -/
def serialHigh (x : Serial) : Word := BitVec.ofNat 32 (x.toNat / 2 ^ 32)

/-- A count raised by `n`, saturating at `top` (00, section 5). -/
def saturate (top n : Nat) : Nat := min top n

/-- A value clamped to a range (00, section 5). -/
def clamp (low high v : Nat) : Nat := max low (min high v)

/-- Absolute service seconds (00, section 5). -/
def ServiceTime.absolute (t : ServiceTime) : Nat := t.day * 86400 + t.second

/-! ### The Check Unit -/

/-- One step of the shift of R4: the exclusive-or of the top bit and the data bit, a shift left by one, and the
polynomial if the exclusive-or was 1. -/
def checkShift {n : Nat} (polynomial register : BitVec n) (bit : Bool) : BitVec n :=
  if register.msb != bit then (register <<< 1) ^^^ polynomial else register <<< 1

/-- One byte through the shift, its most significant bit first (R4). -/
def checkByte {n : Nat} (polynomial register : BitVec n) (b : Byte) : BitVec n :=
  [7, 6, 5, 4, 3, 2, 1, 0].foldl (fun r i => checkShift polynomial r (b.getLsbD i)) register

/-- A run of bytes through the shift (R4), with no final inversion. -/
def checkBytes {n : Nat} (polynomial register : BitVec n) (bytes : List Byte) : BitVec n :=
  bytes.foldl (checkByte polynomial) register

/-- The CRC-32 of the Bank Check and the configuration check: the register starts at all ones (R5, R41, R186). -/
def crc32 (bytes : List Byte) : Word := checkBytes Config.crc32Polynomial (BitVec.allOnes 32) bytes

/-- The CRC-16 of a line frame (R141). -/
def crc16 (bytes : List Byte) : BitVec 16 := checkBytes Config.crc16Polynomial (BitVec.allOnes 16) bytes

/-- The card tag (R4): the shift over the 60 bytes of words 0 to 14, starting from the key. -/
def cardTag (key : Word) (image : Image) : Word :=
  checkBytes Config.crc32Polynomial key ((image.toList.take 15).flatMap bytesOf)

/-! ### The pattern generator -/

/-- The output bit of the generator: the exclusive-or of stages 15 and 14 (R157). Stage `k` is bit `k - 1`. -/
def generatorBit (g : BitVec 15) : Bool := g.getLsbD 14 != g.getLsbD 13

/-- The generator after one output bit: every stage moves one place toward stage 15 and the output enters at
stage 1 (R157). -/
def generatorNext (g : BitVec 15) : BitVec 15 :=
  (g <<< 1) ||| (if generatorBit g then 1 else 0)

/-- The generator after `n` output bits. -/
def generatorRun (g : BitVec 15) (n : Nat) : BitVec 15 := n.repeat generatorNext g

/-- The generator as seeded: every stage holds 1 (R157). -/
def generatorSeed : BitVec 15 := 0x7FFF

/-- The next pattern byte, most significant bit first, and the generator after it (R157). -/
def patternByte (g : BitVec 15) : Byte × BitVec 15 :=
  [0, 1, 2, 3, 4, 5, 6, 7].foldl
    (fun (p : Byte × BitVec 15) _ =>
      ((p.1 <<< 1) ||| (if generatorBit p.2 then 1 else 0), generatorNext p.2)) (0, g)

/-- The eight pattern bytes that the generator gives next, and the generator after them (R157). -/
def patternBytes (g : BitVec 15) : Vector Byte 8 × BitVec 15 :=
  let p0 := patternByte g
  let p1 := patternByte p0.2
  let p2 := patternByte p1.2
  let p3 := patternByte p2.2
  let p4 := patternByte p3.2
  let p5 := patternByte p4.2
  let p6 := patternByte p5.2
  let p7 := patternByte p6.2
  (#v[p0.1, p1.1, p2.1, p3.1, p4.1, p5.1, p6.1, p7.1], p7.2)

/-- The pattern bytes of Index `j`: bytes `8 j` to `8 j + 7` counted from the seed. The stream repeats after 32,767
bits (R157). -/
def patternOf (j : Nat) : Vector Byte 8 := (patternBytes (generatorRun generatorSeed (64 * j % 32767))).1

/-! ### The card image (12.2) -/

/-- Format (R1). -/
def cardFormat (img : Image) : Nat := bits img[0] 0 8
/-- Key Generation (R1). -/
def cardGeneration (img : Image) : Byte := byteOf img[0] 1
/-- The INSIDE flag (R1). -/
def cardInside (img : Image) : Bool := img[0].getLsbD 16
/-- The LINKED flag (R1). -/
def cardLinked (img : Image) : Bool := img[0].getLsbD 17
/-- The six further flags (R1). -/
def cardFurtherFlags (img : Image) : Nat := bits img[0] 18 6
/-- Product Class (R1). -/
def cardProduct (img : Image) : Nat := bits img[0] 24 4
/-- Carry Count (R1). -/
def cardCarryCount (img : Image) : Nat := bits img[0] 28 3
/-- Serial (R1). -/
def cardSerial (img : Image) : Serial := serialOf img[1] img[2]
/-- Counter (R1). -/
def cardCounter (img : Image) : Nat := bits img[3] 0 16
/-- Day Spent (R1). -/
def cardDaySpent (img : Image) : Nat := bits img[3] 16 16
/-- Balance, in cents (R1, R191). -/
def cardBalance (img : Image) : Int := img[4].toInt
/-- Spend Day (R1). -/
def cardSpendDay (img : Image) : Nat := bits img[5] 0 16
/-- Entry Day (R2). -/
def cardEntryDay (img : Image) : Nat := bits img[5] 16 16
/-- Entry Second, read as 86,399 when it is above (R2). -/
def cardEntrySecond (img : Image) : Nat := min 86399 (bits img[6] 0 17)
/-- Entry Station (R2). -/
def cardEntryStation (img : Image) : Nat := bits img[6] 17 12
/-- Transfer Count (R1). -/
def cardTransferCount (img : Image) : Nat := bits img[6] 29 2
/-- Last Exit Day (R2). -/
def cardLastExitDay (img : Image) : Nat := bits img[7] 0 16
/-- Pass Expiry Day (R2). -/
def cardPassExpiry (img : Image) : Nat := bits img[7] 16 16
/-- Last Exit Second, read as 86,399 when it is above (R2). -/
def cardLastExitSecond (img : Image) : Nat := min 86399 (bits img[8] 0 17)
/-- Last Exit Station; 0 means no last exit (R2). -/
def cardLastExitStation (img : Image) : Nat := bits img[8] 17 12
/-- Entry Zone (R2). -/
def cardEntryZone (img : Image) : Nat := bits img[9] 0 4
/-- Pass Zone Low (R2). -/
def cardPassLow (img : Image) : Nat := bits img[9] 4 4
/-- Pass Zone High (R2). -/
def cardPassHigh (img : Image) : Nat := bits img[9] 8 4
/-- Carry Word `i` (R1). -/
def cardCarryWord (img : Image) (i : Fin 4) : Word := img[10 + i.val]
/-- Tag (R1). -/
def cardTagField (img : Image) : Word := img[15]

/-- The slot that holds a generation, the lowest-numbered if several do (R3). -/
def keySlotFor (keys : List KeySlot) (generation : Byte) : Option KeySlot :=
  keys.find? (fun k => k.generation == generation)

/-- The key for the check of a landed image (R3): none if no slot holds its generation or that slot is RETIRED. -/
def keyForCheck (keys : List KeySlot) (generation : Byte) : Option Word :=
  match keySlotFor keys generation with
  | some k => if k.use = .retired then none else some k.key
  | none => none

/-- The CURRENT slot, whose Key and Generation a write-back takes (R3). -/
def currentKey (keys : List KeySlot) : KeySlot :=
  (keys.find? (fun k => k.use == .current)).getD ⟨0, 0, .retired⟩

/-- The write-back image (R100, R101), formed from the landed image and the Fare Unit's values and re-tagged under the
CURRENT key (R5). Bits that carry no field are 0 (R192). -/
def composeImage (keys : List KeySlot) (img : Image) (w : WriteBack) : Image :=
  let key := currentKey keys
  let entryDay := match w.stamp with | .entry t _ _ => t.day | .exit _ _ => cardEntryDay img
  let entrySecond := match w.stamp with | .entry t _ _ => t.second | .exit _ _ => cardEntrySecond img
  let entryStation := match w.stamp with | .entry _ station _ => station | .exit _ _ => cardEntryStation img
  let entryZone := match w.stamp with | .entry _ _ zone => zone | .exit _ _ => cardEntryZone img
  let exitDay := match w.stamp with | .entry _ _ _ => cardLastExitDay img | .exit t _ => t.day
  let exitSecond := match w.stamp with | .entry _ _ _ => cardLastExitSecond img | .exit t _ => t.second
  let exitStation := match w.stamp with | .entry _ _ _ => cardLastExitStation img | .exit _ station => station
  let carry (i : Fin 4) : Word := if i.val < cardCarryCount img then cardCarryWord img i else 0
  let untagged : Image :=
    #v[put 1 0 8 ||| put key.generation.toNat 8 8 ||| putFlag w.inside 16 ||| putFlag w.linked 17
         ||| put (cardFurtherFlags img) 18 6 ||| put (cardProduct img) 24 4 ||| put (cardCarryCount img) 28 3,
       img[1], img[2],
       put (cardCounter img + 1) 0 16 ||| put w.daySpent 16 16,
       BitVec.ofInt 32 w.balance,
       put w.spendDay 0 16 ||| put entryDay 16 16,
       put entrySecond 0 17 ||| put entryStation 17 12 ||| put w.transferCount 29 2,
       put exitDay 0 16 ||| put (cardPassExpiry img) 16 16,
       put exitSecond 0 17 ||| put exitStation 17 12,
       put entryZone 0 4 ||| put (cardPassLow img) 4 4 ||| put (cardPassHigh img) 8 4,
       carry 0, carry 1, carry 2, carry 3, 0, 0]
  untagged.set 15 (cardTag key.key untagged)

end Sys2Proof.Machine
end

