-- ==== Sys2Proof/Machine/Flags.lean ====
section
/-! DEFINITION. The flags and the codes that the records carry: the notice flags (R181), the verdict flags (R57, R28)
and the numbers of chapter 12. -/

namespace Sys2Proof.Machine

/-- The notice flags (R181). -/
inductive Notice where
  | verdict (n : Lane)
  | alarm (n : Lane)
  | journalHigh
  | journalFull
  | fault
  | eccBudget
  | line
  | duplicateId
  | deny
  | bank
  | emergency
  | ready
deriving DecidableEq, Repr

/-- The bit of a notice in the flag word, the ACK_NOTICES mask and the Notice Mask (12.6). -/
def Notice.bit : Notice → Nat
  | .verdict n => n.val
  | .alarm n => 4 + n.val
  | .journalHigh => 8
  | .journalFull => 9
  | .fault => 10
  | .eccBudget => 11
  | .line => 12
  | .duplicateId => 13
  | .deny => 14
  | .bank => 15
  | .emergency => 16
  | .ready => 17

/-- The fare flags and DEGRADED as journal entries and Verdict Records carry them, PENALTY lowest (12.3). -/
def flagsNumber (f : FareFlags) (degraded : Bool) : Nat :=
  flagNumber f.penalty + 2 * flagNumber f.override + 4 * flagNumber f.pass + 8 * flagNumber f.linked
    + 16 * flagNumber f.capped + 32 * flagNumber f.negative + 64 * flagNumber degraded

/-- The fare flags that a flags field holds (12.3). -/
def flagsOfNumber (v : Nat) : FareFlags :=
  { penalty := v.testBit 0, override := v.testBit 1, pass := v.testBit 2, linked := v.testBit 3,
    capped := v.testBit 4, negative := v.testBit 5 }

/-- A set of lanes as a number, bit `n` for lane `n` (12.5). -/
def lanesNumber (q : Quad Bool) : Nat :=
  flagNumber q.l0 + 2 * flagNumber q.l1 + 4 * flagNumber q.l2 + 8 * flagNumber q.l3

/-- Verdict codes (12.3). -/
def Decision.code : Decision → Nat
  | .accept => 1
  | .multipleCards => 2
  | .unreadable _ => 3
  | .unitFault _ => 4
  | .emergency => 5
  | .gateBusy => 6
  | .journalFull => 7
  | .forgedKey => 8
  | .forgedTag => 8
  | .deniedCentral _ _ => 9
  | .deniedLocal => 9
  | .deniedNeighbor => 9
  | .cloneRegression => 10
  | .cloneDiverged => 10
  | .counterExhausted => 11
  | .repeated => 12
  | .passback => 13
  | .insufficient => 14
  | .laneRecovering => 15

/-- The Reason, numbered within its code; 0 where the code has none (12.3). -/
def Decision.reasonNumber : Decision → Nat
  | .unreadable .status => 1
  | .unreadable .mask => 2
  | .unreadable .memory => 3
  | .unreadable .format => 4
  | .unreadable .serial => 5
  | .unreadable .carry => 6
  | .unreadable .product => 7
  | .unreadable .inconsistent => 8
  | .unitFault .clock => 1
  | .unitFault .noBank => 2
  | .unitFault .bankDamaged => 3
  | .forgedKey => 1
  | .forgedTag => 2
  | .deniedCentral _ _ => 1
  | .deniedLocal => 2
  | .deniedNeighbor => 3
  | .cloneRegression => 1
  | .cloneDiverged => 2
  | .accept | .multipleCards | .emergency | .gateBusy | .journalFull | .counterExhausted | .repeated
  | .passback | .insufficient | .laneRecovering => 0

/-- Whether a refusal writes a REFUSAL entry (R26, R27). -/
def Decision.journaled : Decision → Bool
  | .forgedKey | .forgedTag | .deniedCentral _ _ | .deniedLocal | .deniedNeighbor | .cloneRegression
  | .cloneDiverged | .passback | .insufficient | .counterExhausted => true
  | .accept | .multipleCards | .unreadable _ | .unitFault _ | .emergency | .gateBusy | .journalFull
  | .repeated | .laneRecovering => false

/-- Kind Codes of the transaction kinds (12.5). -/
def TransactionKind.code : TransactionKind → Nat
  | .pending => 1
  | .commit false false => 2
  | .commit true false => 3
  | .commit false true => 4
  | .commit true true => 5
  | .uncertain => 6
  | .uncertainWindow => 7
  | .uncertainReset => 8
  | .uncertainRestart => 9
  | .notCharged => 10
  | .notChargedCancelled => 11
  | .notChargedExpired => 12
  | .notChargedReissuesSpent => 13
  | .notChargedReset => 14
  | .cancelled => 15
  | .cancelledReset => 16
  | .expired => 17

/-- Kind Codes (12.5). -/
def EntryBody.code : EntryBody → Nat
  | .transaction kind _ _ _ _ _ => kind.code
  | .refusal _ _ _ _ _ => 18
  | .unusedPassage _ _ => 19
  | .tailgate _ => 20
  | .wrongWay _ _ => 21
  | .clone _ _ _ _ _ _ _ => 22
  | .denyAdded _ _ _ _ _ => 23
  | .emergencyStart _ => 24
  | .emergencyEnd _ => 25
  | .bankSwitch _ _ _ => 26
  | .bankFallback _ _ => 27
  | .restart _ _ _ => 28

/-- The code of a bank: 0 none, 1 A, 2 B (12.5). -/
def bankCode : Option BankId → Nat
  | none => 0
  | some .a => 1
  | some .b => 2

/-- The bank that a code names; none also for a code that names no bank (12.5). -/
def bankOfCode (v : Nat) : Option BankId :=
  if v = 1 then some .a else if v = 2 then some .b else none

/-- The code of a bank state; 0 before selection has settled it (12.6). -/
def bankStateCode : Option BankState → Nat
  | none => 0
  | some .empty => 1
  | some .staging => 2
  | some .validating => 3
  | some .valid => 4
  | some .active => 5
  | some .damaged => 6

/-- The code of a gate state (12.6). -/
def GateState.code : GateState → Nat
  | .closed => 1
  | .opened => 2
  | .alarm => 3
  | .free => 4
  | .emergency => 5

/-- The code of a lane state (12.6). -/
def LaneState.code : LaneState → Nat
  | .idle => 1
  | .screening => 2
  | .decided => 3
  | .released => 4
  | .recovery => 5

/-- The code of a fault kind (12.6). -/
def PathFault.code : PathFault → Nat
  | .outside => 1
  | .rights => 2
  | .uncorrectable => 3
  | .bankLocked => 4
  | .landingLocked => 5
  | .notReleased => 6
  | .unexpectedResult => 7
  | .grantHold => 8
  | .slotBusy => 9

/-- The code of a fault source (12.6). -/
def FaultSource.code : FaultSource → Nat
  | .processor => 1
  | .internal => 2
  | .reader n => 4 + n.val

/-- The code of a membership state (12.6). -/
def Membership.code : Membership → Nat
  | .silent => 1
  | .listen => 2
  | .joined => 3
  | .resync => 4
  | .check => 5

/-- The code of a Direction (12.6). -/
def Direction.code : Direction → Nat
  | .entry => 1
  | .exit => 2

/-- The code of a Beam State (12.6). -/
def BeamState.code : BeamState → Nat
  | .clear => 0
  | .a => 1
  | .ab => 2
  | .b => 3

/-- The Outcomes of a command (12.4). -/
inductive CommandOutcome where
  | done
  | refusedAuthority
  | refusedState
  | badArgument
  | badSequence
  | notFound
  | busy
  | notReady
  | badTable
deriving DecidableEq, Repr

/-- The number of an Outcome (12.4). -/
def CommandOutcome.code : CommandOutcome → Nat
  | .done => 1
  | .refusedAuthority => 2
  | .refusedState => 3
  | .badArgument => 4
  | .badSequence => 5
  | .notFound => 6
  | .busy => 7
  | .notReady => 8
  | .badTable => 9

/-- The Detail Codes (12.4). -/
inductive Detail where
  | none
  | present
  | idle
  | discarded
  | unchanged
  | empty
  | openPending
  | code
  | memory
  | version
  | denyCount
  | check
  | denyOrder
  | bandCount
  | bandOrder
  | bandFactor
  | productKind
  | productFactor
  | kind
  | region
  | key
deriving DecidableEq, Repr

/-- The number of a Detail Code (12.4). -/
def Detail.number : Detail → Nat
  | .none => 0
  | .present => 1
  | .idle => 2
  | .discarded => 3
  | .unchanged => 4
  | .empty => 5
  | .openPending => 6
  | .code => 7
  | .memory => 8
  | .version => 9
  | .denyCount => 10
  | .check => 11
  | .denyOrder => 12
  | .bandCount => 13
  | .bandOrder => 14
  | .bandFactor => 15
  | .productKind => 16
  | .productFactor => 17
  | .kind => 18
  | .region => 19
  | .key => 20

/-- The Detail Code of the first cause of a failed load (R188). -/
def LoadFault.detail : LoadFault → Detail
  | .check => .check
  | .kind => .kind
  | .region => .region
  | .key => .key

/-- The nineteen commands (R177, 10.2). -/
inductive CommandCode where
  | proceed
  | cancel
  | laneReset
  | gateFree
  | gateNormal
  | clearAlarm
  | setDirection
  | setTime
  | setOverride
  | bankSwitch
  | denyAdd
  | denyRemove
  | journalRelease
  | ackNotices
  | faultRelease
  | eccBudgetReset
  | lineRestart
  | lineCheckStart
  | lineCheckStop
deriving DecidableEq, Repr

/-- The command that a Code word names (12.4), or none. -/
def CommandCode.ofWord (w : Word) : Option CommandCode :=
  match w.toNat with
  | 1 => some .proceed
  | 2 => some .cancel
  | 3 => some .laneReset
  | 4 => some .gateFree
  | 5 => some .gateNormal
  | 6 => some .clearAlarm
  | 7 => some .setDirection
  | 8 => some .setTime
  | 9 => some .setOverride
  | 10 => some .bankSwitch
  | 11 => some .denyAdd
  | 12 => some .denyRemove
  | 13 => some .journalRelease
  | 14 => some .ackNotices
  | 15 => some .faultRelease
  | 16 => some .eccBudgetReset
  | 17 => some .lineRestart
  | 18 => some .lineCheckStart
  | 19 => some .lineCheckStop
  | _ => none

/-- Whether the table of 10.2 asks MAINT authority of a command. -/
def CommandCode.needsMaint : CommandCode → Bool
  | .setDirection | .setTime | .setOverride | .bankSwitch | .denyRemove | .eccBudgetReset | .lineRestart
  | .lineCheckStart | .lineCheckStop => true
  | .proceed | .cancel | .laneReset | .gateFree | .gateNormal | .clearAlarm | .denyAdd | .journalRelease
  | .ackNotices | .faultRelease => false

end Sys2Proof.Machine
end

