-- ==== Sys2Proof/Machine/Records.lean ====
section
/-! DEFINITION. The records of chapter 12 as words and bytes: what the part writes and how it reads them back. -/

namespace Sys2Proof.Machine

/-! ### Journal entries (12.5) -/

/-- Words 2 to 6 of an entry but for the Time Day of word 6, for the sequence `seq` it takes (12.5). The Reference of a
transaction entry is given as Sequence minus the referenced sequence; an absent one is a distance of 0, and that of a gate
entry is 0 (R192). That the other optional fields, whose absent form R192 does not give, are then 0, is the model's choice
(DESIGN CHOICE, log 60): the displaced Serial of DENY_ADDED with bit 18 clear, the Version of a former or new bank that is
none. -/
def EntryBody.middle (seq : Nat) : EntryBody → Word × Word × Word × Word × Word
  | .transaction _ serial counter fare balance reference =>
    (serialLow serial, serialHigh serial, put counter 0 16 ||| put fare 16 16, balance,
     match reference with | some r => put (seq - r) 16 16 | none => 0)
  | .refusal decision serial counter fare balance =>
    (serialLow serial, serialHigh serial, put counter 0 16 ||| put fare 16 16, balance,
     put decision.code 16 8 ||| put decision.reasonNumber 24 4)
  | .unusedPassage held commitSeq => (0, 0, put held 16 16, put commitSeq 0 32, 0)
  | .tailgate gate => (0, 0, put gate.code 0 8, 0, 0)
  | .wrongWay gate head => (0, 0, put gate.code 0 8, put (head.getD 0) 0 32, 0)
  | .clone serial counter balance sender table unitDiffers balanceDiffers =>
    (serialLow serial, serialHigh serial, put counter 0 16, balance,
     put sender.val 16 4 ||| put table.val 20 4
       ||| put (flagNumber unitDiffers + 2 * flagNumber balanceDiffers) 24 2)
  | .denyAdded serial displaced origin reason originUnit =>
    (serialLow serial, serialHigh serial, serialLow (displaced.getD 0), serialHigh (displaced.getD 0),
     putFlag (origin == .neighbor) 16 ||| putFlag (reason == .operator) 17 ||| putFlag displaced.isSome 18
       ||| put originUnit.val 20 4)
  | .emergencyStart present => (0, 0, put (lanesNumber present) 0 4, 0, 0)
  | .emergencyEnd present => (0, 0, put (lanesNumber present) 0 4, 0, 0)
  | .bankSwitch new version former =>
    (version, (former.map (·.2)).getD 0, put (bankCode (some new)) 0 2 ||| put (bankCode (former.map (·.1))) 2 2, 0, 0)
  | .bankFallback damaged new =>
    ((new.map (·.2)).getD 0, 0, put (bankCode (some damaged)) 0 2 ||| put (bankCode (new.map (·.1))) 2 2, 0, 0)
  | .restart nextFound resolutions recordInvalid =>
    (put nextFound 0 32, put resolutions 0 32, putFlag recordInvalid 0, 0, 0)

/-- The eight words of an entry with sequence `seq` (12.5). An absent Time has Second all ones and Day 0 (R192).
An absent Lane has Lane Present clear (R192); that the bits of Lane, 5 and 6 of word 1, are then 0, is the model's choice
(DESIGN CHOICE, log 60). -/
def EntryDraft.words (d : EntryDraft) (seq : Nat) : Vector Word 8 :=
  let m := d.body.middle seq
  let second := match d.time with | some t => t.second | none => 131071
  let day := match d.time with | some t => t.day | none => 0
  #v[put seq 0 32,
     put d.body.code 0 5 ||| put ((d.lane.map (·.val)).getD 0) 5 2 ||| put (flagsNumber d.flags d.degraded) 7 7
       ||| put second 14 17 ||| putFlag d.lane.isSome 31,
     m.1, m.2.1, m.2.2.1, m.2.2.2.1, m.2.2.2.2 ||| put day 0 16, put seq 0 32]

/-- Whether the eight words of a slot hold a valid entry with sequence `seq` (R105): first word and closing mark equal
it, and the Kind Code is one of the known kinds. -/
def validEntry (words : Vector Word 8) (seq : Nat) : Bool :=
  words[0].toNat == seq && words[7].toNat == seq && decide (1 ≤ bits words[1] 0 5) && decide (bits words[1] 0 5 ≤ 28)

/-- The Kind Code of an entry's words. -/
def entryKind (words : Vector Word 8) : Nat := bits words[1] 0 5

/-- The sequence that a transaction entry references, or none for a distance of 0 (12.5, R192). -/
def entryReference (words : Vector Word 8) : Option Nat :=
  let distance := bits words[6] 16 16
  if distance = 0 then none else some (words[0].toNat - distance)

/-- A COMMIT, NOT_CHARGED or UNCERTAIN entry, by its Kind Code (R117). -/
def resolvesByKind (words : Vector Word 8) : Bool :=
  decide (2 ≤ entryKind words) && decide (entryKind words ≤ 14)

/-- The UNCERTAIN entry, flag RESTART, that resolves a dangling PENDING entry (R117). -/
def restartResolution (words : Vector Word 8) : EntryDraft :=
  { lane := some (Fin.ofNat 4 (bits words[1] 5 2))
    time := none
    flags := flagsOfNumber (bits words[1] 7 7)
    degraded := (bits words[1] 7 7).testBit 6
    body := .transaction .uncertainRestart (serialOf words[2] words[3]) (bits words[4] 0 16) (bits words[4] 16 16)
              words[5] (some words[0].toNat)
    reserved := none }

/-! ### The Unit Record (R114) -/

/-- The four words of one copy of the Unit Record (R114). -/
def unitRecordCopy (released : Nat) (bank : Option BankId) (version : Word) : Vector Word 4 :=
  let r := put released 0 32
  let b := put (bankCode bank) 0 32
  #v[r, b, version, r ^^^ b ^^^ version ^^^ Config.unitRecordMark]

/-- Both copies, First Copy first, each Mark last (R114). -/
def unitRecordWords (released : Nat) (bank : Option BankId) (version : Word) : Vector Word 8 :=
  let copy := unitRecordCopy released bank version
  #v[copy[0], copy[1], copy[2], copy[3], copy[0], copy[1], copy[2], copy[3]]

/-- The value of the Unit Record: Released Sequence, Active Bank, Active Version. -/
structure UnitRecord where
  released : Nat
  bank     : Option BankId
  version  : Word
deriving DecidableEq, Repr

/-- The value of one copy as read, or none when it is not valid (R114). A copy with an uncorrectable word is not valid
(R170). That a copy whose Released Sequence is 4,294,967,295 is valid, since R114 does not test it, is the model's choice
(log 52). -/
def unitRecordOfCopy (words : Option (List Word)) : Option UnitRecord :=
  match words with
  | some [r, b, v, m] =>
    if m = r ^^^ b ^^^ v ^^^ Config.unitRecordMark && decide (b.toNat ≤ 2) then
      some ⟨r.toNat, bankOfCode b.toNat, v⟩
    else none
  | _ => none

/-! ### Verdict Records (12.3) and result words (12.4) -/

/-- The contents of a Verdict Record (R82). -/
structure VerdictRecord where
  number   : Nat
  lane     : Lane
  reissues : Nat
  decision : Decision
  flags    : FareFlags
  degraded : Bool
  recovery : Bool
  fare     : Nat
  serial   : Option Serial
  counter  : Option Nat
  balance  : Option Word
  time     : Option ServiceTime
deriving DecidableEq, Repr

/-- The central Reason code and Flags of a DENIED CENTRAL verdict, otherwise 0 (R82). -/
def Decision.central : Decision → Byte × Byte
  | .deniedCentral reason flags => (reason, flags)
  | .accept | .multipleCards | .unreadable _ | .unitFault _ | .emergency | .gateBusy | .journalFull | .forgedKey
  | .forgedTag | .deniedLocal | .deniedNeighbor | .cloneRegression | .cloneDiverged | .counterExhausted
  | .repeated | .passback | .insufficient | .laneRecovering => (0, 0)

/-- The eight words of a Verdict Record (12.3). A field that is absent holds 0 (R192). -/
def VerdictRecord.words (v : VerdictRecord) : Vector Word 8 :=
  let serial := v.serial.getD 0
  #v[put v.number 0 32,
     put v.lane.val 0 2 ||| put v.reissues 2 2 ||| putFlag v.serial.isSome 4 ||| putFlag v.counter.isSome 5
       ||| putFlag v.balance.isSome 6 ||| putFlag v.time.isSome 7 ||| put v.decision.code 8 5
       ||| put v.decision.reasonNumber 13 4
       ||| put (flagsNumber v.flags v.degraded + 128 * flagNumber v.recovery) 17 8,
     put v.decision.central.1.toNat 0 8 ||| put v.decision.central.2.toNat 8 8 ||| put v.fare 16 16,
     serialLow serial, serialHigh serial,
     put (v.counter.getD 0) 0 16 ||| put ((v.time.map (·.day)).getD 0) 16 16,
     v.balance.getD 0,
     put ((v.time.map (·.second)).getD 0) 0 17]

/-- The result word of a command (12.4). -/
def resultWord (echo : Nat) (outcome : CommandOutcome) (detail : Detail) : Word :=
  put echo 0 16 ||| put outcome.code 16 8 ||| put detail.number 24 8

/-! ### Line frames (12.7) -/

/-- A 16-byte message of a frame. -/
def messageBytes (kind b1 : Nat) (w0high : Nat) (w1 : Word) (x : Serial) : List Byte :=
  [BitVec.ofNat 8 kind, BitVec.ofNat 8 b1, BitVec.ofNat 8 w0high, BitVec.ofNat 8 (w0high / 256)]
    ++ bytesOf w1 ++ bytesOf (serialLow x) ++ bytesOf (serialHigh x)

/-- The bytes of a message sent from the Transmit Queue by unit `u` (12.7): every message it sends is of its own
making (R142). -/
def TransmitMessage.bytes (u : UnitId) : TransmitMessage → List Byte
  | .sighting serial counter balance => messageBytes 1 u.val counter balance serial
  | .deny serial reason => messageBytes 2 u.val (if reason = .clone then 1 else 2) 0 serial

/-- The bytes of a CHECK message (12.7). -/
def checkMessageBytes (index : Nat) (p : Vector Byte 8) : List Byte :=
  [3, 0, BitVec.ofNat 8 index, BitVec.ofNat 8 (index / 256), p[0], p[1], p[2], p[3], p[4], p[5], p[6], p[7],
   0, 0, 0, 0]

/-- A whole frame: header, messages, and the CRC-16 sent most significant byte first (R141, R191). -/
def frameBytes (sender : UnitId) (cycle : Nat) (messages : List (List Byte)) : List Byte :=
  let body := [BitVec.ofNat 8 sender.val, BitVec.ofNat 8 cycle, BitVec.ofNat 8 messages.length] ++ messages.flatten
  let crc := (crc16 body).toNat
  body ++ [BitVec.ofNat 8 (crc / 256), BitVec.ofNat 8 crc]

/-- The low four bits of a byte: the sender id and every unit field are read from them (R192). -/
def unitOf (b : Byte) : UnitId := Fin.ofNat 16 (b.toNat % 16)

/-- A 16-byte message as received, or none when it is none of the three kinds (R141). A DENY Reason that is not
listed is taken as OPERATOR (R154). -/
def messageOfBytes (m : List Byte) : Option ReceivedMessage :=
  let at' (i : Nat) : Byte := m.getD i 0
  let x := serialOf (wordOfBytes (at' 8) (at' 9) (at' 10) (at' 11)) (wordOfBytes (at' 12) (at' 13) (at' 14) (at' 15))
  match (at' 0).toNat with
  | 1 => some (.sighting x ((at' 2).toNat + 256 * (at' 3).toNat) (wordOfBytes (at' 4) (at' 5) (at' 6) (at' 7))
           (unitOf (at' 1)))
  | 2 => some (.deny x (if at' 2 = 1 then .clone else .operator) (unitOf (at' 1)))
  | 3 => some (.check ((at' 2).toNat + 256 * (at' 3).toNat)
           #v[at' 4, at' 5, at' 6, at' 7, at' 8, at' 9, at' 10, at' 11])
  | _ => none

/-- The messages that follow a frame's header, `n` of them; none when one is of no known kind (R141). -/
def messagesOfBytes : Nat → List Byte → Option (List ReceivedMessage)
  | 0, _ => some []
  | n + 1, bytes =>
    match messageOfBytes (bytes.take 16), messagesOfBytes n (bytes.drop 16) with
    | some m, some rest => some (m :: rest)
    | _, _ => none

/-- A valid frame: sender, cycle number, messages. -/
structure ReceivedFrame where
  sender   : UnitId
  cycle    : Nat
  messages : List ReceivedMessage
deriving DecidableEq, Repr

/-- A received frame, or none when it is not valid (R141): the CRC matches, the message count is 0 to 4 and the frame
holds that many messages, each of one of the three kinds. -/
def frameOfBytes (bytes : List Byte) : Option ReceivedFrame :=
  let n := bytes.length
  let count := (bytes.getD 2 0).toNat
  let crc := crc16 (bytes.take (n - 2))
  if decide (5 ≤ n) && decide (count ≤ 4) && n == 5 + 16 * count
      && crc.toNat == 256 * (bytes.getD (n - 2) 0).toNat + (bytes.getD (n - 1) 0).toNat then
    match messagesOfBytes count (bytes.drop 3) with
    | some messages => some ⟨unitOf (bytes.getD 0 0), (bytes.getD 1 0).toNat, messages⟩
    | none => none
  else none

/-! ### The configuration image (12.8) -/

/-- Byte `i` of a ROM image; a ROM that is silent gives all ones (R186). -/
def romByte (rom : List Byte) (i : Nat) : Byte := rom.getD i 0xFF

/-- The two-byte number at offset `i` (R191). -/
def romHalf (rom : List Byte) (i : Nat) : Nat := (romByte rom i).toNat + 256 * (romByte rom (i + 1)).toNat

/-- The word at offset `i` (R191). -/
def romWord (rom : List Byte) (i : Nat) : Word :=
  wordOfBytes (romByte rom i) (romByte rom (i + 1)) (romByte rom (i + 2)) (romByte rom (i + 3))

/-- A Kind of the eight, or none (R187). -/
def regionKindOf (v : Nat) : Option RegionKind :=
  match v with
  | 0 => some .absent
  | 1 => some .lane
  | 2 => some .command
  | 3 => some .status
  | 4 => some .journal
  | 5 => some .bankA
  | 6 => some .bankB
  | 7 => some .plain
  | _ => none

/-- The code of a Kind (12.8). -/
def RegionKind.code : RegionKind → Nat
  | .absent => 0
  | .lane => 1
  | .command => 2
  | .status => 3
  | .journal => 4
  | .bankA => 5
  | .bankB => 6
  | .plain => 7

/-- A configured right; one that is none of the three is taken as none (R187). -/
def rightOf (v : Nat) : Right := if v = 1 then .readOnly else if v = 2 then .readWrite else .denied

/-- The code of a right (12.8). -/
def Right.code : Right → Nat
  | .denied => 0
  | .readOnly => 1
  | .readWrite => 2

/-- A Use; one that is none of the three is read as RETIRED (R187). -/
def keyUseOf (v : Nat) : KeyUse := if v = 1 then .current else if v = 2 then .accept else .retired

/-- Region entry `r` of an image (12.8), its Kind NONE when it is none of the eight. -/
def romRegion (rom : List Byte) (r : Nat) : RegionEntry :=
  let o := 16 * r
  { kind := (regionKindOf (romByte rom o).toNat).getD .absent
    base := (romWord rom (o + 8)).toNat
    size := (romWord rom (o + 12)).toNat
    service := rightOf (romByte rom (o + 1)).toNat
    maint := rightOf (romByte rom (o + 2)).toNat
    reader := rightOf (romByte rom (o + 3)).toNat
    admitted := ⟨(romByte rom (o + 4)).getLsbD 0, (romByte rom (o + 4)).getLsbD 1,
                 (romByte rom (o + 4)).getLsbD 2, (romByte rom (o + 4)).getLsbD 3⟩ }

/-- The four words of a region entry's copy in the Status Area, in the layout of 12.8. -/
def RegionEntry.word (r : RegionEntry) (i : Nat) : Word :=
  match i with
  | 0 => put r.kind.code 0 8 ||| put r.service.code 8 8 ||| put r.maint.code 16 8 ||| put r.reader.code 24 8
  | 1 => put (lanesNumber r.admitted) 0 4
  | 2 => put r.base 0 32
  | _ => put r.size 0 32

/-- Key slot `k` of an image (12.8). -/
def romKey (rom : List Byte) (k : Nat) : KeySlot :=
  ⟨romByte rom (256 + 8 * k), romWord rom (256 + 8 * k + 4), keyUseOf (romByte rom (256 + 8 * k + 1)).toNat⟩

/-- Whether two regions share an address (R161). -/
def RegionEntry.overlaps (x y : RegionEntry) : Bool :=
  decide (x.base < y.base + y.size) && decide (y.base < x.base + x.size)

/-- No two regions of a list share an address. -/
def disjointRegions : List RegionEntry → Bool
  | [] => true
  | r :: rest => rest.all (fun x => !r.overlaps x) && disjointRegions rest

/-- The Size that R161 asks of a region of each Kind, in units of 4 KiB. -/
def RegionEntry.sizeSound (r : RegionEntry) : Bool :=
  match r.kind with
  | .absent => true
  | .lane | .command | .status => r.size == 1
  | .journal => [2, 4, 8, 16, 32, 64, 128, 256, 512].contains r.size
  | .bankA | .bankB => decide (16 ≤ r.size) && decide (r.size ≤ 256)
  | .plain => decide (1 ≤ r.size)

/-- Whether a region map is sound (R161). -/
def soundMap (regions : List RegionEntry) : Bool :=
  let used := regions.filter (fun r => r.kind != .absent)
  [RegionKind.lane, .command, .status, .journal, .bankA, .bankB].all (fun k => used.countP (fun r => r.kind == k) == 1)
    && used.all RegionEntry.sizeSound
    && used.all (fun r => decide (r.base + r.size ≤ 4096))
    && disjointRegions used

/-- The first cause for which an image is structurally faulty, in the order R187 lists them, or none. -/
def loadFaultOf (rom : List Byte) : Option LoadFault :=
  let image := (List.range 1020).map (romByte rom)
  let regions := (List.range 16).map (romRegion rom)
  let keys := (List.range 4).map (romKey rom)
  if crc32 image != romWord rom 1020 then some .check
  else if (List.range 16).any (fun r => (regionKindOf (romByte rom (16 * r)).toNat).isNone) then some .kind
  else if !soundMap regions then some .region
  else if keys.countP (fun k => k.use == .current) != 1 then some .key
  else none

/-- The base of the command slots usable while FAULTED (R188): the image holds exactly one COMMAND entry whose Size is
4 KiB and which ends at or below 16 MiB, whether or not the CRC matched. -/
def usableSlotsOf (rom : List Byte) : Option Nat :=
  match ((List.range 16).map (romRegion rom)).filter
      (fun r => r.kind == .command && r.size == 1 && decide (r.base + 1 ≤ 4096)) with
  | [r] => some (4096 * r.base)
  | _ => none

/-- A value brought into its range, and whether that changed it (R187). -/
def clamped (low high v : Nat) : Nat × Bool := (clamp low high v, clamp low high v != v)

/-- Lane `m`'s presence, direction and whether the direction was substituted (R187, 12.8). -/
def romLane (rom : List Byte) (m : Nat) : Bool × Direction × Bool :=
  let b := (romByte rom (296 + m)).toNat
  let d := b / 2 % 4
  (b % 2 == 1, if d = 2 then .exit else .entry, !(d == 1 || d == 2))

/-- The items of a sound image as loaded, each value clamped to its range and each item without a range settled, and
whether any was (R187). The fare ceiling is clamped before the penalty fare. That the unit id, the line
enable and the slot length are the single bytes 288, 289 and 290 is the model's choice (log 47). -/
def loadImage (rom : List Byte) : Configuration × Bool :=
  let l (m : Nat) := romLane rom m
  let nonePresent := !((l 0).1 || (l 1).1 || (l 2).1 || (l 3).1)
  let unitId := clamped 0 15 (romByte rom 288).toNat
  let slotLength := clamped 1 8 (romByte rom 290).toNat
  let station := clamped 1 4095 (romHalf rom 292)
  let zone := clamped 0 15 (romByte rom 294).toNat
  let decisionHold := clamped 2 60 (romHalf rom 300)
  let writeTimeout := clamped 500 10000 (romHalf rom 302)
  let recoveryWindow := clamped 5 60 (romHalf rom 304)
  let maximumReissues := clamped 0 3 (romHalf rom 306)
  let passageTimeout := clamped 3 20 (romHalf rom 308)
  let alarmHold := clamped 2 30 (romHalf rom 310)
  let grantHoldLimit := clamped 1 20 (romHalf rom 312)
  let repeatWindow := clamped 0 300 (romHalf rom 314)
  let sightingsWindow := clamped 5 240 (romHalf rom 316)
  let maximumJourney := clamped 30 600 (romHalf rom 320)
  let transferWindow := clamped 0 120 (romHalf rom 322)
  let maximumTransfers := clamped 0 3 (romHalf rom 324)
  let transferDiscount := clamped 0 65535 (romHalf rom 326)
  let overdraftLimit := clamped 0 2000 (romHalf rom 328)
  let roundingUnit := clamped 1 100 (romHalf rom 330)
  let fareCeiling := clamped 1 65535 (romHalf rom 332)
  let penaltyFare := clamped 0 fareCeiling.1 (romHalf rom 334)
  let serviceDayStart := clamped 0 1439 (romHalf rom 336)
  let rightsTaken := (List.range 16).any (fun r => [1, 2, 3].any (fun i => decide (2 < (romByte rom (16 * r + i)).toNat)))
  let usesTaken := (List.range 4).any (fun k =>
    !([1, 2, 3].contains (romByte rom (256 + 8 * k + 1)).toNat))
  ({ regions := (List.range 16).map (romRegion rom), keys := (List.range 4).map (romKey rom),
     unitId := Fin.ofNat 16 unitId.1, lineEnabled := romByte rom 289 == 1, slotLength := slotLength.1,
     station := station.1, zone := zone.1,
     present := ⟨(l 0).1 || nonePresent, (l 1).1, (l 2).1, (l 3).1⟩,
     directions := ⟨(l 0).2.1, (l 1).2.1, (l 2).2.1, (l 3).2.1⟩,
     decisionHold := decisionHold.1, writeTimeout := writeTimeout.1, recoveryWindow := recoveryWindow.1,
     maximumReissues := maximumReissues.1, passageTimeout := passageTimeout.1, alarmHold := alarmHold.1,
     grantHoldLimit := grantHoldLimit.1, repeatWindow := repeatWindow.1, sightingsWindow := sightingsWindow.1,
     maximumJourney := maximumJourney.1, transferWindow := transferWindow.1, maximumTransfers := maximumTransfers.1,
     transferDiscount := transferDiscount.1, overdraftLimit := overdraftLimit.1, roundingUnit := roundingUnit.1,
     fareCeiling := fareCeiling.1, penaltyFare := penaltyFare.1, serviceDayStart := serviceDayStart.1,
     noticeMask := BitVec.ofNat 18 (romWord rom 340).toNat },
   nonePresent || rightsTaken || usesTaken || [l 0, l 1, l 2, l 3].any (·.2.2)
     || [unitId, slotLength, station, zone, decisionHold, writeTimeout, recoveryWindow, maximumReissues, passageTimeout,
         alarmHold, grantHoldLimit, repeatWindow, sightingsWindow, maximumJourney, transferWindow, maximumTransfers,
         transferDiscount, overdraftLimit, roundingUnit, fareCeiling, penaltyFare, serviceDayStart].any (·.2))

end Sys2Proof.Machine
end

