-- ==== Sys2Proof/Machine/Ops.lean ====
section
/-! DEFINITION. The shared operations over the fare memory, the region map, the Check-Bit Logic, the Fault Record and
the notice flags, and the accessors of State. Every meaning reaches memory through these. -/

namespace Sys2Proof.Machine

/-! ### Accessors of State -/

/-- The unit state (R185). -/
def State.unit (s : State) : UnitState := s.startUp.unit

/-- Lane `n`'s Lane Context (R75). -/
def State.lane (s : State) (n : Lane) : LaneContext := s.lanes.get n

/-- `s` with lane `n`'s Lane Context at `x`. -/
def State.setLane (s : State) (n : Lane) (x : LaneContext) : State := { s with lanes := s.lanes.set n x }

/-- Lane `n`'s Gate Sequencer (R122). -/
def State.gate (s : State) (n : Lane) : Gate := s.gates.get n

/-- `s` with lane `n`'s Gate Sequencer at `x`. -/
def State.setGate (s : State) (n : Lane) (x : Gate) : State := { s with gates := s.gates.set n x }

/-- Command slot `k` (R175). -/
def State.slot (s : State) (k : SlotId) : CommandSlot := s.slots[k.val]

/-- `s` with command slot `k` at `x`. -/
def State.setSlot (s : State) (k : SlotId) (x : CommandSlot) : State := { s with slots := s.slots.set k.val x }

/-- Bank `b` (R44). -/
def State.bank (s : State) (b : BankId) : Bank :=
  match b with
  | .a => s.banks.a
  | .b => s.banks.b

/-- `s` with bank `b` at `x`. -/
def State.setBank (s : State) (b : BankId) (x : Bank) : State :=
  match b with
  | .a => { s with banks := { s.banks with a := x } }
  | .b => { s with banks := { s.banks with b := x } }

/-- `s` with the fare memory at `m`. -/
def State.setMemory (s : State) (m : Memory) : State := { s with memory := m }

/-- `s` with the journal at `j`. -/
def State.setJournal (s : State) (j : Journal) : State := { s with journal := j }

/-- `s` with the Neighbor Line Controller at `l`. -/
def State.setLine (s : State) (l : Line) : State := { s with line := l }

/-- `s` with the Status Writer at `w`. -/
def State.setStatus (s : State) (w : StatusWriter) : State := { s with status := w }

/-- `s` with the Screening Engine at `e`. -/
def State.setScreening (s : State) (e : Screening) : State := { s with screening := e }

/-- A lane that the configuration marks present (R186). -/
def State.present (s : State) (n : Lane) : Bool := s.cfg.present.get n

/-! ### Memory: one canonical list of cells -/

/-- What address `a` holds in a list of cells; an unlisted address reads as 0 (log 7). -/
def cellAt {n : Nat} : List (Nat × BitVec n) → Nat → BitVec n
  | [], _ => 0
  | (x, y) :: rest, a => if x = a then y else cellAt rest a

/-- The list of cells with address `a` at `v`, in the same form: rising addresses, no 0 listed. -/
def setCell {n : Nat} : List (Nat × BitVec n) → Nat → BitVec n → List (Nat × BitVec n)
  | [], a, v => if v = 0 then [] else [(a, v)]
  | (x, y) :: rest, a, v =>
    if a < x then (if v = 0 then (x, y) :: rest else (a, v) :: (x, y) :: rest)
    else if a = x then (if v = 0 then rest else (a, v) :: rest)
    else (x, y) :: setCell rest a v

/-- The canonical form from a lower bound on: addresses rising from `low` on, and no 0 listed. -/
def cellsFrom {n : Nat} : Nat → List (Nat × BitVec n) → Bool
  | _, [] => true
  | low, (x, y) :: rest => decide (low ≤ x) && y != 0 && cellsFrom (x + 1) rest

/-- The canonical form of the fare memory. -/
def Memory.wf (m : Memory) : Bool := cellsFrom 0 m.bytes && cellsFrom 0 m.upsets

/-- The byte last written at an address. -/
def Memory.byte (m : Memory) (a : Nat) : Byte := cellAt m.bytes a

/-- The data last written to the word at address `a`, a multiple of 4 (R191). -/
def Memory.word (m : Memory) (a : Nat) : Word :=
  wordOfBytes (m.byte a) (m.byte (a + 1)) (m.byte (a + 2)) (m.byte (a + 3))

/-- Which of the word's 39 stored bits are wrong (R168). -/
def Memory.upset (m : Memory) (a : Nat) : BitVec 39 := cellAt m.upsets a

/-- A whole-word write: the four bytes, and a clean word (R168). -/
def Memory.writeWord (m : Memory) (a : Nat) (w : Word) : Memory :=
  { bytes := setCell (setCell (setCell (setCell m.bytes a (byteOf w 0)) (a + 1) (byteOf w 1)) (a + 2) (byteOf w 2))
               (a + 3) (byteOf w 3)
    upsets := setCell m.upsets a 0 }

/-- The scrub: the corrected word written back with fresh check bits (R168). -/
def Memory.scrub (m : Memory) (a : Nat) : Memory := { m with upsets := setCell m.upsets a 0 }

/-- What a read finds a word to be (R168). -/
inductive WordHealth where
  | clean
  | corrected
  | uncorrectable
deriving DecidableEq, Repr

/-- The health of the word at `a`: no wrong bit, one, or two or more (R168). -/
def Memory.health (m : Memory) (a : Nat) : WordHealth :=
  match (List.range 39).countP (m.upset a).getLsbD with
  | 0 => .clean
  | 1 => .corrected
  | _ => .uncorrectable

/-! ### Notices, outputs, the Fault Record and the budget -/

/-- Whether a notice flag is set (R181). -/
def State.noticed (s : State) (n : Notice) : Bool := s.status.notices.getLsbD n.bit

/-- Sets a notice flag; one already set stays set (R181). -/
def State.notify (s : State) (n : Notice) : State :=
  s.setStatus { s.status with notices := s.status.notices ||| BitVec.ofNat 18 (2 ^ n.bit) }

/-- The ATTN output: an enabled flag is set, and RESET_N is not asserted (R182). -/
def State.attn (s : State) : Bool := s.unit != .inReset && (s.status.notices &&& s.cfg.noticeMask) != 0

/-- The PERMIT output of a lane: on in OPEN, FREE and EMERGENCY, off while RESET_N is asserted (R123). -/
def State.permit (s : State) (n : Lane) : Bool :=
  s.unit != .inReset && [GateState.opened, .free, .emergency].contains (s.gate n).state

/-- The grant line of a modem (R13). -/
def State.grantLine (s : State) (n : Lane) : Bool := s.reader.owner == some n

/-- The CFG_SEL pin: asserted in LOADING for the ROM; from the end of the load, the transceiver enable, asserted in
every membership state except SILENT and CHECK in WRAP mode; deasserted while RESET_N is asserted (R185, R186). -/
def State.configSelect (s : State) : Bool :=
  match s.unit with
  | .inReset => false
  | .loading => true
  | .scanning | .ready | .faulted =>
    !(s.line.membership == .silent || (s.line.membership == .check && s.line.mode == some .wrap))

/-- Reports a fault (R172): it becomes the First Fault of an empty record, or counts in Further; the FAULT notice is
set either way. In FAULTED no fault is reported (R188). -/
def State.reportFault (s : State) (kind : PathFault) (source : FaultSource) (address : Option Nat)
    (direction : Option AccessDirection) (mode : Option Mode) : State :=
  if s.unit = .faulted then s
  else
    let record : FaultRecord :=
      match s.faultRecord.first with
      | none => { s.faultRecord with first := some ⟨kind, source, address, direction, mode, s.clock⟩ }
      | some _ => { s.faultRecord with further := saturate 255 (s.faultRecord.further + 1) }
    ({ s with faultRecord := record }).notify .fault

/-- A correction spends one from the budget, except in FAULTED; the one that brings it to 0, and each one made at 0,
sets ECC_BUDGET (R169, R188). -/
def State.spendCorrection (s : State) : State :=
  if s.unit = .faulted then s
  else
    let t := { s with budget := s.budget - 1 }
    if t.budget = 0 then t.notify .eccBudget else t

/-! ### Word operations -/

/-- The address of the word that holds an address: the two lowest bits select nothing (09). -/
def wordAddress (a : Nat) : Nat := a / 4 * 4

/-- An internal read of one word (R168, R170): the data, corrected and scrubbed if need be; or none for an
uncorrectable word, which is reported with source internal. -/
def State.readWord (s : State) (a : Nat) : Option Word × State :=
  match s.memory.health a with
  | .clean => (some (s.memory.word a), s)
  | .corrected => (some (s.memory.word a), (s.setMemory (s.memory.scrub a)).spendCorrection)
  | .uncorrectable => (none, s.reportFault .uncorrectable .internal (some a) (some .read) none)

/-- `n` consecutive words from address `a`. -/
def wordRun (a n : Nat) : List Nat := (List.range n).map (fun i => a + 4 * i)

/-- An internal write of one whole word (R171: internal writes are always whole-word). -/
def State.writeWord (s : State) (a : Nat) (w : Word) : State := s.setMemory (s.memory.writeWord a w)

/-- Internal writes of words at consecutive addresses, in order. -/
def State.writeWords (s : State) (a : Nat) : List Word → State
  | [] => s
  | w :: rest => (s.writeWord a w).writeWords (a + 4) rest

/-! ### Reads of several words -/

/-- What a block does when it reads several words for one purpose: it has its result, or it reads a word, one request to the
Memory Arbiter (R166), and goes on with the data, or with none where the word is uncorrectable. -/
inductive Reads (α : Type) where
  | done (result : α)
  | read (b : Block) (a : Nat) (next : Option Word → Reads α)

/-- The reads of `p`, followed by those that its result asks for. -/
def Reads.bind {α β : Type} (p : Reads α) (f : α → Reads β) : Reads β :=
  match p with
  | .done x => f x
  | .read b a next => .read b a (fun w => (next w).bind f)

/-- Block `b` reads one word. -/
def Reads.word (b : Block) (a : Nat) : Reads (Option Word) := .read b a .done

/-- Block `b` reads several words in order, and none after an uncorrectable one (log 41): their data behind that of `before`,
which is reversed, or none. -/
def Reads.wordsAfter (b : Block) (before : List Word) : List Nat → Reads (Option (List Word))
  | [] => .done (some before.reverse)
  | a :: rest =>
    .read b a (fun w =>
      match w with
      | some x => Reads.wordsAfter b (x :: before) rest
      | none => .done none)

/-- Block `b` reads several words in order, and none after an uncorrectable one (log 41): their data, or none. -/
def Reads.words (b : Block) (l : List Nat) : Reads (Option (List Word)) := Reads.wordsAfter b [] l

/-- Block `b` reads several words in order, every one of them: what each read delivered. -/
def Reads.each (b : Block) (before : Fetched) : List Nat → Reads Fetched
  | [] => .done before.reverse
  | a :: rest => .read b a (fun w => Reads.each b (w :: before) rest)

/-- What is left of `p` when the words of `got` have been read. -/
def Reads.after {α : Type} : Reads α → Fetched → Reads α
  | .read _ _ next, w :: got => (next w).after got
  | p, _ => p

/-- The block and the address of the next read, if one is left. -/
def Reads.next {α : Type} : Reads α → Option (Block × Nat)
  | .done _ => none
  | .read b a _ => some (b, a)

/-- The reads of `p`, one right after the other: the result, and what the reads leave (R168, R170). -/
def State.readThrough {α : Type} (s : State) : Reads α → α × State
  | .done x => (x, s)
  | .read _ a next =>
    match s.readWord a with
    | (w, t) => t.readThrough (next w)

/-! ### Word operations of the ports -/

/-- A port's read of one word (R168, R170): its data, or all ones with the fault reported for the port. -/
def State.portRead (s : State) (a : Nat) (source : FaultSource) (mode : Option Mode) : Answer × State :=
  match s.memory.health a with
  | .clean => (.done (some (s.memory.word a)), s)
  | .corrected => (.done (some (s.memory.word a)), (s.setMemory (s.memory.scrub a)).spendCorrection)
  | .uncorrectable =>
    (.failed (some (BitVec.allOnes 32)), s.reportFault .uncorrectable source (some a) (some .read) mode)

/-- A port's admitted write (R171): whole-word, partial, or without any byte enable. The Bool says whether the write
was performed; a partial write that meets an uncorrectable word is dropped and reported. -/
def State.portWrite (s : State) (a : Nat) (enables : BitVec 4) (data : Word) (source : FaultSource)
    (mode : Option Mode) : Bool × State :=
  if enables = 0 then (true, s)
  else if enables = 0xF then (true, s.writeWord a data)
  else
    match s.memory.health a with
    | .clean => (true, s.writeWord a (mergeBytes enables (s.memory.word a) data))
    | .corrected => (true, (s.writeWord a (mergeBytes enables (s.memory.word a) data)).spendCorrection)
    | .uncorrectable => (false, s.reportFault .uncorrectable source (some a) (some .write) mode)

/-- The word that the owner of a watched word acts on after an admitted write (R171): the word as written, or, for a
write with no byte enable, the word as it already stands. For a word that is then not clean but correctable the data
last written is taken; for an uncorrectable one the spec states no value, and a free value is drawn (log 9). -/
def State.standing (s : State) (a : Nat) : Word × State :=
  match s.memory.health a with
  | .clean | .corrected => (s.memory.word a, s)
  | .uncorrectable => (Config.standingWord s.freeDraws, { s with freeDraws := s.freeDraws + 1 })

/-! ### The requests of the internal blocks (R166) -/

/-- A block's request reaches the Memory Arbiter, behind those that wait there already (R166). -/
def State.offer (s : State) (b : Block) : State :=
  if s.arbiter.requests.contains b then s
  else { s with arbiter := { s.arbiter with requests := s.arbiter.requests ++ [b] } }

/-- A block's request is no longer at the arbiter. -/
def State.retract (s : State) (b : Block) : State :=
  { s with arbiter := { s.arbiter with requests := s.arbiter.requests.erase b } }

/-! ### The region map (R161 to R164) -/

/-- The region of a Kind; a sound map has exactly one of each but PLAIN and NONE. -/
def State.region (s : State) (k : RegionKind) : Option RegionEntry := s.cfg.regions.find? (fun r => r.kind == k)

/-- The first byte address of the region of a Kind. -/
def State.regionBase (s : State) (k : RegionKind) : Nat :=
  match s.region k with
  | some r => 4096 * r.base
  | none => 0

/-- The size in bytes of the region of a Kind. -/
def State.regionSize (s : State) (k : RegionKind) : Nat :=
  match s.region k with
  | some r => 4096 * r.size
  | none => 0

/-- The address of offset `o` in lane `n`'s area (01, section 1.3). -/
def State.laneAddress (s : State) (n : Lane) (o : Nat) : Nat := s.regionBase .lane + 1024 * n.val + o

/-- The address of word `i` of command slot `k` (10, section 10.1); in FAULTED, of the usable slots (R188). -/
def State.slotAddress (s : State) (k : SlotId) (i : Nat) : Nat :=
  (if s.unit = .faulted then s.startUp.usableSlots.getD 0 else s.regionBase .command) + 32 * k.val + 4 * i

/-- The Kind of a bank's region. -/
def bankKind : BankId → RegionKind
  | .a => .bankA
  | .b => .bankB

/-- The address of offset `o` in a bank (12.7). -/
def State.bankAddress (s : State) (b : BankId) (o : Nat) : Nat := s.regionBase (bankKind b) + o

/-- The areas that the map names within its regions (R162), and the one region of the recovery map (R188). -/
inductive Area where
  | landing (n : Lane) (k : Fin 16)
  | tap (n : Lane)
  | writeBack (n : Lane)
  | result (n : Lane)
  | laneOther
  | commandWord (k : SlotId) (i : Fin 8)
  | commandUnused
  | statusArea
  | journalRegion
  | bank (b : BankId)
  | plain (admitted : Quad Bool)
  | recovery
deriving DecidableEq, Repr

/-- The area at an offset of a lane area (R162). Verdict Record and other offsets have the same ceilings. -/
def laneArea (n : Lane) (o : Nat) : Area :=
  if o < 64 then .landing n (Fin.ofNat 16 (o / 4))
  else if o < 68 then .tap n
  else if 128 ≤ o ∧ o < 192 then .writeBack n
  else if 192 ≤ o ∧ o < 196 then .result n
  else .laneOther

/-- The area at an offset of a region (R162). -/
def areaOf (r : RegionEntry) (o : Nat) : Area :=
  match r.kind with
  | .lane => laneArea (Fin.ofNat 4 (o / 1024)) (o % 1024)
  | .command =>
    if o < 256 then .commandWord (Fin.ofNat 8 (o / 32)) (Fin.ofNat 8 (o % 32 / 4)) else .commandUnused
  | .status => .statusArea
  | .journal => .journalRegion
  | .bankA => .bank .a
  | .bankB => .bank .b
  | .plain | .absent => .plain r.admitted

/-- Whether a region holds an address (R162). -/
def RegionEntry.holds (r : RegionEntry) (a : Nat) : Bool :=
  r.kind != .absent && decide (4096 * r.base ≤ a) && decide (a < 4096 * (r.base + r.size))

/-- The recovery map's one region (R188). -/
def recoveryRegion : RegionEntry :=
  { kind := .plain, base := 0, size := 4096, service := .readOnly, maint := .readWrite, reader := .denied,
    admitted := Quad.all false }

/-- The region and area of an address, or none (R162). In FAULTED the recovery map governs, with the usable command
slots' go words as its one kind of watched word (R188). -/
def State.locate (s : State) (a : Nat) : Option (RegionEntry × Area) :=
  if s.unit = .faulted then
    if a < Config.memoryEnd then
      match s.startUp.usableSlots with
      | some base =>
        if base ≤ a ∧ a < base + 256 ∧ (a - base) % 32 / 4 = 7 then
          some (recoveryRegion, .commandWord (Fin.ofNat 8 ((a - base) / 32)) 7)
        else some (recoveryRegion, .recovery)
      | none => some (recoveryRegion, .recovery)
    else none
  else
    match s.cfg.regions.find? (fun r => r.holds a) with
    | some r => some (r, areaOf r (a - 4096 * r.base))
    | none => none

/-- The source of a word access: the processor in a mode, or reader `n`. -/
inductive Source where
  | processor (m : Mode)
  | reader (n : Lane)
deriving DecidableEq, Repr

/-- The source as the Fault Record names it (R172). -/
def Source.faultSource : Source → FaultSource
  | .processor _ => .processor
  | .reader n => .reader n

/-- The mode of a processor source. -/
def Source.mode : Source → Option Mode
  | .processor m => some m
  | .reader _ => none

/-- The ceiling of a source in an area (R163). The recovery map sets none of its own. -/
def ceiling (area : Area) (source : Source) : Right :=
  match area, source with
  | .landing _ _, .processor _ | .tap _, .processor _ | .writeBack _, .processor _ | .result _, .processor _
  | .laneOther, .processor _ => .readOnly
  | .landing m _, .reader n | .tap m, .reader n | .result m, .reader n => if m = n then .readWrite else .denied
  | .writeBack m, .reader n => if m = n then .readOnly else .denied
  | .laneOther, .reader _ => .denied
  | .commandWord _ i, .processor _ => if i = 6 then .readOnly else .readWrite
  | .commandWord _ _, .reader _ => .denied
  | .commandUnused, _ => .denied
  | .statusArea, .processor _ | .journalRegion, .processor _ => .readOnly
  | .statusArea, .reader _ | .journalRegion, .reader _ => .denied
  | .bank _, .processor .service => .readOnly
  | .bank _, .processor .maint => .readWrite
  | .bank _, .reader _ => .denied
  | .plain _, .processor _ => .readWrite
  | .plain admitted, .reader n => if admitted.get n then .readWrite else .denied
  | .recovery, _ => .readWrite

/-- The configured right of a source in a region (R161). -/
def configuredRight (r : RegionEntry) : Source → Right
  | .processor .service => r.service
  | .processor .maint => r.maint
  | .reader _ => r.reader

/-- The lesser of two rights (R163). -/
def Right.lesser (x y : Right) : Right := if x.code ≤ y.code then x else y

/-- The direction of an access. -/
def accessDirection : Access → AccessDirection
  | .read => .read
  | .write _ _ => .write

/-- Whether an effective right allows a direction (R163). -/
def Right.allows (r : Right) : AccessDirection → Bool
  | .read => r != .denied
  | .write => r == .readWrite

/-- Whether lane `n`'s landing area is open (R6). -/
def State.landingOpen (s : State) (n : Lane) : Bool :=
  let l := s.lane n
  l.state == .idle || (l.state == .recovery && !l.comparing && !l.appending)

/-- Whether a bank's state refuses a processor MAINT write (R45). -/
def Bank.writeLocked (b : Bank) : Bool :=
  match b.state with
  | some .empty | some .staging => false
  | some .valid => b.pins != 0
  | some .validating | some .active | some .damaged | none => true

/-- The Go Sequence field of a go word (12.4). -/
def goSequence (w : Word) : Nat := bits w 0 16

/-- Whether a write to word 7 of a busy slot is refused SLOT_BUSY (R175): judged from its data alone by the byte
enables of the Go Sequence field. -/
def busyRefuses (lastTaken : Nat) (enables : BitVec 4) (data : Word) : Bool :=
  match enables.getLsbD 0, enables.getLsbD 1 with
  | true, true => goSequence data != 0 && goSequence data != lastTaken
  | true, false | false, true => true
  | false, false => false

/-- The state test of R164, for a word that its effective right allows: the fault it is refused with, or none. -/
def State.stateTest (s : State) (area : Area) (source : Source) (access : Access) : Option PathFault :=
  match area, source, access with
  | .landing n _, .reader _, .write _ _ | .tap n, .reader _, .write _ _ =>
    if s.landingOpen n then none else some .landingLocked
  | .writeBack n, .reader _, .read => if (s.lane n).state = .released then none else some .notReleased
  | .result n, .reader _, .write _ _ =>
    if (s.lane n).state = .released ∧ (s.lane n).appending = false then none else some .unexpectedResult
  | .bank b, .processor .maint, .write _ _ => if (s.bank b).writeLocked then some .bankLocked else none
  | .commandWord k i, .processor _, .write enables data =>
    if i = 7 ∧ (s.slot k).busy = true ∧ busyRefuses (s.slot k).lastTaken enables data then some .slotBusy else none
  | _, _, _ => none

/-- How the Region Map judges a word (R162 to R164): the area of an admitted word, or the fault of a refused one. -/
def State.judge (s : State) (a : Nat) (source : Source) (access : Access) : Except PathFault Area :=
  match s.locate a with
  | none => .error .outside
  | some (r, area) =>
    if ((ceiling area source).lesser (configuredRight r source)).allows (accessDirection access) then
      match s.stateTest area source access with
      | some f => .error f
      | none => .ok area
    else .error .rights

/-- The answer to a refused or failed word: a read carries all ones (R159, R160). -/
def failedAnswer : Access → Answer
  | .read => .failed (some (BitVec.allOnes 32))
  | .write _ _ => .failed none

/-! ### The lane that a command names -/

/-- The lane that a command names: 0 to 3 and present, or none (R83, R98, R121, R133 to R135). -/
def State.namedLane (s : State) (target : Word) : Option Lane :=
  if h : target.toNat < 4 then if s.present ⟨target.toNat, h⟩ then some ⟨target.toNat, h⟩ else none
  else none

end Sys2Proof.Machine
end

