-- ==== Sys2Proof/Machine/Journal.lean ====
section
/-! DEFINITION. The Journal Writer's arithmetic and its one queue of requests (R105, R106, R109 to R115). -/

namespace Sys2Proof.Machine

/-! ### The ring and its space -/

/-- The number of entry slots of the JOURNAL region (R105). -/
def State.capacity (s : State) : Nat := s.regionSize .journal / 32 - 1

/-- The address of the slot of sequence `q` (R105). -/
def State.entryAddress (s : State) (q : Nat) : Nat := s.regionBase .journal + 32 + 32 * (q % s.capacity)

/-- The occupancy (R110). -/
def State.occupancy (s : State) : Nat := s.journal.next - 1 - s.journal.released

/-- Ring room (R110). -/
def State.ringRoom (s : State) : Nat := s.capacity - s.occupancy - s.journal.reservationTotal

/-- Sequence room (R110). -/
def State.sequenceRoom (s : State) : Nat := Config.lastSequence - s.journal.next - s.journal.reservationTotal

/-- Free space: the smaller of the two (R110). -/
def State.freeSpace (s : State) : Nat := min s.ringRoom s.sequenceRoom

/-- The high-water mark: 7/8 of the capacity, rounded down (R113). -/
def State.highWater (s : State) : Nat := 7 * s.capacity / 8

/-- Whether the journal is exhausted (R113). -/
def State.exhausted (s : State) : Bool := s.journal.next == Config.lastSequence

/-- JOURNAL_HIGH, if an append has left the occupancy at or above the mark (R113). -/
def State.noticeHigh (s : State) : State := if s.highWater ≤ s.occupancy then s.notify .journalHigh else s

/-! ### Reservations (R111) -/

/-- An append against lane `n`'s reservation uses one entry of it: its Reservation and the Reservation Total fall by one
(R109). -/
def State.useReserved (s : State) (n : Lane) : State :=
  let t := s.setLane n { s.lane n with reservation := (s.lane n).reservation - 1 }
  t.setJournal { t.journal with reservationTotal := t.journal.reservationTotal - 1 }

/-! ### Requests -/

/-- The eight words of the Unit Record as it now is: the bank and Version that it is to name, and the given Released
Sequence (R114). When no bank is ACTIVE any more (R53's second case, R55's third bullet), they are still those of the bank
that the record named last: the model's choice (DESIGN CHOICE, log 55). -/
def State.recordWords (s : State) (released : Nat) : Vector Word 8 :=
  unitRecordWords released s.journal.activeBank s.journal.activeVersion

/-- The first address that a job writes to. -/
def State.jobAddress (s : State) : JournalJob → Nat
  | .reserve _ => 0
  | .append seq _ _ _ _ => s.entryAddress seq
  | .rewrite _ _ _ => s.regionBase .journal

/-- The words that a job still has to write, first word first (R109, R114). -/
def JournalJob.remaining : JournalJob → List Word
  | .reserve _ => []
  | .append _ words written _ _ => words.toList.drop written
  | .rewrite words written _ => words.toList.drop written

/-- How many of a job's words are written. -/
def JournalJob.written : JournalJob → Nat
  | .reserve _ => 0
  | .append _ _ w _ _ => w
  | .rewrite _ w _ => w

/-- The job with one more word written. -/
def JournalJob.advance : JournalJob → JournalJob
  | .reserve n => .reserve n
  | .append seq words written reserved next => .append seq words (written + 1) reserved next
  | .rewrite words written releasing => .rewrite words (written + 1) releasing

/-- The job that serving a request begins (R109): a reservation is judged by its own row; a return takes effect at once
and leaves no job; an append against a reservation always begins; an append into free space begins if free space is at
least 1, otherwise there is no job (R112); a rewrite takes the values the record is to hold, Released Sequence `q` for a
JOURNAL_RELEASE (R115). -/
def State.serve (s : State) : JournalRequest → Option JournalJob
  | .reserve n => some (.reserve n)
  | .giveBack _ => none
  | .append draft next =>
    if draft.reserved.isSome ∨ 1 ≤ s.freeSpace then
      some (.append s.journal.next (draft.words s.journal.next) 0 draft.reserved next)
    else none
  | .rewrite releasing =>
    let released := match releasing, s.journal.release with
      | true, some (_, q) => q
      | _, _ => s.journal.released
    some (.rewrite (s.recordWords released) 0 releasing)

/-- What a request that begins no job leaves when it is served: a return lowers the Reservation Total by what it returns
(R111); an append that finds no free space is counted Unrecorded and writes nothing (R112). -/
def Journal.passed (j : Journal) : JournalRequest → Journal
  | .giveBack k => { j with reservationTotal := j.reservationTotal - k }
  | .append _ _ => { j with unrecorded := saturate 65535 (j.unrecorded + 1) }
  | .reserve _ | .rewrite _ => j

/-- Takes requests from the front, in the order they reached the Journal Writer, until one begins a job (R109). -/
def State.serveFrom (s : State) : List JournalRequest → State
  | [] => s.setJournal { s.journal with job := none, queue := [] }
  | r :: rest =>
    match s.serve r with
    | some job => s.setJournal { s.journal with job := some job, queue := rest }
    | none => (s.setJournal (s.journal.passed r)).serveFrom rest

/-- A request reaches the Journal Writer (R109): it waits while another is in progress. -/
def State.request (s : State) (r : JournalRequest) : State :=
  match s.journal.job with
  | some _ => s.setJournal { s.journal with queue := s.journal.queue ++ [r] }
  | none => s.serveFrom (s.journal.queue ++ [r])

/-- The request in progress has ended: the next one is taken (R109). -/
def State.nextRequest (s : State) : State := s.serveFrom s.journal.queue

/-- Lane `n` returns what it still holds reserved: its Reservation becomes 0 at once (R79, R27, R95), and the return of
those entries is requested, if there are any (R109, R111; log 42). -/
def State.giveBack (s : State) (n : Lane) : State :=
  let t := s.setLane n { s.lane n with reservation := 0 }
  if (s.lane n).reservation = 0 then t else t.request (.giveBack (s.lane n).reservation)

/-- A request for a free-space append, which asks for no step after it (R112). -/
def State.requestEntry (s : State) (draft : EntryDraft) : State := s.request (.append draft .nothing)

/-- A non-transaction entry without fare flags, with the service time now (R107). -/
def State.freeDraft (s : State) (n : Option Lane) (body : EntryBody) : EntryDraft :=
  { lane := n, time := s.clock, flags := FareFlags.none, degraded := false, body := body, reserved := none }

/-- The addresses and words that a job still has to write, its closing mark or Mark last (R109, R114). -/
def State.jobCells (s : State) (job : JournalJob) : List (Nat × Word) :=
  (wordRun (s.jobAddress job + 4 * job.written) job.remaining.length).zip job.remaining

/-- An append completes (R109): Next Sequence rises by one, and for an append against a reservation the lane's
Reservation and the Reservation Total fall by one; then R113. -/
def State.countAppend (s : State) (reserved : Option Lane) : State :=
  let t := s.setJournal { s.journal with next := s.journal.next + 1 }
  let u := match reserved with
    | some n => t.useReserved n
    | none => t
  u.noticeHigh

/-! ### Reading the region -/

/-- The reads of the Unit Record, and the record as memory holds it: the First Copy if it is valid, otherwise the Second
Copy if that is, otherwise none (R114). The Second Copy is read only when the First is not valid (log 41). -/
def State.unitRecordReads (s : State) : Reads (Option UnitRecord) :=
  let base := s.regionBase .journal
  (Reads.words .startUp (wordRun base 4)).bind (fun first =>
    match unitRecordOfCopy first with
    | some r => .done (some r)
    | none => (Reads.words .startUp (wordRun (base + 16) 4)).bind (fun second => .done (unitRecordOfCopy second)))

/-- The Unit Record as memory holds it (R114), and what reading it leaves. -/
def State.readUnitRecord (s : State) : Option UnitRecord × State := s.readThrough s.unitRecordReads

/-- The reads of the slot of sequence `q` in the place of block `b`: its eight words, or none when one of them is uncorrectable
(R116). -/
def State.entryReads (s : State) (b : Block) (q : Nat) : Reads (Option (Vector Word 8)) :=
  (Reads.words b (wordRun (s.entryAddress q) 8)).bind (fun words =>
    match words with
    | some [w0, w1, w2, w3, w4, w5, w6, w7] => .done (some #v[w0, w1, w2, w3, w4, w5, w6, w7])
    | _ => .done none)

end Sys2Proof.Machine
end

