-- ==== Sys2Proof/Machine/Mirror.lean ====
section
/-! DEFINITION. The Status Area: what each of its words mirrors (12.6), how a change of mirrored state makes words
stale, and how the Status Writer writes them (R184). -/

namespace Sys2Proof.Machine

/-- The first word of a service time in the Status Area: Second, all ones when absent (12.6). -/
def timeWord0 : Option ServiceTime → Word
  | some t => put t.second 0 17
  | none => put 131071 0 17

/-- The second word of a service time in the Status Area: Day, 0 when absent (12.6). -/
def timeWord1 : Option ServiceTime → Word
  | some t => put t.day 0 16
  | none => 0

/-- Whether a unit is present (R155). -/
def Presence.present (p : Presence) : Bool := decide (p.silence < 4)

/-- The set of present units as a number, bit `u` for unit `u` (12.6). -/
def presentSet (table : Vector Presence 16) : Nat :=
  (table.toList.map Presence.present).foldr (fun p v => flagNumber p + 2 * v) 0

/-- The code of the unit state (12.6); the other states are not mirrored (R185). -/
def UnitState.code : UnitState → Nat
  | .scanning => 2
  | .ready => 3
  | .inReset | .loading | .faulted => 0

/-- The words of the journal part, offsets 20 to 40 (12.6). -/
def State.mirrorJournal (s : State) (i : Nat) : Word :=
  match i with
  | 5 => put s.journal.next 0 32
  | 6 => put s.journal.released 0 32
  | 7 => put s.occupancy 0 32
  | 8 => put s.journal.reservationTotal 0 4 ||| putFlag s.exhausted 8
  | 9 => put s.freeSpace 0 32
  | 10 => put s.journal.unrecorded 0 16 ||| put s.journal.resolutions 16 16
  | _ => 0

/-- The words of the banks part, offsets 64 to 80 (12.6). -/
def State.mirrorBanks (s : State) (i : Nat) : Word :=
  match i with
  | 16 => put (bankStateCode s.banks.a.state) 0 3 ||| put s.banks.a.pins 8 3
  | 17 => s.banks.a.version
  | 18 => put (bankStateCode s.banks.b.state) 0 3 ||| put s.banks.b.pins 8 3
  | 19 => s.banks.b.version
  | 20 => put (bankCode (s.banks.validation.map (·.1))) 0 2 ||| putFlag s.banks.fallback 8
  | _ => 0

/-- The code of a direction of a fault, 0 when absent (12.6). -/
def directionCode : Option AccessDirection → Nat
  | none => 0
  | some .read => 1
  | some .write => 2

/-- The code of a mode of a fault, 0 when absent (12.6). -/
def modeCode : Option Mode → Nat
  | none => 0
  | some .service => 1
  | some .maint => 2

/-- The words of the Fault Record part, offsets 128 to 144 (12.6). That Kind and Source of an empty record, and the Day of an
absent Time, are 0 is the model's choice (DESIGN CHOICE, log 57). -/
def State.mirrorFault (s : State) (i : Nat) : Word :=
  match i, s.faultRecord.first with
  | 32, some f =>
    putFlag true 0 ||| put f.kind.code 4 4 ||| put f.source.code 8 3 ||| put (directionCode f.direction) 12 2
      ||| put (modeCode f.mode) 14 2 ||| put s.faultRecord.further 16 8
  | 32, none => put s.faultRecord.further 16 8
  | 33, f =>
    match f.bind (·.address) with
    | some a => put a 0 32
    | none => BitVec.allOnes 32
  | 34, f => timeWord0 (f.bind (·.time))
  | 35, f => timeWord1 (f.bind (·.time))
  | 36, _ => put s.budget 0 8
  | _, _ => 0

/-- A lane number as a byte, FF hex for none (12.6). -/
def laneByte : Option Lane → Nat
  | some n => n.val
  | none => 255

/-- The words of the screening part, offsets 160 to 168 (12.6). -/
def State.mirrorScreening (s : State) (i : Nat) : Word :=
  let q := s.screening.queue
  match i with
  | 40 =>
    put (laneByte q[0]?) 0 8 ||| put (laneByte q[1]?) 8 8 ||| put (laneByte q[2]?) 16 8 ||| put (laneByte q[3]?) 24 8
  | 41 => put (laneByte (s.screening.run.map (·.lane))) 0 8
  | 42 => put s.denyList.length 0 9 ||| put s.sightings.length 16 10
  | _ => 0

/-- Word `i` of lane `n`'s section (12.6). That the Day of an absent Grant Time is 0 is the model's choice (DESIGN CHOICE,
log 57). -/
def State.mirrorLane (s : State) (n : Lane) (i : Nat) : Word :=
  let l := s.lane n
  let g := s.gate n
  match i with
  | 0 =>
    put l.state.code 0 3 ||| put l.reservation 4 2 ||| put l.reissues 6 2 ||| putFlag l.pendingSeq.isSome 8
      ||| put l.mask.toNat 16 16
  | 1 => put l.verdictNumber 0 32
  | 2 => put (l.pendingSeq.getD 0) 0 32
  | 3 =>
    put g.direction.code 0 2 ||| put g.state.code 4 3 ||| put g.credits.length 8 2 ||| put g.beams.code 12 2
      ||| putFlag g.expiryPending 14
  | 4 => put ((g.credits.head?.map (·.commitSeq)).getD 0) 0 32
  | 5 => timeWord0 (g.credits.head?.bind (·.grant))
  | 6 => timeWord1 (g.credits.head?.bind (·.grant))
  | _ => 0

/-- The words of the line part, offsets 448 to 523 (12.6). That an absent Last Cycle is 0 is the model's choice (DESIGN
CHOICE, log 57). -/
def State.mirrorLine (s : State) (i : Nat) : Word :=
  let l := s.line
  if i = 112 then
    put l.membership.code 0 3 ||| put l.cycle 8 8 ||| putFlag l.aligned 16 ||| put l.framingErrors 24 8
  else if i = 113 then
    put l.dropped 0 16 ||| put l.queue.length 16 6
      ||| put (l.queue.countP (fun m => match m.message with | .deny _ _ => true | .sighting _ _ _ => false)) 24 6
  else if i = 114 then put (presentSet l.presence) 0 16
  else if h : 115 ≤ i ∧ i < 131 then
    let p := l.presence[i - 115]'(by omega)
    put (p.lastCycle.getD 0) 0 8 ||| putFlag p.lastCycle.isSome 8 ||| put p.silence 16 3
  else 0

/-- Word `i` of a Check Results entry (12.6). That an absent Last Index and the words of an absent First Mismatch are 0 is
the model's choice (DESIGN CHOICE, log 57). -/
def CheckResult.word (e : CheckResult) (i : Nat) : Word :=
  match i, e.first with
  | 0, f => putFlag e.synced 0 ||| putFlag e.lastIndex.isSome 1 ||| putFlag f.isSome 2 ||| put (e.lastIndex.getD 0) 16 16
  | 1, _ => put e.checked 0 16 ||| put e.mismatches 16 8 ||| put e.missing 24 8
  | 2, some f => put f.index 0 16 ||| put f.position 16 3 ||| put f.expected.toNat 24 8
  | 3, some f => put f.received.toNat 0 8
  | _, _ => 0

/-- Word `i` of the Status Area as the state now has it, the Change Count word apart (12.6). A word that mirrors no
state is 0 (R184). -/
def State.mirrorWord (s : State) (i : Nat) : Word :=
  if i = 1 then
    put s.unit.code 0 8 ||| putFlag s.startUp.clamped 8 ||| putFlag s.fareUnit.overrideOn 9
      ||| put s.fareUnit.factor 16 16
  else if i = 2 then timeWord0 s.clock ||| putFlag s.clock.isSome 31
  else if i = 3 then timeWord1 s.clock
  else if i = 4 then put s.status.notices.toNat 0 18
  else if i < 16 then s.mirrorJournal i
  else if i < 32 then s.mirrorBanks i
  else if i < 40 then s.mirrorFault i
  else if i < 48 then s.mirrorScreening i
  else if i < 112 then s.mirrorLane (Fin.ofNat 4 ((i - 48) / 16)) ((i - 48) % 16)
  else if i < 144 then s.mirrorLine i
  else if h : i < 208 then (s.line.results[(i - 144) / 4]'(by omega)).word ((i - 144) % 4)
  else if h : i < 216 then (s.slots[i - 208]'(by omega)).detailValue
  else if i < 280 then (s.cfg.regions[(i - 216) / 4]?.map (·.word ((i - 216) % 4))).getD 0
  else 0

/-- The words that mirror state changing after the load: words 1 to 215. The Change Count (word 0) frames the writes
and the region copies (words 216 to 279) are fixed. -/
def mirroredWords : List Nat := (List.range 215).map (· + 1)

/-- Every word of the 4 KiB area but the Change Count and the region copies: those made stale on entering SCANNING
(R184). -/
def scanningStale : List Nat := mirroredWords ++ (List.range 744).map (· + 280)

/-- The copies of the region entries, made stale on entering READY (R184). -/
def regionCopies : List Nat := (List.range 64).map (· + 216)

/-- A word joins the stale set, once; the set is kept rising (R184). -/
def insertStale (i : Nat) : List Nat → List Nat
  | [] => [i]
  | j :: rest => if i < j then i :: j :: rest else if i = j then j :: rest else j :: insertStale i rest

/-- Several words, rising, join the stale set. -/
def mergeStale : List Nat → List Nat → List Nat
  | [], stale => stale
  | i :: rest, stale => mergeStale rest (insertStale i stale)

/-- The Change Count rises by one, and its new value is to be written; the count runs from 4,294,967,295 to 0 (R184). -/
def raiseCount (w : StatusWriter) : StatusWriter :=
  let raised := w.changeCount.map (· + 1)
  { w with changeCount := raised, due := w.due ++ raised.toList }

/-- The words given become stale. When the set goes from empty to not empty, the Change Count rises to an odd value,
which is due to be written (R184). -/
def State.makeStale (s : State) (words : List Nat) : State :=
  match words, s.status.stale with
  | [], _ => s
  | _, [] => s.setStatus (raiseCount { s.status with stale := mergeStale words [] })
  | _, stale => s.setStatus { s.status with stale := mergeStale words stale }

/-- The address of word `i` of the Status Area. -/
def State.statusAddress (s : State) (i : Nat) : Nat := s.regionBase .status + 4 * i

/-- Whether memory holds another value of word `i` than its state has now (R184). -/
def State.unshown (s : State) (i : Nat) : Bool := s.memory.word (s.statusAddress i) != s.mirrorWord i

/-- The Status Area exists from SCANNING onward (R185); in the other unit states nothing is mirrored. -/
def State.mirrors (s : State) : Bool := s.unit == .scanning || s.unit == .ready

/-- The end of an event: the words whose mirrored state the event changed become stale, but for those that it has itself
written with their new values (R184). -/
def State.note (s t : State) : State :=
  if t.mirrors then t.makeStale (mirroredWords.filter (fun i => s.mirrorWord i != t.mirrorWord i && t.unshown i)) else t

/-! ### The Status Writer's writes -/

/-- The oldest value of the Change Count that is still to be written is written to its word (R184). -/
def State.writeCount (s : State) : State :=
  match s.status.due with
  | [] => s
  | v :: rest => (s.writeWord (s.statusAddress 0) v).setStatus { s.status with due := rest }

/-- Word `i` of the Status Area has been written. Where it is the Detail Value of a slot whose result word stands behind it,
the result word may follow: its request is at the arbiter (R178). -/
def State.detailWritten (s : State) (i : Nat) : State :=
  if h : 208 ≤ i ∧ i < 216 then
    let k : SlotId := ⟨i - 208, by omega⟩
    match (s.slot k).result with
    | some r =>
      if r.afterDetail then
        (s.setSlot k { s.slot k with result := some { r with afterDetail := false } }).offer (.commandSlot k)
      else s
    | none => s
  else s

/-- The stale word `i`, the lowest, is written with the value its state holds now and leaves the set; when the set
becomes empty the Change Count rises to an even value, due to be written (R184). -/
def State.writeStale (s : State) (i : Nat) (rest : List Nat) : State :=
  let t := ((s.writeWord (s.statusAddress i) (s.mirrorWord i)).setStatus { s.status with stale := rest }).detailWritten i
  match rest with
  | [] => t.setStatus (raiseCount t.status)
  | _ => t

/-- One word operation of the Status Writer on its area: a Change Count that is due, else the lowest stale word. -/
def State.statusOperation (s : State) : State :=
  match s.status.due, s.status.stale with
  | _ :: _, _ => s.writeCount
  | [], i :: rest => s.writeStale i rest
  | [], [] => s

/-- Whether the Status Writer has a word of its area waiting. -/
def State.statusWaiting (s : State) : Bool := !s.status.due.isEmpty || !s.status.stale.isEmpty

/-! ### Command results (R178) -/

/-- The Detail Value `v` is placed in slot `k` (R178). With it every word of the Status Area that the state no longer agrees
with is stale, so that the Status Writer writes on, by R184, until the slot's word is written. -/
def State.placeDetail (s : State) (k : SlotId) (v : Word) : State :=
  let t := s.setSlot k { s.slot k with detailValue := v }
  if t.mirrors then t.makeStale (mirroredWords.filter t.unshown) else t

/-- Whether the word of slot `k`'s Detail Value is stale (R184). -/
def State.detailDue (s : State) (k : SlotId) : Bool := s.status.stale.contains (208 + k.val)

/-- The result word of slot `k`, with the Sequence Echo of the Go Sequence that took its command, is to be written, at once
or behind the slot's Detail Value; the slot is busy until it has been written (R178). -/
def State.placeResult (s : State) (k : SlotId) (outcome : CommandOutcome) (detail : Detail) (afterDetail : Bool) : State :=
  let x := s.slot k
  s.setSlot k { x with
    busy := true, reading := none, command := none, result := some ⟨resultWord x.lastTaken outcome detail, afterDetail⟩ }

/-- A command completes (R178): the Detail Value is placed in the Status Area if the outcome carries one, then the result
word is to be written, by a request of the Command Taker (R166). -/
def State.complete (s : State) (k : SlotId) (outcome : CommandOutcome) (detail : Detail := .none)
    (value : Option Word := none) : State :=
  let t := match value with
    | some v => s.placeDetail k v
    | none => s
  if value.isSome && t.detailDue k then (t.placeResult k outcome detail true).offer .statusArea
  else (t.placeResult k outcome detail false).offer (.commandSlot k)

/-- The result word of slot `k` is written and the slot is free (R178). -/
def State.writeResult (s : State) (k : SlotId) : State :=
  match (s.slot k).result with
  | some r =>
    let t := s.writeWord (s.slotAddress k 6) r.word
    t.setSlot k { t.slot k with busy := false, result := none }
  | none => s

end Sys2Proof.Machine
end

