-- ==== Sys2Proof/Machine/Lists.lean ====
section
/-! DEFINITION. The Local Deny List (R30, R31), the Sightings Table (R34 to R36) and the Transmit Queue (R150, R151). -/

namespace Sys2Proof.Machine

/-! ### The Transmit Queue -/

/-- Whether a full queue may give up this message: a SIGHTING that is not in flight (R151). -/
def QueuedMessage.givesWay (m : QueuedMessage) : Bool :=
  match m.message with
  | .sighting _ _ _ => !m.inFlight
  | .deny _ _ => false

/-- The queue with a message at its tail, and whether a message was lost by it (R150, R151). -/
def joinQueue (queue : List QueuedMessage) (m : TransmitMessage) : List QueuedMessage × Bool :=
  if queue.length < Config.transmitQueueSize then (queue ++ [⟨m, false⟩], false)
  else if queue.any QueuedMessage.givesWay then (queue.eraseP QueuedMessage.givesWay ++ [⟨m, false⟩], true)
  else (queue, true)

/-- A message is to join the Transmit Queue (R150, R151); a unit whose line is disabled discards it uncounted. -/
def State.transmit (s : State) (m : TransmitMessage) : State :=
  if s.cfg.lineEnabled then
    let j := joinQueue s.line.queue m
    s.setLine { s.line with
      queue := j.1, dropped := if j.2 then saturate 65535 (s.line.dropped + 1) else s.line.dropped }
  else s

/-! ### The Local Deny List -/

/-- The entry of a Serial (R30). -/
def State.denied (s : State) (x : Serial) : Option DenyEntry := s.denyList.find? (fun e => e.serial == x)

/-- The list without the entry that gives way in a full list, and its Serial: the oldest of Origin NEIGHBOR, or the
oldest of all when none is (R31). -/
def displaceDeny (l : List DenyEntry) : List DenyEntry × Option Serial :=
  match l.find? (fun e => e.origin == .neighbor) with
  | some e => (l.eraseP (fun e => e.origin == .neighbor), some e.serial)
  | none => (l.tail, l.head?.map (·.serial))

/-- An add to the Local Deny List (R31): whether it changed the list, and the state. `originUnit` is the Origin unit of
a received DENY, 0 otherwise (12.5). -/
def State.addDeny (s : State) (x : Serial) (origin : Origin) (reason : DenyReason) (originUnit : UnitId) :
    Bool × State :=
  match s.denied x with
  | some _ => (false, s)
  | none =>
    let made : List DenyEntry × Option Serial :=
      if s.denyList.length < Config.denyListSize then (s.denyList, none) else displaceDeny s.denyList
    let entry : DenyEntry := ⟨x, origin, reason, s.clock⟩
    let t := ({ s with denyList := made.1 ++ [entry] }).notify .deny
    (true, t.requestEntry (t.freeDraft none (.denyAdded x made.2 origin reason originUnit)))

/-- An add of this unit's own, followed by its DENY message if it changed the list (R32, R38, R103, R153). -/
def State.addOwnDeny (s : State) (x : Serial) (reason : DenyReason) : Bool × State :=
  match s.addDeny x .own reason 0 with
  | (true, t) => (true, t.transmit (.deny x reason))
  | (false, t) => (false, t)

/-! ### The Sightings Table -/

/-- The age of an entry at a time, in seconds; 0 when the entry is later (R35). -/
def Sighting.age (e : Sighting) (now : ServiceTime) : Nat := now.absolute - e.time.absolute

/-- The lookup of R35: the entry of a Serial, unless it is older than the sightings window, when it is removed. With the
clock UNSET the table is empty and nothing ages. -/
def State.lookSighting (s : State) (x : Serial) (now : Option ServiceTime) : Option Sighting × State :=
  match s.sightings.find? (fun e => e.serial == x), now with
  | none, _ => (none, s)
  | some e, none => (some e, s)
  | some e, some t =>
    if s.cfg.sightingsWindow * 60 < e.age t then
      (none, { s with sightings := s.sightings.eraseP (fun e => e.serial == x) })
    else (some e, s)

/-- Whether entry `x` is evicted before entry `y`: the older Time, then Origin NEIGHBOR, then the lower Serial
(R36). -/
def evictedBefore (x y : Sighting) : Bool :=
  if x.time.absolute != y.time.absolute then decide (x.time.absolute < y.time.absolute)
  else if x.origin != y.origin then x.origin == .neighbor
  else decide (x.serial.toNat < y.serial.toNat)

/-- The entry that a full table evicts (R36). -/
def evicted : List Sighting → Option Sighting
  | [] => none
  | e :: rest =>
    match evicted rest with
    | none => some e
    | some f => if evictedBefore f e then some f else some e

/-- The table with an entry set: its Serial's entry replaced, or inserted, after an eviction from a full table
(R36). -/
def setSightingIn (l : List Sighting) (e : Sighting) : List Sighting :=
  if l.any (fun f => f.serial == e.serial) then l.map (fun f => if f.serial == e.serial then e else f)
  else if l.length < Config.sightingsSize then l ++ [e]
  else
    match evicted l with
    | some v => l.eraseP (fun f => f.serial == v.serial) ++ [e]
    | none => [e]

/-- The set of R36; none is made while the clock is UNSET. -/
def State.setSighting (s : State) (x : Serial) (counter : Nat) (balance : Word) (u : UnitId) (origin : Origin) :
    State :=
  match s.clock with
  | none => s
  | some t => { s with sightings := setSightingIn s.sightings ⟨x, counter, balance, u, t, origin⟩ }

end Sys2Proof.Machine
end

