-- ==== Sys2Proof/Machine/Banks.lean ====
section
/-! DEFINITION. Bank Control (03): pins, damage and fallback, validation, and start-up selection. -/

namespace Sys2Proof.Machine

/-! ### Pins (R46) -/

/-- The ACTIVE bank, if one is (R44). -/
def State.activeBank (s : State) : Option BankId :=
  if s.banks.a.state = some .active then some .a
  else if s.banks.b.state = some .active then some .b
  else none

/-- Lane `n` takes a pin on the ACTIVE bank, or none if no bank is ACTIVE (R46). -/
def State.takePin (s : State) (n : Lane) : State :=
  match s.activeBank with
  | none => s.setLane n { s.lane n with pinned := none }
  | some x =>
    let t := s.setBank x { s.bank x with pins := (s.bank x).pins + 1 }
    t.setLane n { t.lane n with pinned := some x }

/-- Lane `n` releases its pin, if it holds one (R46). -/
def State.releasePin (s : State) (n : Lane) : State :=
  match (s.lane n).pinned with
  | none => s
  | some x =>
    let t := s.setBank x { s.bank x with pins := (s.bank x).pins - 1 }
    t.setLane n { t.lane n with pinned := none }

/-! ### Damage and fallback (R52, R53) -/

/-- The Unit Record is to name a bank and its Version: a rewrite is requested with them (R114). -/
def State.recordBank (s : State) (x : BankId) : State :=
  (s.setJournal { s.journal with activeBank := some x, activeVersion := (s.bank x).version }).request (.rewrite false)

/-- The run whose lane is pinned to bank `x` is marked: it ends UNIT_FAULT with reason BANK_DAMAGED (R20, R52). -/
def State.markRun (s : State) (x : BankId) : State :=
  match s.screening.run with
  | some r =>
    if (s.lane r.lane).pinned = some x then s.setScreening { s.screening with run := some { r with bankDamaged := true } }
    else s
  | none => s

/-- The fallback after the ACTIVE bank `x` became DAMAGED (R53). Where no bank becomes ACTIVE the Unit Record is left
unchanged, and the bank and Version that a later rewrite is to carry stay as they were: the model's choice (DESIGN CHOICE,
log 55), where R114 has a rewrite carry the current Active Bank. -/
def State.fallBack (s : State) (x : BankId) : State :=
  let y := x.other
  if (s.bank y).state = some .valid then
    let t := s.setBank y { s.bank y with state := some .active }
    let u := ({ t with banks := { t.banks with fallback := true } }).recordBank y
    u.requestEntry (u.freeDraft none (.bankFallback x (some (y, (u.bank y).version))))
  else s.requestEntry (s.freeDraft none (.bankFallback x none))

/-- Bank `x` becomes DAMAGED by an internal read (R52), with the fallback of R53 if it was ACTIVE. -/
def State.damageBank (s : State) (x : BankId) : State :=
  let t := ((s.setBank x { s.bank x with state := some .damaged }).notify .bank).markRun x
  if (s.bank x).state = some .active then t.fallBack x else t

/-- Reads of bank `x` by a run, the Fare Unit's included (R166): their data, or none at an uncorrectable word, which damages
the bank (R22, R52). -/
def State.bankReads (s : State) (x : BankId) (offsets : List Nat) : Reads (Option (List Word)) :=
  Reads.words .run (offsets.map (s.bankAddress x))

/-! ### Validation (R48) -/

/-- The deny limit of a bank (R41). -/
def State.denyLimit (s : State) (x : BankId) : Nat := (s.regionSize (bankKind x) - 1024) / 16

/-- The Serials of deny entries laid out as words (R43). -/
def denySerials : List Word → List Nat
  | w0 :: w1 :: _ :: _ :: rest => (serialOf w0 w1).toNat :: denySerials rest
  | _ => []

/-- The index of the first number, counted from `i`, that is not greater than the one before it. -/
def firstNotRising (i : Nat) : List Nat → Option Nat
  | x :: y :: rest => if x < y then firstNotRising (i + 1) (y :: rest) else some (i + 1)
  | _ => none

/-- The index of the first number that is above a limit. -/
def firstAbove (limit : Nat) (l : List Nat) : Option Nat := l.findIdx? (fun v => decide (limit < v))

/-- What a validation failed with: the detail and the index it names, if it names one (R48). -/
abbrev BankFailure := Detail × Option Nat

/-- The tests 3 to 9 of R48 over the words from offset 64 to the end of the last declared deny entry, in order, each
with its failure. -/
def bankTests (bankCheck : Word) (body : List Word) : List (Option BankFailure) :=
  let count := (body.getD 128 0).toNat
  let bands := (body.drop 129).take (min 8 count)
  let rows := (List.range 16).map (fun i => body.getD (137 + 2 * i) 0)
  [ if crc32 (body.flatMap bytesOf) = bankCheck then none else some (.check, none),
    (firstNotRising 0 (denySerials (body.drop 240))).map (fun i => (.denyOrder, some i)),
    if 1 ≤ count ∧ count ≤ 8 then none else some (.bandCount, none),
    (firstNotRising 0 (bands.map (fun w => bits w 0 16))).map (fun i => (.bandOrder, some i)),
    (firstAbove 2000 (bands.map (fun w => bits w 16 16))).map (fun i => (.bandFactor, some i)),
    (rows.findIdx? (fun w => !([1, 2, 3].contains (bits w 0 8)))).map (fun i => (.productKind, some i)),
    (firstAbove 1000 (rows.map (fun w => bits w 16 16))).map (fun i => (.productFactor, some i)) ]

/-- What a validation reads and finds: its failure, or none when it succeeds, and the Version if it could be read. -/
structure Validation where
  failure : Option BankFailure
  version : Option Word
deriving DecidableEq, Repr

/-- The reads of a validation of bank `x` (R48), and what it finds: the tests in order, stopping at the first that fails or at
the first uncorrectable word. Words already read and found good are not read again. -/
def State.validationReads (s : State) (x : BankId) : Reads Validation :=
  .read .bankControl (s.bankAddress x 0) (fun w =>
    match w with
    | none => .done ⟨some (.memory, none), none⟩
    | some version =>
      if version = 0 then .done ⟨some (.version, none), some version⟩
      else
        .read .bankControl (s.bankAddress x 4) (fun w =>
          match w with
          | none => .done ⟨some (.memory, none), some version⟩
          | some count =>
            if s.denyLimit x < count.toNat then .done ⟨some (.denyCount, none), some version⟩
            else
              (Reads.words .bankControl
                  (s.bankAddress x 8 :: wordRun (s.bankAddress x 64) (240 + 4 * count.toNat))).bind (fun words =>
                match words with
                | some (bankCheck :: body) => .done ⟨(bankTests bankCheck body).findSome? id, some version⟩
                | _ => .done ⟨some (.memory, none), some version⟩)))

/-- Validation of bank `x` (R48): what it finds, and what its reads leave. -/
def State.validate (s : State) (x : BankId) : Validation × State := s.readThrough (s.validationReads x)

/-- Bank `x` takes a state, and the Version that a validation read (R48, R49, R50). -/
def State.settleBank (s : State) (x : BankId) (state : BankState) (version : Option Word) : State :=
  s.setBank x { s.bank x with state := some state, version := version.getD (s.bank x).version }

/-! ### The end of a BANK_SWITCH validation -/

/-- The bank that was ACTIVE becomes VALID (R49). -/
def State.retireActive (s : State) : State :=
  match s.activeBank with
  | some y => s.setBank y { s.bank y with state := some .valid }
  | none => s

/-- Validation of `x` succeeds (R49). -/
def State.switchTo (s : State) (x : BankId) (k : SlotId) (version : Option Word) : State :=
  let former := s.activeBank.map (fun y => (y, (s.bank y).version))
  let t := (s.retireActive).settleBank x .active version
  let u := { t with banks := { t.banks with validation := none, got := [], fallback := false } }
  let v := u.recordBank x
  let w := v.requestEntry (v.freeDraft none (.bankSwitch x (v.bank x).version former))
  (w.notify .bank).complete k .done

/-- Validation of `x` fails (R50): STAGING, or DAMAGED for MEMORY with R52's notice. -/
def State.failValidation (s : State) (x : BankId) (k : SlotId) (version : Option Word) (f : BankFailure) : State :=
  let t := { s with banks := { s.banks with validation := none, got := [] } }
  let u := t.settleBank x .staging version
  let v := if f.1 = .memory then u.damageBank x else u
  v.complete k .badTable f.1 (f.2.map (BitVec.ofNat 32))

/-- The end of the validation of bank `x` for the command in slot `k`, with what it found (R48 to R50). -/
def State.endValidation (s : State) (x : BankId) (k : SlotId) (v : Validation) : State :=
  match v.failure with
  | none => s.switchTo x k v.version
  | some f => s.failValidation x k v.version f

/-! ### Start-up selection (R54, R55) -/

/-- Bank `x` after its validation for selection found `v`, and whether it passed. A failed bank becomes DAMAGED for MEMORY
and STAGING otherwise; a passing one ACTIVE (R54). -/
def State.selectBank (s : State) (x : BankId) (v : Validation) : Bool × State :=
  match v.failure with
  | none => (true, s.settleBank x .active v.version)
  | some (.memory, _) => (false, (s.settleBank x .damaged v.version).notify .bank)
  | some _ => (false, s.settleBank x .staging v.version)

/-- The step 5 of R54 for one bank, with its Version as read, none for an uncorrectable word: a STAGING bank becomes EMPTY for
a Version of 0, and DAMAGED where it could not be read. -/
def State.examineBank (s : State) (x : BankId) (header : Option Word) : State :=
  if (s.bank x).state = some .staging then
    match header with
    | none => (s.setBank x { s.bank x with state := some .damaged }).notify .bank
    | some v => s.settleBank x (if v = 0 then .empty else .staging) (some v)
  else s

/-- The entry and the notice that selection makes due when the named bank `x` failed (R55). -/
def State.dueFallback (s : State) (x : BankId) (new : Option (BankId × Word)) : State :=
  ({ s with banks := { s.banks with due := some (.bankFallback x new) } }).notify .bank

/-- Whether a valid Unit Record already names bank `x` with its Version (R55). -/
def UnitRecord.names (r : UnitRecord) (x : BankId) (version : Word) : Bool := r.bank == some x && r.version == version

/-- The Unit Record after bank `x` became ACTIVE at start-up (R55): a valid one is rewritten at once when it does not
name it with its Version; an invalid one is rewritten by the scan with what is settled here (R118). -/
def State.recordSelected (s : State) (record : Option UnitRecord) (x : BankId) : State :=
  match record with
  | none => s.setJournal { s.journal with activeBank := some x, activeVersion := (s.bank x).version }
  | some r => if r.names x (s.bank x).version then s else s.recordBank x

/-- The bank that selection validates first (R54): the one that the Unit Record names, else A. -/
def firstSelected (record : Option UnitRecord) : BankId := (record.bind (·.bank)).getD .a

/-- What selection reads (R54): the Unit Record, what the validation of the first bank finds, what that of the other finds
where the first fails, and the headers of the two banks, none where a header is not read. -/
structure Selection where
  record  : Option UnitRecord
  first   : Validation
  second  : Option Validation
  headerA : Option (Option Word)
  headerB : Option (Option Word)
deriving DecidableEq, Repr

/-- What selection found of bank `x`, if it validated it. -/
def Selection.of (f : Selection) (x : BankId) : Option Validation :=
  if x = firstSelected f.record then some f.first else f.second

/-- Whether selection reads the header of a bank (R54, step 5): it was not validated, or it failed otherwise than with
MEMORY. -/
def headerRead : Option Validation → Bool
  | none => true
  | some v =>
    match v.failure with
    | none | some (.memory, _) => false
    | some _ => true

/-- The header of bank `x` is read where `wanted` (R54, R166). -/
def State.headerReads (s : State) (wanted : Bool) (x : BankId) : Reads (Option (Option Word)) :=
  if wanted then .read .startUp (s.bankAddress x 0) (fun w => .done (some w)) else .done none

/-- The reads of start-up selection (R54): the Unit Record, the validations, and the headers of step 5. -/
def State.selectionReads (s : State) : Reads Selection :=
  s.unitRecordReads.bind (fun record =>
    let x := firstSelected record
    (s.validationReads x).bind (fun first =>
      (match first.failure with
       | none => .done none
       | some _ => (s.validationReads x.other).bind (fun v => .done (some v)) : Reads (Option Validation)).bind (fun second =>
        let f : Selection := ⟨record, first, second, none, none⟩
        (s.headerReads (headerRead (f.of .a)) .a).bind (fun a =>
          (s.headerReads (headerRead (f.of .b)) .b).bind (fun b =>
            .done { f with headerA := a, headerB := b })))))

/-- Selection with a named bank (R54, step 2), and its results (R55). -/
def State.selectNamed (s : State) (r : UnitRecord) (x : BankId) (f : Selection) : State :=
  match s.selectBank x f.first, f.second with
  | (true, t), _ =>
    let u := t.recordSelected (some r) x
    if r.version = (t.bank x).version then u else u.notify .bank
  | (false, t), some w =>
    match t.selectBank x.other w with
    | (true, u) =>
      let v := { u with banks := { u.banks with fallback := true } }
      (v.recordSelected (some r) x.other).dueFallback x (some (x.other, (v.bank x.other).version))
    | (false, u) => u.dueFallback x none
  | (false, t), none => t

/-- Selection without a named bank (R54, step 3), and its results (R55). -/
def State.selectUnnamed (s : State) (f : Selection) : State :=
  match s.selectBank .a f.first, f.second with
  | (true, t), _ => t.recordSelected f.record .a
  | (false, t), some w =>
    match t.selectBank .b w with
    | (true, u) => u.recordSelected f.record .b
    | (false, u) => u
  | (false, t), none => t

/-- A bank that was not validated becomes STAGING (R54, step 4). -/
def State.leaveUnvalidated (s : State) (x : BankId) : State :=
  if (s.bank x).state = some .validating then s.setBank x { s.bank x with state := some .staging } else s

/-- The values of a valid Unit Record are taken as what the record names and what is released (R54, R114). That the Released
Sequence is taken here already, so that a rewrite which selection requests carries it, is the model's choice (log 50). -/
def State.takeRecord (s : State) : Option UnitRecord → State
  | none => s
  | some r =>
    s.setJournal { s.journal with released := r.released, activeBank := r.bank, activeVersion := r.version }

/-- The end of start-up selection, with what it read (R54, R55). -/
def State.endSelection (s : State) (f : Selection) : State :=
  let t := s.takeRecord f.record
  let u :=
    match f.record.bind (fun r => r.bank.map (fun x => (r, x))) with
    | some (r, x) => t.selectNamed r x f
    | none => t.selectUnnamed f
  let v := (u.leaveUnvalidated .a).leaveUnvalidated .b
  let w :=
    match f.headerA with
    | some h => v.examineBank .a h
    | none => v
  let z :=
    match f.headerB with
    | some h => w.examineBank .b h
    | none => w
  { z with startUp := { z.startUp with selectionDone := true, got := [] } }

/-! ### A processor write to a bank (R45) -/

/-- Bank Control acts on an admitted write: an EMPTY or VALID bank becomes STAGING at once (R45). -/
def State.bankWritten (s : State) (x : BankId) : State :=
  match (s.bank x).state with
  | some .empty | some .valid => s.setBank x { s.bank x with state := some .staging }
  | _ => s

end Sys2Proof.Machine
end

