-- ==== Sys2Proof/Machine/Gates.lean ====
section
/-! DEFINITION. The Gate Sequencers (07): credits, beams and passages, alarms, FREE, the EMERGENCY input, and their
rows and commands. -/

namespace Sys2Proof.Machine

/-! ### Gate states -/

/-- The gate on its credits: OPEN with the head timer in full, or CLOSED when the queue is empty (R132, R135, R137). -/
def Gate.onCredits (g : Gate) : Gate :=
  { g with
    state := if g.credits.isEmpty then .closed else .opened
    headTimer := !g.credits.isEmpty, expiryPending := false, alarmTimer := false }

/-- The gate in a state in which no timer runs: FREE or EMERGENCY (R134, R136), or CLOSED before READY (R138). -/
def Gate.untimed (g : Gate) (x : GateState) : Gate :=
  { g with state := x, headTimer := false, expiryPending := false, alarmTimer := false }

/-- A credit joins the Credit Queue (R126). -/
def Gate.joinCredit (g : Gate) (x : Credit) : Gate :=
  let h := { g with credits := g.credits ++ [x] }
  match g.state with
  | .closed => { h with state := .opened, headTimer := true }
  | .opened | .alarm | .free | .emergency => h

/-- The head credit leaves an OPEN gate: the next head's timer starts in full, or the gate becomes CLOSED (R128,
R130). -/
def Gate.dropHead (g : Gate) : Gate := { g with credits := g.credits.tail }.onCredits

/-- Lane `n`'s Gate Sequencer receives a credit (R104). -/
def State.grantCredit (s : State) (n : Lane) (x : Credit) : State := s.setGate n ((s.gate n).joinCredit x)

/-! ### Entries (R139) -/

/-- The seconds that a removed credit was held (R139). -/
def heldSeconds (grant now : Option ServiceTime) : Nat :=
  match grant, now with
  | some g, some t => saturate 65535 (t.absolute - g.absolute)
  | _, _ => 0

/-- The head credit of lane `n` is removed on expiry (R130): its UNUSED_PASSAGE entry, and the gate on what is left. -/
def State.lapse (s : State) (n : Lane) : State :=
  match (s.gate n).credits with
  | [] => s
  | x :: _ =>
    let t := s.setGate n (s.gate n).dropHead
    t.requestEntry (t.freeDraft (some n) (.unusedPassage (heldSeconds x.grant s.clock) x.commitSeq))

/-- The gate of lane `n` enters ALARM, or stays in it, with its entry and the ALARM notice (R131). The passage ended
with both beams clear, so the alarm hold runs (R132). -/
def State.alarm (s : State) (n : Lane) (body : EntryBody) : State :=
  let t := s.setGate n { s.gate n with state := .alarm, headTimer := false, expiryPending := false, alarmTimer := true }
  (t.requestEntry (t.freeDraft (some n) body)).notify (.alarm n)

/-! ### Beams (R124, R125) -/

/-- The Beam State that two inputs show. -/
def beamsOf (inputA inputB : Bool) : BeamState :=
  match inputA, inputB with
  | false, false => .clear
  | true, false => .a
  | true, true => .ab
  | false, true => .b

/-- The Beam Sequencer as unit reset leaves it, by its inputs (R124). -/
def Gate.resetBeams (g : Gate) : Gate :=
  let x := beamsOf g.inputA g.inputB
  { g with beams := x, entryBeam := if x = .clear then .absent else .unknown, crossed := false }

/-- The judgments of R125. -/
inductive Passage where
  | forward
  | reverse
  | absent
deriving DecidableEq, Repr

/-- The judgment of the path that a return to CLEAR ends (R125). -/
def Gate.judgePath (g : Gate) : Passage :=
  match g.entryBeam, g.crossed, g.beams with
  | .a, true, .b => .forward
  | .b, true, .a => .reverse
  | _, _, _ => .absent

/-- The Beam Sequencer and the alarm hold after the Beam State moves to `x` (R124, R132). -/
def Gate.moveBeams (g : Gate) (x : BeamState) : Gate :=
  let h : Gate :=
    match x, g.beams with
    | .clear, _ => { g with beams := .clear, entryBeam := .absent, crossed := false }
    | .a, .clear => { g with beams := .a, entryBeam := .a, crossed := false }
    | .b, .clear => { g with beams := .b, entryBeam := .b, crossed := false }
    | .ab, _ => { g with beams := .ab, crossed := true }
    | .a, _ => { g with beams := .a }
    | .b, _ => { g with beams := .b }
  if g.state = .alarm ∧ g.beams ≠ x then { h with alarmTimer := x == .clear } else h

/-- A forward passage handed over at lane `n` (R128). -/
def State.forwardPassage (s : State) (n : Lane) : State :=
  match (s.gate n).state with
  | .opened => s.setGate n (s.gate n).dropHead
  | .closed => s.alarm n (.tailgate .closed)
  | .alarm => s.alarm n (.tailgate .alarm)
  | .free | .emergency => s

/-- A reverse passage handed over at lane `n` (R129). -/
def State.reversePassage (s : State) (n : Lane) : State :=
  let head := (s.gate n).credits.head?.map (·.commitSeq)
  match (s.gate n).state with
  | .opened => s.alarm n (.wrongWay .opened head)
  | .closed => s.alarm n (.wrongWay .closed head)
  | .alarm => s.alarm n (.wrongWay .alarm head)
  | .free | .emergency => s

/-- What a return to CLEAR brings at lane `n` (R125, R130): the passage, or a deferred expiry that no passage
settled. -/
def State.laneCleared (s : State) (n : Lane) (p : Passage) : State :=
  match p with
  | .forward => s.forwardPassage n
  | .reverse => s.reversePassage n
  | .absent => if (s.gate n).expiryPending then s.lapse n else s

/-- A change of a beam input at a followed lane (R124): the Beam State moves, and in READY a return to CLEAR hands over
its passage. -/
def State.followBeams (s : State) (n : Lane) (g : Gate) : State :=
  let x := beamsOf g.inputA g.inputB
  let t := s.setGate n (g.moveBeams x)
  if x = .clear ∧ g.beams ≠ .clear ∧ s.unit = .ready then t.laneCleared n g.judgePath else t

/-- The gate with one beam input at a level. -/
def Gate.setInput (g : Gate) (beam : Beam) (blocked : Bool) : Gate :=
  match beam with
  | .a => { g with inputA := blocked }
  | .b => { g with inputB := blocked }

/-- BEAM_CHANGE (R124). While RESET_N is asserted the Beam State is what the inputs show; from the end of LOADING an
absent lane's inputs are not followed (R122). -/
def State.beamChange (s : State) (n : Lane) (beam : Beam) (blocked : Bool) : State :=
  let g := (s.gate n).setInput beam blocked
  match s.unit with
  | .inReset => s.setGate n g.resetBeams
  | .loading | .faulted => s.followBeams n g
  | .scanning | .ready => if s.present n then s.followBeams n g else s.setGate n g

/-! ### Timers -/

/-- HEAD_TIMER_EXPIRY (R130), of a running head timer. -/
def State.headExpiry (s : State) (n : Lane) : State :=
  let g := s.gate n
  if g.headTimer then
    if g.beams = .clear then s.lapse n else s.setGate n { g with headTimer := false, expiryPending := true }
  else s

/-! ### Commands -/

/-- CLEAR_ALARM (R133). -/
def State.commandClearAlarm (s : State) (k : SlotId) (r : CommandRecord) : State :=
  match s.namedLane r.target with
  | none => s.complete k .badArgument
  | some n =>
    if (s.gate n).state = .alarm then (s.setGate n (s.gate n).onCredits).complete k .done
    else s.complete k .refusedState

/-- GATE_FREE (R134). -/
def State.commandGateFree (s : State) (k : SlotId) (r : CommandRecord) : State :=
  match s.namedLane r.target with
  | none => s.complete k .badArgument
  | some n =>
    match (s.gate n).state with
    | .closed | .opened | .alarm => (s.setGate n ((s.gate n).untimed .free)).complete k .done
    | .free => s.complete k .done .unchanged
    | .emergency => s.complete k .refusedState

/-- GATE_NORMAL (R135). -/
def State.commandGateNormal (s : State) (k : SlotId) (r : CommandRecord) : State :=
  match s.namedLane r.target with
  | none => s.complete k .badArgument
  | some n =>
    if (s.gate n).state = .free then (s.setGate n (s.gate n).onCredits).complete k .done
    else s.complete k .refusedState

/-- The direction that an argument names (12.4). -/
def directionOf (w : Word) : Option Direction :=
  if w.toNat = 1 then some .entry else if w.toNat = 2 then some .exit else none

/-- SET_DIRECTION (R121). -/
def State.commandSetDirection (s : State) (k : SlotId) (r : CommandRecord) : State :=
  match s.namedLane r.target, directionOf r.arg3 with
  | none, _ | _, none => s.complete k .badArgument
  | some n, some d =>
    let g := s.gate n
    if (s.lane n).state = .idle ∧ g.state = .closed ∧ g.credits = [] then
      (s.setGate n { g with direction := d }).complete k .done
    else s.complete k .refusedState

/-! ### The EMERGENCY input (R136 to R138) -/

/-- Every gate that the input reaches moved by one function: all four in LOADING and FAULTED, the present ones from
SCANNING on (R138). -/
def State.moveGates (s : State) (f : Gate → Gate) : State :=
  let move (n : Lane) : Gate :=
    match s.unit with
    | .scanning | .ready => if s.present n then f (s.gate n) else s.gate n
    | .inReset | .loading | .faulted => f (s.gate n)
  { s with gates := ⟨move 0, move 1, move 2, move 3⟩ }

/-- The gates as the input has them outside READY: EMERGENCY or CLOSED (R138). -/
def State.gatesByInput (s : State) : State :=
  s.moveGates (fun g => g.untimed (if s.emergency then .emergency else .closed))

/-- The entry and the notice of an emergency's start (R136, R138). -/
def State.emergencyStart (s : State) : State :=
  (s.requestEntry (s.freeDraft none (.emergencyStart s.cfg.present))).notify .emergency

/-- The entry and the notice of an emergency's end (R137). -/
def State.emergencyEnd (s : State) : State :=
  (s.requestEntry (s.freeDraft none (.emergencyEnd s.cfg.present))).notify .emergency

/-- The EMERGENCY input moves to a level. An input that does not move brings no event (log 31). -/
def State.emergencyInput (s : State) (level : Bool) : State :=
  if s.emergency = level then s
  else
    let t := { s with emergency := level }
    match s.unit with
    | .inReset => t
    | .loading | .scanning | .faulted => t.gatesByInput
    | .ready =>
      if level then (t.moveGates (·.untimed .emergency)).emergencyStart else (t.moveGates Gate.onCredits).emergencyEnd

end Sys2Proof.Machine
end

