-- ==== Sys2Proof/Machine/Line.lean ====
section
/-! DEFINITION. The Neighbor Line Controller (08): membership and the slot clock, frames sent and received, the messages
they bring, the line check, and its rows and commands. -/

namespace Sys2Proof.Machine

/-! ### Membership and presence -/

/-- The membership state becomes `m`; a change sets the LINE notice (R143). -/
def State.enterMembership (s : State) (m : Membership) : State :=
  let t := s.setLine { s.line with membership := m }
  if s.line.membership = m then t else t.notify .line

/-- The Presence table becomes `p`; a change in the set of present units sets the LINE notice (R155). -/
def State.setPresence (s : State) (p : Vector Presence 16) : State :=
  let t := s.setLine { s.line with presence := p }
  if s.line.presence.map Presence.present = p.map Presence.present then t else t.notify .line

/-- Unit `u` is heard in a cycle (R155). -/
def State.refreshPresence (s : State) (u : UnitId) (cycle : Nat) : State :=
  s.setPresence (s.line.presence.set u.val ⟨some cycle, 0⟩)

/-- A start of slot 0 raises every Silence count below 4 by one (R155). -/
def State.agePresence (s : State) : State :=
  s.setPresence (s.line.presence.map (fun p => { p with silence := min 4 (p.silence + 1) }))

/-- A frame being sent is abandoned: its messages stay in the queue, no longer in flight (R145). -/
def Line.abandonFrame (l : Line) : Line :=
  { l with sending := none, queue := l.queue.map (fun m => { m with inFlight := false }) }

/-- Entry to SILENT (R143): nothing is sent or heard, the clock stops unaligned (R140), the Presence table is cleared. -/
def State.enterSilent (s : State) : State :=
  let l := s.line.abandonFrame
  let t := s.setLine { l with
    running := false, aligned := false, silenceTimer := false, joining := false, misaligned := 0, inbox := [],
    mode := none }
  (t.setPresence presenceReset).enterMembership .silent

/-- Entry to LISTEN (R144): the clock runs unaligned and the silence timer starts. -/
def State.enterListen (s : State) : State :=
  let l := s.line.abandonFrame
  (s.setLine { l with
    running := true, aligned := false, silenceTimer := true, joining := false, misaligned := 0,
    mode := none }).enterMembership .listen

/-- Entry to RESYNC (R147): the clock runs on unaligned and cycles are counted. -/
def State.enterResync (s : State) : State :=
  let l := s.line.abandonFrame
  (s.setLine { l with
    aligned := false, joining := false, misaligned := 0, cycles := 0, mode := none }).enterMembership .resync

/-- Entry to LISTEN if the configuration enables the line (R143, R149). -/
def State.listenIfEnabled (s : State) : State := if s.cfg.lineEnabled then s.enterListen else s

/-- Whether the receive line is heard (R143, R156). -/
def Line.hears (l : Line) : Bool :=
  match l.membership with
  | .silent => false
  | .listen | .joined | .resync => true
  | .check => l.mode == some .line

/-! ### Sending (R145, R157) -/

/-- The pattern bytes of a CHECK message as sent: with injection ON, bit 0 of the first is inverted in every message
whose Index mod 127 is 126 (R157). -/
def injected (injection : Bool) (index : Nat) (p : Vector Byte 8) : Vector Byte 8 :=
  if injection && index % 127 == 126 then p.set 0 (p[0] ^^^ 1) else p

/-- The next `n` CHECK messages from a send Index and generator on, and the Index and generator after them. After
Index 65,535 the Index returns to 0 and the generator is seeded again (R157). -/
def checkRun (injection : Bool) : Nat → Nat → BitVec 15 → List (Nat × Vector Byte 8) × Nat × BitVec 15
  | 0, index, g => ([], index, g)
  | n + 1, index, g =>
    let p := patternBytes g
    let after := if index = 65535 then (0, generatorSeed) else (index + 1, p.2)
    let rest := checkRun injection n after.1 after.2
    ((index, injected injection index p.1) :: rest.1, rest.2)

/-- The frame of a JOINED unit: the head messages of the queue, up to four, go in flight (R145). -/
def Line.formFrame (l : Line) (u : UnitId) : Line :=
  let carried := l.queue.take 4
  { l with
    sending := some ⟨l.cycle, frameBytes u l.cycle (carried.map (fun m => m.message.bytes u)), []⟩
    queue := carried.map (fun m => { m with inFlight := true }) ++ l.queue.drop 4 }

/-- The frame of a unit in CHECK: four CHECK messages; in WRAP mode they are to be looped back (R156, R157). -/
def Line.formCheckFrame (l : Line) (u : UnitId) : Line :=
  let run := checkRun l.injection 4 l.sendIndex l.generator
  { l with
    sending := some ⟨l.cycle, frameBytes u l.cycle (run.1.map (fun m => checkMessageBytes m.1 m.2)),
                     if l.mode = some .wrap then run.1.map (fun m => .check m.1 m.2) else []⟩
    sendIndex := run.2.1
    generator := run.2.2 }

/-- The unit's own slot begins: in JOINED and CHECK it forms and sends its frame (R145, R157). A frame of an earlier slot
that was never told complete is abandoned first (log 30). -/
def State.ownSlot (s : State) : State :=
  let l := s.line.abandonFrame
  match l.membership with
  | .joined => s.setLine (l.formFrame s.cfg.unitId)
  | .check => s.setLine (l.formCheckFrame s.cfg.unitId)
  | .silent | .listen | .resync => s

/-- The clock at the next slot (R140): after slot 15, slot 0 of the next cycle, with R155's ageing and the count of
R147. -/
def State.advanceSlot (s : State) : State :=
  if s.line.slot = 15 then
    let counted := if s.line.membership = .resync then min (s.cfg.unitId.val + 1) (s.line.cycles + 1) else s.line.cycles
    (s.setLine { s.line with slot := 0, cycle := (s.line.cycle + 1) % 256, cycles := counted }).agePresence
  else s.setLine { s.line with slot := s.line.slot + 1 }

/-- The join of R144 at the first boundary after alignment. -/
def State.joinIfDue (s : State) : State :=
  if s.line.joining then (s.setLine { s.line with joining := false }).enterMembership .joined else s

/-- SLOT_BOUNDARY (R140): the clock advances, LISTEN joins after alignment (R144), and in the unit's own slot a frame is
sent (R145). A stopped clock has no boundary. -/
def State.slotBoundary (s : State) : State :=
  if s.line.running then
    let t := s.advanceSlot.joinIfDue
    if t.line.slot = t.cfg.unitId then t.ownSlot else t
  else s

/-- FRAME_COMPLETE (R145): the in-flight messages leave, this unit's presence is refreshed, and a frame of a WRAP check
is looped back (R156). That it is received in this event, and not in one of FRAME_RECEIVED, is the model's choice (log 53). -/
def State.frameComplete (s : State) : State :=
  match s.line.sending with
  | none => s
  | some f =>
    let u := s.cfg.unitId
    let t := s.setLine { s.line with
      sending := none
      queue := s.line.queue.filter (fun m => !m.inFlight)
      inbox := s.line.inbox ++ f.looped.map (fun m => (u, m)) }
    t.refreshPresence u f.cycle

/-- COLLISION (R145): the frame on the line is cut off and the controller enters RESYNC. A looped frame meets no
other unit (R156, log 30). That a JOINED frame still on the line in CHECK in WRAP mode does meet a collision is the
model's choice (log 46). -/
def State.collide (s : State) : State :=
  match s.line.sending with
  | none => s
  | some f => if f.looped = [] then s.enterResync else s

/-! ### Receiving (R141, R144, R146, R148) -/

/-- A valid frame from another unit is judged by this unit's clock (R146): aligned frames set the clock again, the
third misaligned one in a row leads to RESYNC. -/
def State.judgeFrame (s : State) (beganIn : UnitId) (f : ReceivedFrame) : State :=
  if beganIn = f.sender then
    s.setLine { s.line with misaligned := 0, slot := f.sender, cycle := f.cycle, aligned := true }
  else if 3 ≤ s.line.misaligned + 1 then s.enterResync
  else s.setLine { s.line with misaligned := s.line.misaligned + 1 }

/-- A valid frame from another unit is taken: presence (R155), its messages to be applied in order (R152), and the
clock (R144, R146). -/
def State.takeFrame (s : State) (beganIn : UnitId) (f : ReceivedFrame) : State :=
  let t := s.refreshPresence f.sender f.cycle
  let u := t.setLine { t.line with inbox := t.line.inbox ++ f.messages.map (fun m => (f.sender, m)) }
  match u.line.membership with
  | .listen =>
    u.setLine { u.line with slot := f.sender, cycle := f.cycle, aligned := true, silenceTimer := false, joining := true }
  | .joined | .check => u.judgeFrame beganIn f
  | .resync | .silent => u

/-- FRAME_RECEIVED (R141): an invalid frame is counted; one with this unit's own id is a duplicate id (R148). A looped frame
is taken by FRAME_COMPLETE (log 53). -/
def State.frameReceived (s : State) (beganIn : UnitId) (bytes : List Byte) : State :=
  if s.line.hears then
    match frameOfBytes bytes with
    | none => s.setLine { s.line with framingErrors := saturate 255 (s.line.framingErrors + 1) }
    | some f => if f.sender = s.cfg.unitId then s.enterSilent.notify .duplicateId else s.takeFrame beganIn f
  else s

/-- SILENCE_TIMER_EXPIRY (R144): the controller self-starts in its own slot of cycle 0. -/
def State.silenceExpiry (s : State) : State :=
  if s.line.silenceTimer then
    ((s.setLine { s.line with slot := s.cfg.unitId, cycle := 0, aligned := true, silenceTimer := false }).enterMembership
      .joined).ownSlot
  else s

/-! ### Messages (R152 to R154, R158) -/

/-- Whether SIGHTING and DENY messages are applied (R152). -/
def Line.applies (l : Line) : Bool := l.hears

/-- Whether a CHECK message from `sender` is applied (R152, R156): in JOINED and CHECK, in WRAP mode only this unit's
own, looped back. -/
def State.appliesCheck (s : State) (sender : UnitId) : Bool :=
  match s.line.membership with
  | .joined => true
  | .check => s.line.mode == some .line || sender == s.cfg.unitId
  | .silent | .listen | .resync => false

/-- The inbox without its first message. -/
def State.popInbox (s : State) : State := s.setLine { s.line with inbox := s.line.inbox.tail }

/-- A conflicting SIGHTING (R153): the CLONE entry, then the add of this unit's own with its DENY message. -/
def State.sightingConflict (s : State) (x : Serial) (counter : Nat) (balance : Word) (u : UnitId) (e : Sighting) :
    State :=
  let body : EntryBody := .clone x counter balance u e.unitId (e.unitId != u) (e.balance != balance)
  ((s.requestEntry (s.freeDraft none body)).addOwnDeny x .clone).2

/-- A received SIGHTING is applied to the Sightings Table (R153). -/
def State.applySighting (s : State) (x : Serial) (counter : Nat) (balance : Word) (u : UnitId) : State :=
  if x = 0 then s
  else
    match s.lookSighting x s.clock with
    | (none, t) => t.setSighting x counter balance u .neighbor
    | (some e, t) =>
      if e.counter < counter then t.setSighting x counter balance u .neighbor
      else if e.counter = counter ∧ (e.unitId ≠ u ∨ e.balance ≠ balance) then
        t.sightingConflict x counter balance u e
      else t

/-- A received DENY (R154). -/
def State.applyDeny (s : State) (x : Serial) (reason : DenyReason) (origin : UnitId) : State :=
  if x = 0 then s else (s.addDeny x .neighbor reason origin).2

/-- The position and the two bytes of the first difference between the expected and received patterns (R158). -/
def firstDifference (expected received : Vector Byte 8) : Option (Nat × Byte × Byte) :=
  match (List.range 8).find? (fun i => expected.toList.getD i 0 != received.toList.getD i 0) with
  | some i => some (i, expected.toList.getD i 0, received.toList.getD i 0)
  | none => none

/-- A message compared (R158): Checked rises, a difference raises Mismatches, and the first one is kept. -/
def CheckResult.compare (e : CheckResult) (index : Nat) (received : Vector Byte 8) : CheckResult :=
  let f := { e with checked := saturate 65535 (e.checked + 1) }
  match firstDifference (patternOf index) received with
  | none => f
  | some (i, x, y) =>
    { f with mismatches := saturate 255 (f.mismatches + 1), first := some (f.first.getD ⟨index, i, x, y⟩) }

/-- A CHECK message with Index `j` acts on its sender's entry (R158). -/
def CheckResult.take (e : CheckResult) (j : Nat) (received : Vector Byte 8) : CheckResult :=
  if j = 0 then { e with synced := false, lastIndex := some 0 }
  else
    let last := e.lastIndex.getD 0
    if e.synced then
      if last < j then
        { e with missing := saturate 255 (e.missing + (j - last - 1)), lastIndex := some j }.compare j received
      else { e with synced := false, lastIndex := some j }
    else if e.lastIndex.isSome ∧ j = last + 1 then
      { e with synced := true, lastIndex := some j }.compare j received
    else { e with lastIndex := some j }

/-- SIGHTING_MESSAGE (R152, R153). -/
def State.sightingMessage (s : State) : State :=
  match s.line.inbox with
  | (_, .sighting x counter balance u) :: _ =>
    if s.line.applies then s.popInbox.applySighting x counter balance u else s.popInbox
  | _ => s

/-- DENY_MESSAGE (R152, R154). -/
def State.denyMessage (s : State) : State :=
  match s.line.inbox with
  | (_, .deny x reason origin) :: _ => if s.line.applies then s.popInbox.applyDeny x reason origin else s.popInbox
  | _ => s

/-- CHECK_MESSAGE (R152, R158). -/
def State.checkMessage (s : State) : State :=
  match s.line.inbox with
  | (sender, .check j received) :: _ =>
    let t := s.popInbox
    if s.appliesCheck sender then
      t.setLine { t.line with results := t.line.results.set sender.val (t.line.results[sender.val].take j received) }
    else t
  | _ => s

/-! ### Commands -/

/-- LINE_RESTART (R149). -/
def State.commandLineRestart (s : State) (k : SlotId) : State :=
  let t := s.enterSilent
  let u := t.setLine { t.line with queue := [] }
  u.listenIfEnabled.complete k .done

/-- The mode that an argument names (12.4). -/
def checkModeOf (w : Word) : Option CheckMode :=
  if w.toNat = 1 then some .line else if w.toNat = 2 then some .wrap else none

/-- The ON or OFF that an argument names (12.4). -/
def onOffOf (w : Word) : Option Bool :=
  if w.toNat = 1 then some true else if w.toNat = 2 then some false else none

/-- LINE_CHECK_START (R156). -/
def State.commandLineCheckStart (s : State) (k : SlotId) (r : CommandRecord) : State :=
  match checkModeOf r.arg3, onOffOf r.arg4 with
  | none, _ | _, none => s.complete k .badArgument
  | some mode, some injection =>
    if s.line.membership = .joined then
      ((s.setLine { s.line with
        results := Vector.replicate 16 CheckResult.cleared, sendIndex := 0, generator := generatorSeed,
        mode := some mode, injection := injection }).enterMembership .check).complete k .done
    else s.complete k .refusedState

/-- LINE_CHECK_STOP (R156). That a CHECK frame on the line at the stop of a LINE check goes on is the model's choice
(log 45). -/
def State.commandLineCheckStop (s : State) (k : SlotId) : State :=
  if s.line.membership = .check then
    if s.line.mode = some .wrap then s.enterListen.complete k .done
    else ((s.setLine { s.line with mode := none }).enterMembership .joined).complete k .done
  else s.complete k .refusedState

end Sys2Proof.Machine
end

