-- ==== Sys2Proof/Machine/Fares.lean ====
section
/-! DEFINITION. The Fare Unit (04): the direction checks of an entry and an exit (R39, R40), the entry and the exit
computation, and SET_OVERRIDE. -/

namespace Sys2Proof.Machine

/-! ### What the Fare Set gives (R42, 12.7) -/

/-- The Kinds of a product row. -/
inductive ProductKind where
  | stored
  | pass
  | unused
deriving DecidableEq, Repr

/-- A row of the Product Table (R42). -/
structure ProductRow where
  kind   : ProductKind
  factor : Nat
  cap    : Nat
  floor  : Nat
deriving DecidableEq, Repr

/-- A row from its two words (12.7). A Kind of none of the three values cannot stand in a validated bank; it is taken as
STORED (log 38). -/
def productRow (w0 w1 : Word) : ProductRow :=
  { kind := if bits w0 0 8 = 2 then .pass else if bits w0 0 8 = 3 then .unused else .stored
    factor := bits w0 16 16, cap := bits w1 0 16, floor := bits w1 16 16 }

/-- The bank offsets of the row of a Product Class (12.7). -/
def productOffsets (productClass : Nat) : List Nat := [612 + 8 * productClass, 616 + 8 * productClass]

/-- The bank offset of the word that holds a Fare Matrix entry (12.7). -/
def matrixOffset (ze zx : Nat) : Nat := 64 + 2 * (16 * ze + zx) / 4 * 4

/-- The Fare Matrix entry in the word read for it: two entries a word, the even exit zone in the low half (12.7). -/
def matrixEntry (zx : Nat) (w : Word) : Nat := bits w (16 * (zx % 2)) 16

/-- The bank offsets of the first `count` band entries (12.7). -/
def bandOffsets (count : Nat) : List Nat := wordRun 580 (min 8 count)

/-- The band factor of an entry minute from the first Band Count entries (R65): the last whose Start Minute is at most
it, or the last of all when there is none. -/
def bandFactor (bands : List Word) (minute : Nat) : Nat :=
  match (bands.reverse.find? (fun w => decide (bits w 0 16 ≤ minute))), bands.getLast? with
  | some w, _ => bits w 16 16
  | none, some w => bits w 16 16
  | none, none => 0

/-! ### Times -/

/-- Minutes from a card's time to now: days in minutes and whole minutes of each day (R39, R60, R63). -/
def minutesSince (day second : Nat) (now : ServiceTime) : Int :=
  ((now.day : Int) - day) * 1440 + (now.second / 60 : Nat) - (second / 60 : Nat)

/-- Seconds from a card's time to now (R39, R40). -/
def secondsSince (day second : Nat) (now : ServiceTime) : Int := (now.absolute : Int) - (day * 86400 + second : Nat)

/-- The journey age (R39). -/
def journeyAge (img : Image) (now : ServiceTime) : Int := minutesSince (cardEntryDay img) (cardEntrySecond img) now

/-- Whether the open journey is neither later than now nor older than the maximum journey (R39, R60, R63). -/
def journeyCurrent (cfg : Configuration) (img : Image) (now : ServiceTime) : Bool :=
  decide (0 ≤ journeyAge img now ∧ journeyAge img now ≤ cfg.maximumJourney)

/-- Whether a card's time lies within the repeat window before now (R39, R40). -/
def withinRepeat (cfg : Configuration) (day second : Nat) (now : ServiceTime) : Bool :=
  decide (0 ≤ secondsSince day second now ∧ secondsSince day second now ≤ cfg.repeatWindow)

/-! ### Direction checks -/

/-- REPEAT and PASSBACK on an ENTRY lane (R39). -/
def entryCheck (cfg : Configuration) (img : Image) (now : ServiceTime) : Option Decision :=
  if cardInside img then
    if cardEntryStation img = cfg.station ∧ withinRepeat cfg (cardEntryDay img) (cardEntrySecond img) now then
      some .repeated
    else if journeyCurrent cfg img now then some .passback
    else none
  else none

/-- REPEAT on an EXIT lane (R40). -/
def exitCheck (cfg : Configuration) (img : Image) (now : ServiceTime) : Option Decision :=
  if cardInside img = false ∧ cardLastExitStation img ≠ 0 ∧ cardLastExitStation img = cfg.station
      ∧ withinRepeat cfg (cardLastExitDay img) (cardLastExitSecond img) now then some .repeated
  else none

/-! ### Passes (R59) -/

/-- Whether a zone lies in the card's pass range. -/
def inPass (img : Image) (zone : Nat) : Bool := decide (cardPassLow img ≤ zone ∧ zone ≤ cardPassHigh img)

/-- A pass valid on entry (R59). -/
def validOnEntry (cfg : Configuration) (img : Image) (now : ServiceTime) (row : ProductRow) : Bool :=
  row.kind == .pass && decide (now.day ≤ cardPassExpiry img) && inPass img cfg.zone

/-- A pass valid on exit (R59). -/
def validOnExit (cfg : Configuration) (img : Image) (now : ServiceTime) (row : ProductRow) : Bool :=
  row.kind == .pass && decide (now.day ≤ cardPassExpiry img) && inPass img (cardEntryZone img) && inPass img cfg.zone

/-! ### The entry computation -/

/-- The fare of an entry (R60): the penalty for a stale journey, otherwise 0. -/
def entryFare (cfg : Configuration) (img : Image) (now : ServiceTime) : Nat :=
  if cardInside img && !journeyCurrent cfg img now then cfg.penaltyFare else 0

/-- Whether an entry is linked (R60). -/
def entryLinked (cfg : Configuration) (img : Image) (now : ServiceTime) : Bool :=
  let gap := minutesSince (cardLastExitDay img) (cardLastExitSecond img) now
  cardLastExitStation img != 0 && decide (0 ≤ gap ∧ gap ≤ cfg.transferWindow)
    && decide (cardTransferCount img < cfg.maximumTransfers)

/-- The entry computation (R60 to R62). -/
def entryComputation (cfg : Configuration) (img : Image) (now : ServiceTime) (row : ProductRow) : FareResult :=
  let fare := entryFare cfg img now
  let linked := entryLinked cfg img now
  let valid := validOnEntry cfg img now row
  let balance : Int := cardBalance img - fare
  let passed : Bool := if valid then decide (-(cfg.overdraftLimit : Int) ≤ balance) else decide ((row.floor : Int) ≤ balance)
  { fare := fare
    flags := { penalty := cardInside img && !journeyCurrent cfg img now, override := false, pass := valid,
               linked := linked, capped := false, negative := passed && decide (balance < 0) }
    passed := passed
    writeBack := { balance := balance, daySpent := cardDaySpent img, spendDay := cardSpendDay img,
                   transferCount := if linked then cardTransferCount img + 1 else 0, inside := true, linked := linked,
                   stamp := .entry now cfg.station cfg.zone } }

/-! ### The exit computation -/

/-- The exact product rounded to the rounding unit, half up (R69). -/
def roundFare (u q : Nat) : Nat := u * ((q + 500000 * u) / (1000000 * u))

/-- The product factor (R68). -/
def productFactor (row : ProductRow) (validPass : Bool) : Nat :=
  if validPass then 0 else if row.kind = .pass then 1000 else row.factor

/-- The day's spending so far (R72). -/
def spentToday (img : Image) (now : ServiceTime) : Nat := if cardSpendDay img = now.day then cardDaySpent img else 0

/-- The fare held to the ceiling (R69, R70). -/
def scaledFare (cfg : Configuration) (base band product : Nat) : Nat :=
  min (roundFare cfg.roundingUnit (base * band * product)) cfg.fareCeiling

/-- The fare after the transfer discount (R71). -/
def discountedFare (cfg : Configuration) (img : Image) (fare1 : Nat) : Nat :=
  if cardLinked img then fare1 - cfg.transferDiscount else fare1

/-- The fare after the daily cap (R72). -/
def cappedFare (row : ProductRow) (spent fare2 : Nat) : Nat := if 0 < row.cap then min fare2 (row.cap - spent) else fare2

/-- The money test and the result of an exit (R73, R74). -/
def exitResult (cfg : Configuration) (img : Image) (now : ServiceTime) (fare : Nat) (flags : FareFlags)
    (daySpent spendDay : Nat) : FareResult :=
  let balance : Int := cardBalance img - fare
  let passed : Bool := decide (-(cfg.overdraftLimit : Int) ≤ balance)
  { fare := fare
    flags := { flags with negative := passed && decide (balance < 0) }
    passed := passed
    writeBack := { balance := balance, daySpent := daySpent, spendDay := spendDay, transferCount := cardTransferCount img,
                   inside := false, linked := false, stamp := .exit now cfg.station } }

/-- Whether the card shows a valid entry (R63). -/
def validEntryShown (cfg : Configuration) (img : Image) (now : ServiceTime) : Bool :=
  cardInside img && journeyCurrent cfg img now

/-- The exit computation of a card without a valid entry (R63, R73, R74). -/
def penaltyExit (cfg : Configuration) (img : Image) (now : ServiceTime) : FareResult :=
  exitResult cfg img now cfg.penaltyFare { FareFlags.none with penalty := true } (cardDaySpent img) (cardSpendDay img)

/-- The exit computation of a card with a valid entry (R64 to R74), from the base fare and the band factor, or the
override's factor in its place. -/
def fareExit (cfg : Configuration) (img : Image) (now : ServiceTime) (row : ProductRow) (base band : Nat)
    (overridden : Bool) : FareResult :=
  let validPass := validOnExit cfg img now row
  let fare2 := discountedFare cfg img (scaledFare cfg base band (productFactor row validPass))
  let spent := spentToday img now
  let fare3 := cappedFare row spent fare2
  exitResult cfg img now fare3
    { penalty := false, override := overridden, pass := validPass, linked := cardLinked img,
      capped := decide (fare3 < fare2), negative := false }
    (saturate 65535 (spent + fare3)) now.day

/-! ### The reads of the Fare Unit (R58) -/

/-- The band factor, or the override's, with the OVERRIDE flag (R65, R66); none when a word is uncorrectable. -/
def State.bandReads (s : State) (x : BankId) (img : Image) : Reads (Option (Nat × Bool)) :=
  if s.fareUnit.overrideOn then .done (some (s.fareUnit.factor, true))
  else
    (s.bankReads x [576]).bind (fun words =>
      match words with
      | some [count] =>
        (s.bankReads x (bandOffsets count.toNat)).bind (fun words =>
          .done (words.map (fun bands => (bandFactor bands (cardEntrySecond img / 60), false))))
      | _ => .done none)

/-- The exit computation with its reads (R63 to R74). -/
def State.exitReads (s : State) (x : BankId) (img : Image) (now : ServiceTime) (row : ProductRow) :
    Reads (Option FareResult) :=
  if validEntryShown s.cfg img now then
    (s.bankReads x [matrixOffset (cardEntryZone img) s.cfg.zone]).bind (fun words =>
      match words with
      | some [w] =>
        (s.bandReads x img).bind (fun band =>
          .done (band.map (fun b => fareExit s.cfg img now row (matrixEntry s.cfg.zone w) b.1 b.2)))
      | _ => .done none)
  else .done (some (penaltyExit s.cfg img now))

/-- The Fare Unit's computation for a direction with its reads of the pinned bank `x`, the product row first (R56, R58): its
result, or none when a read met an uncorrectable word. -/
def State.fareReads (s : State) (x : BankId) (img : Image) (now : ServiceTime) (d : Direction) :
    Reads (Option FareResult) :=
  (s.bankReads x (productOffsets (cardProduct img))).bind (fun words =>
    match words, d with
    | some [w0, w1], .entry => .done (some (entryComputation s.cfg img now (productRow w0 w1)))
    | some [w0, w1], .exit => s.exitReads x img now (productRow w0 w1)
    | _, _ => .done none)

/-! ### SET_OVERRIDE -/

/-- SET_OVERRIDE (R67). -/
def State.commandSetOverride (s : State) (k : SlotId) (r : CommandRecord) : State :=
  match onOffOf r.arg3 with
  | none => s.complete k .badArgument
  | some false => ({ s with fareUnit := { s.fareUnit with overrideOn := false } }).complete k .done
  | some true =>
    if r.arg4.toNat ≤ 2000 then
      ({ s with fareUnit := { overrideOn := true, factor := r.arg4.toNat } }).complete k .done
    else s.complete k .badArgument

end Sys2Proof.Machine
end

