-- ==== Sys2Proof/Machine/Lanes.lean ====
section
/-! DEFINITION. The Lane Controllers (05) with the Landing Monitors (R8 to R11) and the commit (R102 to R104): arrivals,
Verdict Records, decisions, results, recovery and LANE_RESET. -/

namespace Sys2Proof.Machine

/-! ### Verdict Records (R81, R82) -/

/-- The DEGRADED test (R28). -/
def State.degradedNow (s : State) : Bool := s.line.membership != .joined || s.banks.fallback

/-- The Verdict Number after `v`; 0 is never taken (R81). -/
def nextVerdictNumber (v : Nat) : Nat := if v = 4294967295 then 1 else v + 1

/-- The order in which a record's words are written: the Verdict Number word last (R82). That words 1 to 7 go in ascending
order is the model's choice (log 51). -/
def recordOrder : List (Fin 8) := [1, 2, 3, 4, 5, 6, 7, 0]

/-- A Verdict Record is begun: it takes its number (log 16). The record's own number field is set here. -/
def State.beginRecord (s : State) (v : VerdictRecord) (next : AfterRecord) : State :=
  let number := nextVerdictNumber s.verdictCount
  let job : RecordJob := ⟨v.lane, number, { v with number := number }.words, 0, next⟩
  let t := { s with verdictCount := number }
  t.setStatus { t.status with records := t.status.records ++ [job] }

/-- The record of lane `n` being written, the oldest first. -/
def State.recordOf (s : State) (n : Lane) : Option RecordJob := s.status.records.find? (fun j => j.lane == n)

/-- Whether lane `n`'s run has been handed over and its Verdict Record is not yet complete (R98). -/
def State.handedOver (s : State) (n : Lane) : Bool :=
  s.status.records.any (fun j => j.lane == n && (j.next == .decided || j.next == .idle))

/-- Whether the REFUSAL entry of lane `n`'s run is being appended (R27). It is an append of the Screening Engine's, so that
the lane is not appending in the sense of R80. -/
def State.refusing (s : State) (n : Lane) : Bool := s.screening.run.any (fun r => r.lane == n && r.stage == .refusing)

/-- The addresses and words of a record that are not written yet, the Verdict Number word last (R82). -/
def State.recordCells (s : State) (j : RecordJob) : List (Nat × Word) :=
  (recordOrder.drop j.written).map (fun i => (s.laneAddress j.lane (256 + 4 * i.val), j.words[i.val]))

/-- A record without the image's fields, for lane `n` in RECOVERY, with the service time of its arrival (R82). -/
def State.recoveryRecord (s : State) (n : Lane) (d : Decision) : VerdictRecord :=
  { number := 0, lane := n, reissues := (s.lane n).reissues, decision := d, flags := FareFlags.none,
    degraded := s.degradedNow, recovery := false, fare := 0, serial := none, counter := none, balance := none,
    time := (s.lane n).arrival.bind (·.time) }

/-- A record with the Serial, Counter and Balance of an image (R82). -/
def VerdictRecord.withImage (v : VerdictRecord) (img : Image) : VerdictRecord :=
  { v with serial := some (cardSerial img), counter := some (cardCounter img), balance := some img[4] }

/-! ### Changes of lane state -/

/-- Lane `n` returns to IDLE (R79, R8, R46). The Verdict Number and the waiting commands are kept. -/
def State.returnToIdle (s : State) (n : Lane) : State :=
  let t := (s.giveBack n).releasePin n
  t.setLane n { t.lane n with
    state := .idle, landed := none, composed := none, verdict := none, pendingSeq := none, reissues := 0,
    timer := .stopped, resetRequested := false, mask := 0, arrival := none, appending := false, comparing := false,
    got := [], resetSlot := none }

/-- Lane `n` joins the Screening Queue at the tail (R17). -/
def State.joinScreening (s : State) (n : Lane) : State :=
  s.setScreening { s.screening with queue := s.screening.queue ++ [n] }

/-- Lane `n` enters DECIDED and its decision hold starts (R76). -/
def State.enterDecided (s : State) (n : Lane) : State :=
  s.setLane n { s.lane n with state := .decided, timer := .decisionHold, comparing := false }

/-- Lane `n` enters RELEASED and its write timeout starts (R84). -/
def State.enterReleased (s : State) (n : Lane) : State :=
  s.setLane n { s.lane n with state := .released, timer := .writeTimeout }

/-- Lane `n` enters RECOVERY from RELEASED (R91, R8). -/
def State.enterRecovery (s : State) (n : Lane) : State :=
  s.setLane n { s.lane n with state := .recovery, timer := .recoveryWindow, mask := 0 }

/-! ### Transaction entries (R108) -/

/-- The fare of the lane's Verdict. -/
def LaneContext.fare (l : LaneContext) : Nat := (l.verdict.map (·.fare)).getD 0

/-- A card image of zeros, for a lane that holds none: no rule reads a lane's image then. -/
def blankImage : Image := Vector.replicate 16 0

/-- The Landed Image of a lane. -/
def LaneContext.image (l : LaneContext) : Image := l.landed.getD blankImage

/-- The Balance After of the charged values: landed Balance minus the fare (R108). -/
def LaneContext.chargedBalance (l : LaneContext) : Word := BitVec.ofInt 32 (cardBalance l.image - l.fare)

/-- A transaction entry of lane `n` with the charged values (R108). -/
def State.chargedDraft (s : State) (n : Lane) (kind : TransactionKind) (reference : Option Nat) : EntryDraft :=
  let l := s.lane n
  { lane := some n, time := s.clock, flags := (l.verdict.map (·.flags)).getD FareFlags.none,
    degraded := (l.verdict.map (·.degraded)).getD false,
    body := .transaction kind (cardSerial l.image) (cardCounter l.image + 1) l.fare l.chargedBalance reference,
    reserved := some n }

/-- A transaction entry of lane `n` with the landed Counter and Balance (R108). -/
def State.landedDraft (s : State) (n : Lane) (kind : TransactionKind) (reference : Option Nat) : EntryDraft :=
  let l := s.lane n
  { s.chargedDraft n kind reference with
    body := .transaction kind (cardSerial l.image) (cardCounter l.image) l.fare l.image[4] reference }

/-- A transaction append is requested for lane `n`, which is appending from now (R80). -/
def State.requestAppend (s : State) (n : Lane) (d : EntryDraft) (next : AfterAppend) : State :=
  (s.setLane n { s.lane n with appending := true }).request (.append d next)

/-- Withdrawing a verdict held in DECIDED (R85, R86, R98): the first kind for a first verdict, the second, which
resolves the Pending Sequence, for a re-issue. The lane then returns to IDLE. -/
def State.withdraw (s : State) (n : Lane) (first reissue : TransactionKind) (k : Option SlotId) : State :=
  match (s.lane n).pendingSeq with
  | none => s.requestAppend n (s.landedDraft n first none) (.toIdle n k)
  | some q => s.requestAppend n (s.landedDraft n reissue (some q)) (.toIdle n k)

/-- The resolution UNCERTAIN of lane `n` (R96 to R98). -/
def State.resolveUncertain (s : State) (n : Lane) (kind : TransactionKind) (next : AfterAppend) : State :=
  s.requestAppend n (s.chargedDraft n kind (s.lane n).pendingSeq) next

/-! ### The commit (R89, R102 to R104) -/

/-- Whether the sightings lookup of a commit meets a conflict (R102). -/
def commitConflict (landedCounter : Nat) : Option Sighting → Bool
  | none => false
  | some e => decide (landedCounter + 1 ≤ e.counter)

/-- The commit of lane `n` (R89): the sightings lookup and set (R102), the COMMIT append, the deny add of a conflict
(R103), and the SIGHTING message (R104). The credit and the return to IDLE follow the append. -/
def State.commit (s : State) (n : Lane) (recovered : Bool) : State :=
  let l := s.lane n
  let x := cardSerial l.image
  let counter := cardCounter l.image
  let look := s.lookSighting x s.clock
  let conflict := commitConflict counter look.1
  let t := if conflict then look.2 else look.2.setSighting x (counter + 1) l.chargedBalance s.cfg.unitId .own
  let u := t.setLane n { t.lane n with timer := .stopped }
  let v := u.requestAppend n (u.chargedDraft n (.commit conflict recovered) l.pendingSeq) (.credit n s.clock)
  let w := if conflict then (v.addOwnDeny x .clone).2 else v
  w.transmit (.sighting x (counter + 1) l.chargedBalance)

/-! ### Arrivals (R9 to R11, R77) -/

/-- The Reader Status of a tap word; a value that is none of the three is READ_ERROR (R9). -/
def readerStatusOf (w : Word) : ReaderStatus :=
  match bits w 0 8 with
  | 1 => .good
  | 2 => .collision
  | _ => .readError

/-- The refusal of a landing by its Reader Status and mask, if they refuse it (R11, R21). -/
def Arrival.refusal (a : Arrival) : Option Decision :=
  match a.status, a.complete with
  | .collision, _ => some .multipleCards
  | .readError, _ => some (.unreadable .status)
  | .good, false => some (.unreadable .mask)
  | .good, true => none

/-- An arrival at lane `n` (R10): a transaction begins at an IDLE lane (R77); in RECOVERY the recovery comparison
starts (R92), or the landing is answered with a refusal and its mask is cleared, so that the reader may land again (R11,
R8, log 17). -/
def State.arrive (s : State) (n : Lane) (tap : Word) : State :=
  let a : Arrival := ⟨readerStatusOf tap, (s.lane n).mask == BitVec.allOnes 16, s.clock⟩
  match (s.lane n).state with
  | .idle =>
    let t := s.takePin n
    (t.setLane n { t.lane n with
      state := .screening, reservation := 0, reissues := 0, resetRequested := false, arrival := some a }).joinScreening n
  | .recovery =>
    match a.refusal with
    | none => s.setLane n { s.lane n with arrival := some a, comparing := true, got := [] }
    | some d =>
      let t := s.setLane n { s.lane n with arrival := some a, mask := 0 }
      t.beginRecord (t.recoveryRecord n d) .answeredInRecovery
  | .screening | .decided | .released => s

/-! ### Results and timers -/

/-- The result word of lane `n` in RELEASED (R88). -/
def State.takeResult (s : State) (n : Lane) (w : Word) : State :=
  match bits w 0 8 with
  | 1 => s.commit n false
  | 2 =>
    let t := s.setLane n { s.lane n with timer := .stopped }
    t.requestAppend n (t.landedDraft n .notCharged (t.lane n).pendingSeq) (.toIdle n none)
  | _ => s.enterRecovery n

/-- DECISION_HOLD_EXPIRY (R86), of a decision hold that runs and is not held by an append (R80). -/
def State.decisionExpiry (s : State) (n : Lane) : State :=
  let l := s.lane n
  if l.state = .decided ∧ l.timer = .decisionHold ∧ l.appending = false then
    s.withdraw n .expired .notChargedExpired none
  else s

/-- WRITE_TIMEOUT_EXPIRY (R90), of a write timeout that runs and is not held by an append (R80). -/
def State.writeExpiry (s : State) (n : Lane) : State :=
  let l := s.lane n
  if l.state = .released ∧ l.timer = .writeTimeout ∧ l.appending = false then s.enterRecovery n else s

/-- RECOVERY_WINDOW_EXPIRY (R97), of a recovery window that runs and is held neither by an append (R80) nor by the
comparison (R92). -/
def State.windowExpiry (s : State) (n : Lane) : State :=
  let l := s.lane n
  if l.state = .recovery ∧ l.timer = .recoveryWindow ∧ l.appending = false ∧ l.comparing = false then
    s.resolveUncertain n .uncertainWindow (.toIdle n none)
  else s

/-! ### Commands of a lane (R80, R83 to R85, R98) -/

/-- The command in slot `k` waits for lane `n` (R80, R92, R98). -/
def State.waitForLane (s : State) (n : Lane) (k : SlotId) : State :=
  s.setLane n { s.lane n with waiting := (s.lane n).waiting ++ [k] }

/-- The checks of PROCEED and CANCEL at a named lane after the first (R83): the outcome of the first that fails. -/
def LaneContext.decisionCheck (l : LaneContext) (number : Nat) : Option CommandOutcome :=
  if number = 0 then some .badArgument
  else if number ≠ l.verdictNumber then some .badSequence
  else if l.state ≠ .decided then some .refusedState
  else none

/-- PROCEED (R83, R84). -/
def State.commandProceed (s : State) (k : SlotId) (r : CommandRecord) : State :=
  match s.namedLane r.target with
  | none => s.complete k .badArgument
  | some n =>
    let l := s.lane n
    if l.appending then s.waitForLane n k
    else
      match l.decisionCheck r.arg3.toNat, l.pendingSeq with
      | some outcome, _ => s.complete k outcome
      | none, none => s.requestAppend n (s.chargedDraft n .pending none) (.release n k)
      | none, some _ => (s.enterReleased n).complete k .done

/-- CANCEL (R83, R85). -/
def State.commandCancel (s : State) (k : SlotId) (r : CommandRecord) : State :=
  match s.namedLane r.target with
  | none => s.complete k .badArgument
  | some n =>
    let l := s.lane n
    if l.appending then s.waitForLane n k
    else
      match l.decisionCheck r.arg3.toNat with
      | some outcome => s.complete k outcome
      | none => s.withdraw n .cancelled .notChargedCancelled (some k)

/-- LANE_RESET (R98). That it waits while the REFUSAL entry of the lane's run is being appended is DEDUCED (log 15). -/
def State.commandLaneReset (s : State) (k : SlotId) (r : CommandRecord) : State :=
  match s.namedLane r.target with
  | none => s.complete k .badArgument
  | some n =>
    let l := s.lane n
    if l.appending || l.comparing || s.handedOver n || s.refusing n then s.waitForLane n k
    else
      match l.state with
      | .idle => s.complete k .done .idle
      | .screening =>
        if l.resetRequested then s.complete k .busy
        else s.setLane n { l with resetRequested := true, resetSlot := some k }
      | .decided => s.withdraw n .cancelledReset .notChargedReset (some k)
      | .released | .recovery => s.resolveUncertain n .uncertainReset (.toIdle n (some k))

/-- A waiting command of a lane is taken (R80). -/
def State.laneCommand (s : State) (k : SlotId) : State :=
  match (s.slot k).command with
  | none => s
  | some r =>
    match CommandCode.ofWord r.code with
    | some .proceed => s.commandProceed k r
    | some .cancel => s.commandCancel k r
    | some .laneReset => s.commandLaneReset k r
    | _ => s

/-- The commands that wait for lane `n` are taken in order, each against the state the one before left; while the lane
keeps them waiting they go on waiting (R80, log 39). -/
def State.drainLane (s : State) (n : Lane) : State :=
  (s.lane n).waiting.foldl State.laneCommand (s.setLane n { s.lane n with waiting := [] })

/-! ### The end of a Verdict Record (R78) -/

/-- What a complete Verdict Record brings its lane (R78, R11, R92, R94, R96). That a comparison answered LANE_RECOVERING or
UNREADABLE with reason MEMORY clears the mask here, when its record is whole, and not at its outcome, is the model's choice
(DESIGN CHOICE, log 58). -/
def State.afterRecord (s : State) (n : Lane) (next : AfterRecord) : State :=
  match next with
  | .decided | .reissued => s.enterDecided n
  | .idle => s.returnToIdle n
  | .answeredInRecovery => s
  | .staysInRecovery => s.setLane n { s.lane n with comparing := false, mask := 0 }

/-- A Verdict Record is complete (R78, R81, R82): its number becomes the lane's, the VERDICT notice is set, the lane
moves, and what waited for it is taken. -/
def State.finishRecord (s : State) (j : RecordJob) : State :=
  let t := s.setStatus { s.status with records := s.status.records.eraseP (fun i => i.lane == j.lane) }
  let u := (t.setLane j.lane { t.lane j.lane with verdictNumber := j.number }).notify (.verdict j.lane)
  (u.afterRecord j.lane j.next).drainLane j.lane

/-- One word operation of the oldest record of lane `n` (R82): its next word is written, and with the last it is complete
(R78). -/
def State.recordOperation (s : State) (n : Lane) : State :=
  match s.recordOf n with
  | none => s
  | some j =>
    match s.recordCells j with
    | [] => s.finishRecord j
    | (a, w) :: rest =>
      let t := s.writeWord a w
      if rest.isEmpty then t.finishRecord j
      else
        let advanced : List RecordJob := t.status.records.eraseP (fun x => x.lane == n)
        t.setStatus { t.status with records := { j with written := j.written + 1 } :: advanced }

/-! ### Recovery (R92 to R96) -/

/-- Whether the outcome of lane `n`'s recovery comparison is still to be taken (log 18). -/
def State.comparisonDue (s : State) (n : Lane) : Bool :=
  (s.lane n).comparing && !(s.lane n).appending
    && !s.status.records.any (fun j => j.lane == n && j.next != .answeredInRecovery)

/-- The recovered commit (R93). -/
def State.recoveredCommit (s : State) (n : Lane) : State :=
  (s.setLane n { s.lane n with comparing := false }).commit n true

/-- The re-issue (R94). -/
def State.reissue (s : State) (n : Lane) : State :=
  let l := s.lane n
  let t := s.setLane n { l with
    reissues := l.reissues + 1, verdict := l.verdict.map (fun v => { v with degraded := s.degradedNow }) }
  t.beginRecord
    { t.recoveryRecord n .accept with
      flags := (l.verdict.map (·.flags)).getD FareFlags.none, recovery := true, fare := l.fare,
      serial := some (cardSerial l.image), counter := some (cardCounter l.image),
      balance := some (l.composed.getD blankImage)[4] }
    .reissued

/-- The re-issues are spent (R95). -/
def State.spendReissues (s : State) (n : Lane) : State :=
  let t := s.setLane n { s.lane n with comparing := false, timer := .stopped }
  t.requestAppend n (t.landedDraft n .notChargedReissuesSpent (t.lane n).pendingSeq) (.rescreen n)

/-- The outcome of the comparison with a landing that was read (R92). -/
def State.compareLanding (s : State) (n : Lane) (landing : Image) : State :=
  let l := s.lane n
  if l.composed = some landing then s.recoveredCommit n
  else if l.landed = some landing then
    if l.reissues < s.cfg.maximumReissues then s.reissue n else s.spendReissues n
  else if cardSerial landing = cardSerial l.image then s.resolveUncertain n .uncertain (.inconsistent n landing)
  else s.beginRecord ((s.recoveryRecord n .laneRecovering).withImage landing) .staysInRecovery

/-- The reads of the sixteen words of lane `n`'s landing image (R21, R92): the image, or none when a word is uncorrectable. -/
def State.landingReads (s : State) (reader : Block) (n : Lane) : Reads (Option Image) :=
  (Reads.words reader (wordRun (s.laneAddress n 0) 16)).bind (fun words =>
    .done (words.map (fun ws => Vector.ofFn (fun i : Fin 16 => ws.getD i.val 0))))

/-- The outcome of lane `n`'s recovery comparison with the landing that was read, none where a word was uncorrectable
(R92). -/
def State.endComparison (s : State) (n : Lane) (landing : Option Image) : State :=
  let t := s.setLane n { s.lane n with got := [] }
  match landing with
  | some img => (t.compareLanding n img).drainLane n
  | none => t.beginRecord (t.recoveryRecord n (.unreadable .memory)) .staysInRecovery

end Sys2Proof.Machine
end

