-- ==== Sys2Proof/Machine/Screening.lean ====
section
/-! DEFINITION. The Screening Engine (02) and the Composer (R100, R101): the steps of a run from its start to the
hand-over of its verdict. -/

namespace Sys2Proof.Machine

/-! ### The run in progress -/

/-- The run, if one is in progress and stands before the step `x`. -/
def State.runAt (s : State) (x : RunStage) : Option Run :=
  match s.screening.run with
  | some r => if r.stage = x then some r else none
  | none => none

/-- The run changed by a function. -/
def State.changeRun (s : State) (f : Run → Run) : State :=
  s.setScreening { s.screening with run := s.screening.run.map f }

/-- The run goes on to the step `x`. -/
def State.advanceRun (s : State) (x : RunStage) : State := s.changeRun (fun r => { r with stage := x, got := [] })

/-- The run reaches a verdict; the hand-over is its next step (R19). -/
def State.decideRun (s : State) (d : Decision) : State :=
  s.changeRun (fun r => { r with decision := some d, stage := .decided, got := [] })

/-- The run ends: the engine is free with no current lane (R19). -/
def State.endRun (s : State) : State := s.setScreening { s.screening with run := none }

/-- A lane with Reset Requested set discards its run's outcome (R99): it returns to IDLE and the waiting LANE_RESET
completes. -/
def State.discardRun (s : State) (n : Lane) : State :=
  let t := s.returnToIdle n
  match (s.lane n).resetSlot with
  | some k => t.complete k .done .discarded
  | none => t

/-! ### The start of a run (R18) -/

/-- The run of lane `n` as it begins. -/
def Run.start (n : Lane) : Run :=
  { lane := n, stage := .landing, got := [], now := none, decision := none, fare := none, image := none, written := 0,
    bankDamaged := false, degraded := false }

/-- SCREENING_RUN_START (R18): the head lane leaves the queue; a lane whose Reset Requested is set ends at once. -/
def State.startRun (s : State) : State :=
  match s.screening.run, s.screening.queue with
  | none, n :: rest =>
    let t := s.setScreening { s.screening with queue := rest }
    if (s.lane n).resetRequested then t.discardRun n
    else t.setScreening { t.screening with run := some (Run.start n) }
  | _, _ => s

/-! ### Steps 1 and 2 (R21, R22) -/

/-- The unit conditions 2 to 4 (R22): the refusal of the first that fails. -/
def State.unitRefusal (s : State) (n : Lane) : Option Decision :=
  match (s.lane n).pinned with
  | none => some (.unitFault .noBank)
  | some x =>
    if (s.bank x).state = some .damaged then some (.unitFault .bankDamaged)
    else if s.emergency then some .emergency
    else if 3 ≤ (s.gate n).credits.length then some .gateBusy
    else none

/-- The unit conditions up to the request for the reservation (R22). -/
def State.unitConditions (s : State) (n : Lane) : State :=
  match s.clock with
  | none => s.decideRun (.unitFault .clock)
  | some now =>
    let t := s.changeRun (fun r => { r with now := some now })
    match t.unitRefusal n with
    | some d => t.decideRun d
    | none => (t.advanceRun .reserving).request (.reserve n)

/-- The reads of the first check (R21), and what it finds: a refusal, or the landing image. A landing that its Reader Status
or its mask refuses is not read. -/
def State.firstCheckReads (s : State) (n : Lane) : Reads (Except Decision Image) :=
  match ((s.lane n).arrival.getD ⟨.readError, false, none⟩).refusal with
  | some d => .done (.error d)
  | none =>
    (s.landingReads .run n).bind (fun img =>
      match img with
      | some img => .done (.ok img)
      | none => .done (.error (.unreadable .memory)))

/-- The end of the first check (R21), and the unit conditions when it passes. -/
def State.endFirstCheck (s : State) (n : Lane) (found : Except Decision Image) : State :=
  match found with
  | .error d => (s.setLane n { s.lane n with landed := none }).decideRun d
  | .ok img => (s.setLane n { s.lane n with landed := some img }).unitConditions n

/-- The reservation of lane `n` is served (R111): two entries, or the refusal JOURNAL_FULL with its notice. -/
def State.reserve (s : State) (n : Lane) : State :=
  if 2 ≤ s.freeSpace then
    let t := s.setLane n { s.lane n with reservation := 2 }
    (t.setJournal { t.journal with reservationTotal := t.journal.reservationTotal + 2 }).advanceRun .format
  else (s.notify .journalFull).decideRun .journalFull

/-! ### Steps 3 and 4 (R23, R24) -/

/-- The tests of R23 on the image alone. -/
def imageRefusal (img : Image) : Option Decision :=
  if cardFormat img ≠ 1 then some (.unreadable .format)
  else if cardSerial img = 0 then some (.unreadable .serial)
  else if 4 < cardCarryCount img then some (.unreadable .carry)
  else none

/-- The key and tag check (R24). -/
def tagRefusal (keys : List KeySlot) (img : Image) : Option Decision :=
  match keyForCheck keys (cardGeneration img) with
  | none => some .forgedKey
  | some key => if cardTag key img = cardTagField img then none else some .forgedTag

/-- The run stops because a word of its pinned bank `x` was uncorrectable (R22, R52). -/
def State.stopRun (s : State) (x : BankId) : State := (s.damageBank x).decideRun (.unitFault .bankDamaged)

/-- The reads of the format, key and tag checks of a run with bank `x` pinned (R23, R24), and what they find: a refusal, or
none where they pass; or nothing, where a word is uncorrectable. That of the card's product row the format check
reads the first word alone, which holds the Kind, is the model's choice (log 49). -/
def State.formatReads (s : State) (x : BankId) (img : Image) : Reads (Option (Option Decision)) :=
  match imageRefusal img with
  | some d => .done (some (some d))
  | none =>
    (s.bankReads x [612 + 8 * cardProduct img]).bind (fun words =>
      match words with
      | some [w] => .done (some (if bits w 0 8 = 3 then some (.unreadable .product) else tagRefusal s.cfg.keys img))
      | _ => .done none)

/-- The end of the format, key and tag checks (R23, R24). -/
def State.endFormat (s : State) (x : BankId) (found : Option (Option Decision)) : State :=
  match found with
  | none => s.stopRun x
  | some (some d) => s.decideRun d
  | some none => s.advanceRun .deny

/-- The pinned bank and the Landed Image of a run's lane, with which its later checks are made. -/
def State.runData (s : State) (r : Run) : Option (BankId × Image × ServiceTime) :=
  match (s.lane r.lane).pinned, (s.lane r.lane).landed, r.now with
  | some x, some img, some now => some (x, img, now)
  | _, _, _ => none

/-! ### Step 5 (R29, R30) -/

/-- What the central deny section holds for a Serial (R29). -/
inductive CentralFind where
  | found (reason flags : Byte)
  | absent
  | damaged
deriving DecidableEq, Repr

/-- The binary search of R29 over the entries `low` to `high - 1`: each probe reads one entry and halves the range. -/
def State.searchReads (s : State) (x : BankId) (target : Nat) : Nat → Nat → Nat → Reads CentralFind
  | 0, _, _ => .done .absent
  | fuel + 1, low, high =>
    if high ≤ low then .done .absent
    else
      let mid := (low + high) / 2
      (s.bankReads x (wordRun (1024 + 16 * mid) 4)).bind (fun words =>
        match words with
        | some (w0 :: w1 :: w2 :: _) =>
          let serial := (serialOf w0 w1).toNat
          if serial = target then .done (.found (byteOf w2 0) (byteOf w2 1))
          else if serial < target then s.searchReads x target fuel (mid + 1) high
          else s.searchReads x target fuel low mid
        | _ => .done .damaged)

/-- The most probes that a section within the largest deny limit takes (R29). -/
def denyProbes : Nat := 16

/-- The reads of the search of the central deny section of bank `x` for a Serial (R29), and what it finds. -/
def State.centralReads (s : State) (x : BankId) (serial : Serial) : Reads CentralFind :=
  (s.bankReads x [4]).bind (fun words =>
    match words with
    | some [count] => s.searchReads x serial.toNat denyProbes 0 count.toNat
    | _ => .done .damaged)

/-- The end of the deny lookup: what the central section gave, then the Local Deny List (R29, R30). -/
def State.endDeny (s : State) (x : BankId) (serial : Serial) (found : CentralFind) : State :=
  match found with
  | .found reason flags => s.decideRun (.deniedCentral reason flags)
  | .damaged => s.stopRun x
  | .absent =>
    match s.denied serial with
    | some e => s.decideRun (if e.origin = .own then .deniedLocal else .deniedNeighbor)
    | none => s.advanceRun .sightings

/-! ### Step 6 (R37, R38) -/

/-- The clone test against a found entry (R37). -/
def cloneRefusal (img : Image) : Option Sighting → Option Decision
  | none => none
  | some e =>
    if cardCounter img < e.counter then some .cloneRegression
    else if cardCounter img = e.counter ∧ img[4] ≠ e.balance then some .cloneDiverged
    else none

/-- The sightings check (R37), with the deny add of a CLONE verdict (R38). -/
def State.sightingsCheck (s : State) (img : Image) (now : ServiceTime) : State :=
  match s.lookSighting (cardSerial img) (some now) with
  | (found, t) =>
    match cloneRefusal img found with
    | some d => ((t.addOwnDeny (cardSerial img) .clone).2).decideRun d
    | none => t.advanceRun .fare

/-! ### Steps 7 to 9 (R25) -/

/-- The Counter and direction checks (R25, R39, R40). -/
def directionRefusal (cfg : Configuration) (d : Direction) (img : Image) (now : ServiceTime) : Option Decision :=
  if cardCounter img = 65535 then some .counterExhausted
  else
    match d with
    | .entry => entryCheck cfg img now
    | .exit => exitCheck cfg img now

/-- A run takes the Fare Unit's result (R25): INSUFFICIENT with the fare, or on to the Composer (R100). -/
def State.takeFare (s : State) (img : Image) (f : FareResult) : State :=
  if f.passed then
    s.changeRun (fun r => { r with
      fare := some f, image := some (composeImage s.cfg.keys img f.writeBack), written := 0, stage := .composing,
      got := [] })
  else (s.changeRun (fun r => { r with fare := some f })).decideRun .insufficient

/-- The reads of steps 7 and 8 of a run (R25, R56), and what they find: a refusal of the Counter and direction checks, or the
fare; or nothing, where a word of the pinned bank is uncorrectable. -/
def State.fareStepReads (s : State) (n : Lane) (x : BankId) (img : Image) (now : ServiceTime) :
    Reads (Option (Except Decision FareResult)) :=
  let d := (s.gate n).direction
  match directionRefusal s.cfg d img now with
  | some refusal => .done (some (.error refusal))
  | none => (s.fareReads x img now d).bind (fun f => .done (f.map .ok))

/-- The end of steps 7 and 8 of a run (R25, R56). -/
def State.endFare (s : State) (x : BankId) (img : Image) (found : Option (Except Decision FareResult)) : State :=
  match found with
  | none => s.stopRun x
  | some (.error refusal) => s.decideRun refusal
  | some (.ok f) => s.takeFare img f

/-! ### The Composer (R101) -/

/-- The sixteenth word of the write-back image is written: it is the lane's Composed Image, and the verdict is ACCEPT
(R101, R25). -/
def State.finishImage (s : State) (n : Lane) (img : Image) : State :=
  (s.setLane n { s.lane n with composed := some img }).decideRun .accept

/-- The addresses and words of the write-back image that are not written yet (R101). That the words go in ascending order is
the model's choice (log 44). -/
def State.imageCells (s : State) (r : Run) (img : Image) : List (Nat × Word) :=
  (wordRun (s.laneAddress r.lane (128 + 4 * r.written)) (16 - r.written)).zip (img.toList.drop r.written)

/-- The run whose image the Composer writes, and the image (R101). -/
def State.composingRun (s : State) : Option (Run × Image) :=
  (s.runAt .composing).bind (fun r => r.image.map (fun img => (r, img)))

/-- One word operation of the Composer: the image's next word is written, and with the sixteenth it is complete (R101). -/
def State.composerOperation (s : State) : State :=
  match s.composingRun with
  | none => s
  | some (r, img) =>
    match s.imageCells r img with
    | [] => s.finishImage r.lane img
    | (a, w) :: rest =>
      let t := s.writeWord a w
      if rest.isEmpty then t.finishImage r.lane img else t.changeRun (fun q => { q with written := q.written + 1 })

/-! ### The hand-over (R19, R27, R78) -/

/-- The verdict of a run as it is handed over: UNIT_FAULT if its pinned bank was made DAMAGED (R20, R22). -/
def Run.verdict (r : Run) : Decision :=
  if r.bankDamaged then .unitFault .bankDamaged else r.decision.getD (.unitFault .bankDamaged)

/-- The fare that goes with a verdict: of ACCEPT and INSUFFICIENT, otherwise 0 (R19, R82). -/
def Run.handedFare (r : Run) : Nat :=
  match r.verdict with
  | .accept | .insufficient => (r.fare.map (·.fare)).getD 0
  | _ => 0

/-- The fare flags that go with a verdict (R57). -/
def Run.handedFlags (r : Run) : FareFlags :=
  match r.verdict with
  | .accept | .insufficient => (r.fare.map (·.flags)).getD FareFlags.none
  | _ => FareFlags.none

/-- The Verdict Record of a run (R82). -/
def State.runRecord (s : State) (r : Run) (degraded : Bool) : VerdictRecord :=
  let l := s.lane r.lane
  let balance := if r.verdict = .accept then l.composed.map (·[4]) else l.landed.map (·[4])
  { number := 0, lane := r.lane, reissues := l.reissues, decision := r.verdict, flags := r.handedFlags,
    degraded := degraded, recovery := false, fare := r.handedFare, serial := l.landed.map cardSerial,
    counter := l.landed.map cardCounter, balance := balance, time := r.now }

/-- The REFUSAL entry of a run (R27). -/
def State.refusalDraft (s : State) (r : Run) (degraded : Bool) : EntryDraft :=
  let img := (s.lane r.lane).image
  { lane := some r.lane, time := r.now, flags := r.handedFlags, degraded := degraded,
    body := .refusal r.verdict (cardSerial img) (cardCounter img) r.handedFare img[4],
    reserved := some r.lane }

/-- A journaled refusal: its REFUSAL entry is requested by the engine, and the hand-over follows it (R27, R78). -/
def State.journalRefusal (s : State) (r : Run) : State :=
  let degraded := s.degradedNow
  let t := s.changeRun (fun q => { q with stage := .refusing, degraded := degraded })
  t.request (.append (t.refusalDraft r degraded) (.handOver r.lane))

/-- A refusal is handed over: what the lane still holds reserved is returned (R27), and the Verdict Record is begun
(R78). The engine is free (R19). -/
def State.handRefusal (s : State) (r : Run) (degraded : Bool) : State :=
  let t := s.giveBack r.lane
  (t.beginRecord (t.runRecord r degraded) .idle).endRun

/-- An ACCEPT is handed over: the Lane Context takes the Verdict, and the Verdict Record is begun (R78). -/
def State.handAccept (s : State) (r : Run) : State :=
  let degraded := s.degradedNow
  let t := s.setLane r.lane { s.lane r.lane with verdict := some ⟨r.handedFare, r.handedFlags, degraded⟩ }
  (t.beginRecord (t.runRecord r degraded) .decided).endRun

/-- VERDICT_HANDOVER (R19): discarded by R99, a journaled refusal, another refusal, or ACCEPT. -/
def State.handOver (s : State) (r : Run) : State :=
  if (s.lane r.lane).resetRequested then (s.endRun).discardRun r.lane
  else if r.verdict = .accept then s.handAccept r
  else if r.verdict.journaled then s.journalRefusal r
  else s.handRefusal r s.degradedNow

end Sys2Proof.Machine
end

