-- ==== Sys2Proof/Machine/Appends.lean ====
section
/-! DEFINITION. What follows a completed append or rewrite (R109, R114, R115), JOURNAL_RELEASE, and the start-up scan
(R116 to R118). -/

namespace Sys2Proof.Machine

/-! ### Appends (R109) -/

/-- Lane `n` is no longer appending (R80). -/
def State.appended (s : State) (n : Lane) : State := s.setLane n { s.lane n with appending := false }

/-- A slot whose command waited for the append completes DONE (R80). -/
def State.completeIf (s : State) : Option SlotId → State
  | some k => s.complete k .done
  | none => s

/-- The lane whose step follows an append. -/
def AfterAppend.lane : AfterAppend → Option Lane
  | .nothing => none
  | .release n _ | .toIdle n _ | .handOver n | .credit n _ | .rescreen n | .inconsistent n _ => some n

/-- Fresh screening once the re-issues are spent (R95, R46, R17); the landing mask stays (R8). -/
def State.rescreen (s : State) (n : Lane) : State :=
  let t := ((s.giveBack n).releasePin n).takePin n
  (t.setLane n { t.lane n with
    state := .screening, composed := none, verdict := none, pendingSeq := none, reissues := 0, timer := .stopped,
    resetRequested := false }).joinScreening n

/-- The requester's step after the append of sequence `seq` (R109). -/
def State.afterAppend (s : State) (seq : Nat) (next : AfterAppend) : State :=
  match next with
  | .nothing => s
  | .release n k =>
    let t := s.appended n
    ((t.setLane n { t.lane n with pendingSeq := some seq }).enterReleased n).complete k .done
  | .toIdle n k => (s.returnToIdle n).completeIf k
  | .handOver _ =>
    match s.runAt .refusing with
    | some r => s.handRefusal r r.degraded
    | none => s
  | .credit n grant => (s.returnToIdle n).grantCredit n ⟨seq, grant⟩
  | .rescreen n => (s.appended n).rescreen n
  | .inconsistent n landing =>
    let t := (s.appended n).setLane n { (s.appended n).lane n with pendingSeq := none }
    t.beginRecord ((t.recoveryRecord n (.unreadable .inconsistent)).withImage landing) .idle

/-- The commands that waited for the append of a lane are taken (R80). -/
def State.drainIf (s : State) : Option Lane → State
  | some n => s.drainLane n
  | none => s

/-- The append of sequence `seq` completes: the counts (R109, R113), the requester's step, the waiting commands, and
the next request. -/
def State.finishAppend (s : State) (seq : Nat) (reserved : Option Lane) (next : AfterAppend) : State :=
  (((s.countAppend reserved).afterAppend seq next).drainIf next.lane).nextRequest

/-! ### The Unit Record and JOURNAL_RELEASE (R114, R115) -/

/-- A rewrite completes: for a JOURNAL_RELEASE, Released Sequence becomes `q` and the command is DONE (R115). -/
def State.finishRewrite (s : State) (releasing : Bool) : State :=
  match releasing, s.journal.release with
  | true, some (k, q) =>
    ((s.setJournal { s.journal with released := q, release := none }).complete k .done).nextRequest
  | _, _ => s.nextRequest

/-- The job `job` is complete: its last word, the closing mark of an entry or the Mark of a copy, is written (R109, R114). -/
def State.finishJob (s : State) (job : JournalJob) : State :=
  match job with
  | .append seq _ _ reserved next => s.finishAppend seq reserved next
  | .rewrite _ _ releasing => s.finishRewrite releasing
  | .reserve _ => s

/-- One word operation of the Journal Writer: the job's next word is written, and with the last it is complete (R109, R114).
That the words between the first and the last go in ascending order is the model's choice (log 43). -/
def State.journalOperation (s : State) : State :=
  match s.journal.job with
  | none => s
  | some job =>
    match s.jobCells job with
    | [] => s
    | (a, w) :: rest =>
      let t := s.writeWord a w
      if rest.isEmpty then t.finishJob job else t.setJournal { t.journal with job := some job.advance }

/-- The Pending Sequences at or below `q` (R115). -/
def State.pendingUpTo (s : State) (q : Nat) : List Nat :=
  (s.lanes.toList.filterMap (·.pendingSeq)).filter (fun p => decide (p ≤ q))

/-- JOURNAL_RELEASE (R115): its checks in order, then the rewrite with Released Sequence `q`. -/
def State.commandJournalRelease (s : State) (k : SlotId) (r : CommandRecord) : State :=
  let q := r.arg3.toNat
  if s.journal.release.isSome then s.complete k .busy
  else if ¬(s.journal.released < q ∧ q < s.journal.next) then s.complete k .badSequence
  else
    match (s.pendingUpTo q).min? with
    | some p => s.complete k .refusedState .openPending (some (put p 0 32))
    | none => (s.setJournal { s.journal with release := some (k, q) }).request (.rewrite true)

/-! ### The scan (R116 to R118) -/

/-- What the probes of the scan find: Next Sequence, the entries, and the sequence from which entries beyond an
uncorrectable word are to be invalidated (R116). -/
structure Probes where
  next    : Nat
  entries : List (Vector Word 8)
  cut     : Option Nat
deriving DecidableEq, Repr

/-- The probes from sequence `q` on, `n` of them at most (R116). -/
def State.probeReads (s : State) : Nat → Nat → Reads Probes
  | 0, q => .done ⟨q, [], none⟩
  | n + 1, q =>
    if q = Config.lastSequence then .done ⟨q, [], none⟩
    else
      (s.entryReads .startUp q).bind (fun words =>
        match words with
        | none => .done ⟨q, [], some (q + 1)⟩
        | some words =>
          if validEntry words q then
            (s.probeReads n (q + 1)).bind (fun p => .done ⟨p.next, words :: p.entries, p.cut⟩)
          else .done ⟨q, [], none⟩)

/-- From sequence `q` on, `n` slots at most: the sequences whose slot holds a valid entry with it, up to the first that does
not (R116, log 24); the Journal Writer reads them (R166). A probe of the last sequence fails. -/
def State.staleReads (s : State) : Nat → Nat → Reads (List Nat)
  | 0, _ => .done []
  | n + 1, q =>
    if q = Config.lastSequence then .done []
    else
      (s.entryReads .journal q).bind (fun words =>
        match words with
        | some words =>
          if validEntry words q then (s.staleReads n (q + 1)).bind (fun l => .done (q :: l)) else .done []
        | none => .done [])

/-- What the scan reads (R116): the Unit Record, what its probes find, and the sequences beyond an uncorrectable word whose
entries it invalidates. -/
structure Scan where
  record : Option UnitRecord
  found  : Probes
  stale  : List Nat
deriving DecidableEq, Repr

/-- Released Sequence as the scan takes it (R116). -/
def releasedOf (record : Option UnitRecord) : Nat := (record.map (·.released)).getD 0

/-- The reads of the scan (R116). That the invalidation ends at sequence Released + capacity is the model's choice (log
24), and so is what follows a valid record whose Released Sequence is 4,294,967,295 (log 52). -/
def State.scanReads (s : State) : Reads Scan :=
  s.unitRecordReads.bind (fun record =>
    (s.probeReads s.capacity (releasedOf record + 1)).bind (fun found =>
      match found.cut with
      | some q =>
        (s.staleReads (s.capacity - (q - releasedOf record - 1)) q).bind (fun l => .done ⟨record, found, l⟩)
      | none => .done ⟨record, found, []⟩))

/-- The PENDING entries without a resolution among the entries found (R117). -/
def danglingPending (entries : List (Vector Word 8)) : List (Vector Word 8) :=
  entries.filter (fun e => entryKind e == 1
    && !entries.any (fun f => resolvesByKind f && entryReference f == some e[0].toNat))

/-- An entry of the scan: no lane, no Time (R118). -/
def scanDraft (body : EntryBody) : EntryDraft :=
  { lane := none, time := none, flags := FareFlags.none, degraded := false, body := body, reserved := none }

end Sys2Proof.Machine
end

