-- ==== Sys2Proof/Machine/Commands.lean ====
section
/-! DEFINITION. The Command Taker (10): the commands that no other family holds, and taking, judging and dispatching a
command (R176, R177). -/

namespace Sys2Proof.Machine

/-! ### The remaining commands -/

/-- BANK_SWITCH (R47): a bank that is STAGING, or VALID and unpinned, becomes VALIDATING; the slot stays busy until
its validation ends. -/
def State.commandBankSwitch (s : State) (k : SlotId) (r : CommandRecord) : State :=
  match bankOfCode r.target.toNat with
  | none => s.complete k .badArgument
  | some x =>
    if s.banks.validation.isSome then s.complete k .busy
    else if (s.bank x).state = some .staging ∨ ((s.bank x).state = some .valid ∧ (s.bank x).pins = 0) then
      let t := s.setBank x { s.bank x with state := some .validating }
      { t with banks := { t.banks with validation := some (x, k) } }
    else s.complete k .refusedState

/-- The Serial that a command's words 3 and 4 name (12.4). -/
def CommandRecord.serial (r : CommandRecord) : Serial := serialOf r.arg3 r.arg4

/-- DENY_ADD (R32). -/
def State.commandDenyAdd (s : State) (k : SlotId) (r : CommandRecord) : State :=
  if r.serial = 0 then s.complete k .badArgument
  else
    match s.addOwnDeny r.serial .operator with
    | (true, t) => t.complete k .done
    | (false, t) => t.complete k .done .present

/-- DENY_REMOVE (R33). -/
def State.commandDenyRemove (s : State) (k : SlotId) (r : CommandRecord) : State :=
  if r.serial = 0 then s.complete k .badArgument
  else
    match s.denied r.serial with
    | some _ =>
      (({ s with denyList := s.denyList.eraseP (fun e => e.serial == r.serial) }).notify .deny).complete k .done
    | none => s.complete k .notFound

/-- FAULT_RELEASE (R173). -/
def State.commandFaultRelease (s : State) (k : SlotId) : State :=
  match s.faultRecord.first with
  | some _ => ({ s with faultRecord := { first := none, further := 0 } }).complete k .done
  | none => s.complete k .done .empty

/-- ECC_BUDGET_RESET (R174). -/
def State.commandEccBudgetReset (s : State) (k : SlotId) : State := ({ s with budget := 255 }).complete k .done

/-- The notice mask of an argument; bits that name no flag are disregarded (R183). -/
def noticeMaskOf (w : Word) : BitVec 18 := BitVec.ofNat 18 w.toNat

/-- ACK_NOTICES (R183): the named flags are cleared; those that it cleared are the Detail Value. -/
def State.commandAckNotices (s : State) (k : SlotId) (r : CommandRecord) : State :=
  let mask := noticeMaskOf r.arg3
  (s.setStatus { s.status with notices := s.status.notices &&& ~~~mask }).complete k .done .none
    (some (put (s.status.notices &&& mask).toNat 0 18))

/-- The service time of a civil day and second, with the service day starting at minute `m` of the civil day; none when
a number is out of range or the day would be −1 (R180). -/
def serviceTimeOf (m day second : Nat) : Option ServiceTime :=
  if 65535 < day ∨ 86399 < second then none
  else if 60 * m ≤ second then some ⟨day, second - 60 * m⟩
  else if day = 0 then none
  else some ⟨day - 1, second + 86400 - 60 * m⟩

/-- SET_TIME (R180). -/
def State.commandSetTime (s : State) (k : SlotId) (r : CommandRecord) : State :=
  match serviceTimeOf s.cfg.serviceDayStart r.arg3.toNat r.arg4.toNat with
  | none => s.complete k .badArgument
  | some t => ({ s with clock := some t }).complete k .done

/-! ### The clock's advance (R179) -/

/-- The service time a second later, or none after the last (R179). -/
def ServiceTime.advance (t : ServiceTime) : Option ServiceTime :=
  if t.second < 86399 then some { t with second := t.second + 1 }
  else if t.day < 65535 then some ⟨t.day + 1, 0⟩
  else none

/-- SERVICE_CLOCK_ADVANCE (R179): a clock that becomes UNSET empties the Sightings Table (R34). -/
def State.advanceClock (s : State) : State :=
  match s.clock with
  | none => s
  | some t =>
    match t.advance with
    | some u => { s with clock := some u }
    | none => { s with clock := none, sightings := [] }

/-! ### Taking a command (R176, R177) -/

/-- What the owner of a command does with it. -/
abbrev Handler := State → SlotId → CommandRecord → State

/-- The owner's rule of each command (10.2). -/
def CommandCode.handler : CommandCode → Handler
  | .proceed => State.commandProceed
  | .cancel => State.commandCancel
  | .laneReset => State.commandLaneReset
  | .gateFree => State.commandGateFree
  | .gateNormal => State.commandGateNormal
  | .clearAlarm => State.commandClearAlarm
  | .setDirection => State.commandSetDirection
  | .setTime => State.commandSetTime
  | .setOverride => State.commandSetOverride
  | .bankSwitch => State.commandBankSwitch
  | .denyAdd => State.commandDenyAdd
  | .denyRemove => State.commandDenyRemove
  | .journalRelease => State.commandJournalRelease
  | .ackNotices => State.commandAckNotices
  | .faultRelease => fun s k _ => s.commandFaultRelease k
  | .eccBudgetReset => fun s k _ => s.commandEccBudgetReset k
  | .lineRestart => fun s k _ => s.commandLineRestart k
  | .lineCheckStart => State.commandLineCheckStart
  | .lineCheckStop => fun s k _ => s.commandLineCheckStop k

/-- The two steps of R177: the Code, then the authority; a command that passes both reaches its owner. -/
def State.dispatch (s : State) (k : SlotId) (r : CommandRecord) : State :=
  match CommandCode.ofWord r.code with
  | none => s.complete k .badArgument .code
  | some x =>
    if x.needsMaint ∧ r.authority = .service then s.complete k .refusedAuthority else x.handler s k r

/-- The effective authority: the lesser of the stamp of word 2 and the mode line; any other stamp is SERVICE
(R177). -/
def effectiveAuthority (stamp : Word) (mode : Mode) : Mode :=
  if stamp.toNat = 2 ∧ mode = .maint then .maint else .service

/-- The six reads of slot `k`, all of them made, and what each of them delivered (R176). -/
def State.slotReads (s : State) (k : SlotId) : Reads Fetched :=
  Reads.each (.commandSlot k) [] (wordRun (s.slotAddress k 0) 6)

/-- The six reads of slot `k` have been made, and the command is judged by `judge` (R176): an uncorrectable word completes
it BAD_ARGUMENT with detail MEMORY. -/
def State.judgeSlot (s : State) (k : SlotId) (mode : Mode) (words : Fetched) (judge : Handler) : State :=
  match words with
  | [some w0, some w1, some w2, some w3, some w4, some w5] =>
    let r : CommandRecord := ⟨w0, w1, w3, w4, w5, effectiveAuthority w2 mode⟩
    judge (s.setSlot k { s.slot k with reading := none, command := some r }) k r
  | _ => s.complete k .badArgument .memory

/-- A go-write with sequence `q` takes the command (R175, R176): the slot is busy. In READY its six words are to be read, by
requests of the Command Taker (R166), and the port holds the answer to the go-write until then. In SCANNING the command
completes NOT_READY (R176), and so it does in FAULTED, with the first cause of the failed load (R188). -/
def State.takeCommand (s : State) (k : SlotId) (q : Nat) (mode : Mode) : State :=
  let t := s.setSlot k { s.slot k with busy := true, lastTaken := q }
  match s.unit with
  | .ready =>
    ({ t.setSlot k { t.slot k with reading := some ⟨mode, []⟩ } with
      processor := { t.processor with held := some k } }).offer (.commandSlot k)
  | .faulted => t.complete k .notReady ((s.startUp.loadFault.map LoadFault.detail).getD .none)
  | .scanning | .loading | .inReset => t.complete k .notReady

end Sys2Proof.Machine
end

