-- ==== Sys2Proof/Machine/Requests.lean ====
section
/-! DEFINITION. The requests of the internal blocks to the Memory Arbiter (R166): which block has a word operation to make,
its next one where it is a read, and `settle`, with which every meaning ends. -/

namespace Sys2Proof.Machine

/-! ### The places (R166) -/

/-- The requesters, in the order of their places (R166). -/
inductive Requester where
  | reader
  | journal
  | composer
  | screening
  | status
  | bankControl
  | startUp
  | processor
deriving DecidableEq, Repr

/-- The requesters by place (R166). -/
def requesters : List Requester := [.reader, .journal, .composer, .screening, .status, .bankControl, .startUp, .processor]

/-- The requester in whose place a block makes its word operations (R166). -/
def Block.requester : Block → Requester
  | .journal => .journal
  | .composer => .composer
  | .run | .comparison _ => .screening
  | .verdictRecord _ | .statusArea | .commandSlot _ => .status
  | .bankControl => .bankControl
  | .startUp => .startUp

/-- The command slots in ascending order. -/
def allSlots : List SlotId := [0, 1, 2, 3, 4, 5, 6, 7]

/-- Every block. Requests that reach a place together stand in this order, a Verdict Record's before the Status Area's: the
model's choice (log 54). -/
def allBlocks : List Block :=
  [.journal, .composer, .run] ++ allLanes.map .comparison ++ allLanes.map .verdictRecord ++ allSlots.map .commandSlot
    ++ [.statusArea, .bankControl, .startUp]

/-! ### The reads of the blocks -/

/-- The next read of the run in progress (R166): of the landing image, of the Product Table, of a deny probe or of the Fare
Set, as its stage asks. -/
def State.runNext (s : State) : Option (Block × Nat) :=
  match s.screening.run with
  | none => none
  | some r =>
    match r.stage, s.runData r with
    | .landing, _ => ((s.firstCheckReads r.lane).after r.got).next
    | .format, some (x, img, _) => ((s.formatReads x img).after r.got).next
    | .deny, some (x, img, _) => ((s.centralReads x (cardSerial img)).after r.got).next
    | .fare, some (x, img, now) => ((s.fareStepReads r.lane x img now).after r.got).next
    | _, _ => none

/-- Whether the scan may go on (R116): in SCANNING, after bank selection has ended (R189), while no rewrite that selection
asked for is in progress (log 23). -/
def State.scanRuns (s : State) : Bool :=
  s.unit == .scanning && s.startUp.selectionDone && !s.startUp.scanDone && s.journal.job.isNone

/-- The next read of bank selection or of the scan (R54, R116), with the block in whose place it is made. -/
def State.startUpNext (s : State) : Option (Block × Nat) :=
  if s.unit = .scanning ∧ s.startUp.selectionDone = false then (s.selectionReads.after s.startUp.got).next
  else if s.scanRuns then (s.scanReads.after s.startUp.got).next
  else none

/-- The address of the next word that a block reads, if it has one to read (R166). -/
def State.nextRead (s : State) (x : Block) : Option Nat :=
  let own (p : Option (Block × Nat)) : Option Nat := p.bind (fun r => if r.1 = x then some r.2 else none)
  match x with
  | .run => own s.runNext
  | .comparison n =>
    if s.comparisonDue n then own ((s.landingReads (.comparison n) n).after (s.lane n).got).next else none
  | .commandSlot k => (s.slot k).reading.bind (fun r => own ((s.slotReads k).after r.got).next)
  | .bankControl =>
    match s.banks.validation with
    | some (b, _) => own ((s.validationReads b).after s.banks.got).next
    | none => own s.startUpNext
  | .startUp | .journal => own s.startUpNext
  | .composer | .verdictRecord _ | .statusArea => none

/-- A block takes what its read delivered (R166). -/
def State.fetched (s : State) (x : Block) (w : Option Word) : State :=
  match x with
  | .run => s.changeRun (fun r => { r with got := r.got ++ [w] })
  | .comparison n => s.setLane n { s.lane n with got := (s.lane n).got ++ [w] }
  | .commandSlot k =>
    s.setSlot k { s.slot k with reading := (s.slot k).reading.map (fun r => { r with got := r.got ++ [w] }) }
  | .bankControl =>
    if s.banks.validation.isSome then { s with banks := { s.banks with got := s.banks.got ++ [w] } }
    else { s with startUp := { s.startUp with got := s.startUp.got ++ [w] } }
  | .startUp | .journal => { s with startUp := { s.startUp with got := s.startUp.got ++ [w] } }
  | .composer | .verdictRecord _ | .statusArea => s

/-- One word operation of a block that reads (R166, R168, R170). -/
def State.readOperation (s : State) (x : Block) : State :=
  match s.nextRead x with
  | none => s
  | some a =>
    match s.readWord a with
    | (w, t) => t.fetched x w

/-! ### Which block has a word to make -/

/-- Whether a block has a word operation to make (R166). -/
def State.hasWord (s : State) (x : Block) : Bool :=
  match x with
  | .journal =>
    match s.journal.job with
    | some job => !job.remaining.isEmpty
    | none => (s.nextRead x).isSome
  | .composer =>
    match s.composingRun with
    | some (r, img) => !(s.imageCells r img).isEmpty
    | none => false
  | .verdictRecord n => (s.recordOf n).isSome
  | .statusArea => s.statusWaiting
  | .commandSlot k =>
    match (s.slot k).result with
    | some r => !r.afterDetail
    | none => (s.nextRead x).isSome
  | .run | .comparison _ | .bankControl | .startUp => (s.nextRead x).isSome

/-- The end of a row: every block that has a word to make has its request at the arbiter, those whose request is new behind the
others (R166). That a block which the row has set to work offers its first word at the end of the row is the model's choice
(log 4). -/
def State.enrol (s : State) : State :=
  let kept := s.arbiter.requests.filter s.hasWord
  { s with arbiter := { s.arbiter with
      requests := kept ++ allBlocks.filter (fun x => s.hasWord x && !kept.contains x) } }

/-- The end of every row: the words whose mirrored state has changed become stale (R184), and the blocks that have a word to
make have their requests at the arbiter (R166). -/
def State.settle (s t : State) : State := (s.note t).enrol

end Sys2Proof.Machine
end

