-- ==== Sys2Proof/Machine/Ports.lean ====
section
/-! DEFINITION. The Processor Port and the Reader Port (01, 09): presenting words, the Region Map's verdict on them, their word
operations and answers, and grants. -/

namespace Sys2Proof.Machine

/-! ### Words that have been written (R164, R171) -/

/-- The answer to a write, performed or dropped. -/
def writeAnswer (performed : Bool) : Answer := if performed then .done none else .failed none

/-- The word at `a` on which its owner acts after an admitted write with the given byte enables (R171): as written, or, with
no byte enable, as it already stands. -/
def State.writtenWord (s : State) (a : Nat) (enables : BitVec 4) : Word × State :=
  if enables = 0 then s.standing a else (s.memory.word a, s)

/-! ### The Processor Port (R159) -/

/-- A word 7 of slot `k` has been written (R175, R176): a go-write takes the command, any other write only lands. -/
def State.goWordWritten (s : State) (k : SlotId) (w : ProcessorWord) (enables : BitVec 4) : State :=
  match s.writtenWord w.address enables with
  | (v, t) =>
    let q := goSequence v
    if q = 0 ∨ q = (t.slot k).lastTaken ∨ (t.slot k).busy = true then t else t.takeCommand k q w.mode

/-- The processor's word in `area` has been written, and the owner of a watched word acts on it (R164): the Command Taker on
a go word, Bank Control on a word of a bank. -/
def State.processorWritten (s : State) (area : Area) (w : ProcessorWord) (enables : BitVec 4) : State :=
  match area with
  | .commandWord k i => if i = 7 then s.goWordWritten k w enables else s
  | .bank x => s.bankWritten x
  | _ => s

/-- The word operation of a processor write, and the change that it causes, as one event, and whether it was performed (R164,
R171). The Region Map takes the word in that event: a write whose record has changed while it waited, so that the map refuses
it now, is refused (log 6). -/
def State.processorWrite (s : State) (w : ProcessorWord) (enables : BitVec 4) (data : Word) : Bool × State :=
  match s.judge w.address (.processor w.mode) w.access with
  | .error f => (false, s.reportFault f .processor (some w.address) (some .write) (some w.mode))
  | .ok area =>
    match s.portWrite w.address enables data .processor (some w.mode) with
    | (false, t) => (false, t)
    | (true, t) => (true, t.processorWritten area w enables)

/-- The port answers its first word. -/
def State.answer (s : State) (a : Answer) : State :=
  { s with processor := { s.processor with
    words := s.processor.words.tail, taken := false, held := none, answers := s.processor.answers ++ [a] } }

/-- The port's first word, `w`, is performed and answered, but for a go-write whose slot reads are to be made first (R176). -/
def State.performProcessor (s : State) (w : ProcessorWord) : State :=
  match w.access with
  | .read =>
    match s.portRead w.address .processor (some w.mode) with
    | (a, t) => t.answer a
  | .write enables data =>
    match s.processorWrite w enables data with
    | (performed, t) =>
      if t.processor.held.isSome then { t with processor := { t.processor with taken := false } }
      else t.answer (writeAnswer performed)

/-- Whether an access makes no word operation: a write without byte enables (R171). -/
def needsNoOperation : Access → Bool
  | .read => false
  | .write enables _ => enables == 0

/-- The Region Map takes the port's first word, `w` (R162 to R165): a refused one is answered, one that needs no word
operation is taken at once (R171), and every other one waits for the Memory Arbiter. -/
def State.takeProcessor (s : State) (w : ProcessorWord) : State :=
  match s.judge w.address (.processor w.mode) w.access with
  | .error f =>
    (s.reportFault f .processor (some w.address) (some (accessDirection w.access)) (some w.mode)).answer
      (failedAnswer w.access)
  | .ok _ =>
    if needsNoOperation w.access then s.performProcessor w
    else { s with processor := { s.processor with taken := true } }

/-- Whether a processor word must wait unanswered: a read of the JOURNAL region until the scan ends (R189). -/
def State.mustWait (s : State) (w : ProcessorWord) : Bool :=
  s.unit == .scanning && !s.startUp.scanDone && w.access == .read
    && (match s.locate w.address with | some (_, .journalRegion) => true | _ => false)

/-- The port takes its next words until one waits or none is left, each with the change that it causes as one event
(R164), so that each leaves its own words of the Status Area stale (R184). -/
def State.pumpProcessor : Nat → State → State
  | 0, s => s
  | n + 1, s =>
    match s.processor.words with
    | [] => s
    | w :: _ =>
      if s.processor.taken || s.processor.held.isSome || s.mustWait w then s
      else State.pumpProcessor n (s.note (s.takeProcessor w))

/-- The port goes on with the words it holds. -/
def State.resumeProcessor (s : State) : State := s.pumpProcessor s.processor.words.length

/-- A word is presented at the Processor Port (R159): not answered while RESET_N is asserted (R185), answered ERROR in
LOADING (R186); else it is taken at once when no earlier word waits. -/
def State.presentWord (s : State) (w : ProcessorWord) : State :=
  match s.unit with
  | .inReset => s
  | .loading => { s with processor := { s.processor with answers := s.processor.answers ++ [failedAnswer w.access] } }
  | .scanning | .ready | .faulted =>
    { s with processor := { s.processor with words := s.processor.words ++ [w] } }.resumeProcessor

/-- The word at an address, as the processor presents it. -/
def processorWord (address : Nat) (mode : Mode) (access : Access) : ProcessorWord := ⟨wordAddress address, mode, access⟩

/-- The six reads of slot `k` have been made (R176): the port answers the go-write that waits for them, the command is judged,
and the port goes on. -/
def State.finishSlotReads (s : State) (k : SlotId) (mode : Mode) (words : Fetched) (judge : Handler) : State :=
  let t := if s.processor.held = some k then s.answer (.done none) else s
  (s.note (t.judgeSlot k mode words judge)).resumeProcessor

/-! ### Grants (R12 to R16) -/

/-- Whether modem `n` may be granted: present, requesting, unbarred (R12, R13, R16). -/
def State.eligible (s : State) (n : Lane) : Bool :=
  s.present n && s.reader.requests.get n && !s.reader.barred.get n

/-- The modem that R13 chooses: the first eligible one from the last-granted index plus one on. -/
def State.chosenModem (s : State) : Option Lane :=
  [s.reader.last + 1, s.reader.last + 2, s.reader.last + 3, s.reader.last + 4].find? s.eligible

/-- The Reader Port chooses a modem when the owner is none and the unit is READY (R12, R13). -/
def State.chooseModem (s : State) : State :=
  if s.unit = .ready ∧ s.reader.owner = none then
    match s.chosenModem with
    | some n => { s with reader := { s.reader with owner := some n, last := n, holdTimer := true } }
    | none => s
  else s

/-- The grant ends and the port chooses again (R14). -/
def State.endGrant (s : State) : State :=
  { s with reader := { s.reader with owner := none, holdTimer := false, ending := false, left := 0 } }.chooseModem

/-- Whether an access of the grant owner's is in progress: a word of it waits, or has still to be presented; a word of a
withdrawn modem's is none (R14, R15). -/
def ReaderPort.busy (p : ReaderPort) : Bool := p.left != 0 || p.words.any (fun w => p.owner == some w.lane)

/-- A grant whose modem has dropped its request ends once no word of its access is left to answer (R14). -/
def State.endIfDropped (s : State) : State := if s.reader.ending && !s.reader.busy then s.endGrant else s

/-- REQUEST_DROP (R14, R16): the barred mark clears; the owner's grant ends, at once or when the last word of its access
has been answered. -/
def State.dropRequest (s : State) (n : Lane) : State :=
  let t := { s with reader := { s.reader with
    requests := s.reader.requests.set n false, barred := s.reader.barred.set n false } }
  if t.reader.owner = some n then { t with reader := { t.reader with ending := true } }.endIfDropped else t

/-- The Reader Port signals. -/
def State.signal (s : State) (x : ReaderSignal) : State :=
  { s with reader := { s.reader with signals := s.reader.signals ++ [x] } }

/-- The grant of modem `n` is withdrawn (R15): words not yet taken are never made, the fault is recorded, a partial
landing is discarded, and the modem is barred. -/
def State.withdrawGrant (s : State) (n : Lane) : State :=
  let kept := if s.reader.taken then s.reader.words.take 1 else []
  let t := ({ s with reader := { s.reader with words := kept } }.signal (.withdrawn n)).reportFault .grantHold (.reader n)
    none none none
  let u := if t.landingOpen n then t.setLane n { t.lane n with mask := 0 } else t
  { u with reader := { u.reader with barred := u.reader.barred.set n true } }.endGrant

/-! ### The Reader Port's words (R160) -/

/-- Word `k` of lane `n`'s landing image was written: its mark is set (R7). -/
def State.markLanding (s : State) (n : Lane) (k : Fin 16) : State :=
  s.setLane n { s.lane n with mask := (s.lane n).mask ||| BitVec.ofNat 16 (2 ^ k.val) }

/-- A reader's word in `area` has been written, and the owner of a watched word acts on it (R164): the Landing Monitor on a
landing word and the tap word, the Lane Controller on the result word (R7, R10, R88). -/
def State.readerWritten (s : State) (area : Area) (a : Nat) (enables : BitVec 4) : State :=
  match area with
  | .landing n k => s.markLanding n k
  | .tap n =>
    match s.writtenWord a enables with
    | (v, t) => t.arrive n v
  | .result n =>
    match s.writtenWord a enables with
    | (v, t) => t.takeResult n v
  | _ => s

/-- The word operation of a reader's write, and the change that it causes, as one event, and whether it was performed (R164,
R171); refused where the Region Map refuses it now (log 6). -/
def State.readerWrite (s : State) (w : ReaderWord) (enables : BitVec 4) (data : Word) : Bool × State :=
  match s.judge w.address (.reader w.lane) w.access with
  | .error f => (false, s.reportFault f (.reader w.lane) (some w.address) (some .write) none)
  | .ok area =>
    match s.portWrite w.address enables data (.reader w.lane) none with
    | (false, t) => (false, t)
    | (true, t) => (true, t.readerWritten area w.address enables)

/-- The Reader Port answers its first word, of modem `n`. -/
def State.answerReader (s : State) (n : Lane) (a : Answer) : State :=
  ({ s with reader := { s.reader with words := s.reader.words.tail, taken := false } }).signal (.answer n a)

/-- The port's first word, `w`, is performed and answered. -/
def State.performReader (s : State) (w : ReaderWord) : State :=
  match w.access with
  | .read =>
    match s.portRead w.address (.reader w.lane) none with
    | (a, t) => t.answerReader w.lane a
  | .write enables data =>
    match s.readerWrite w enables data with
    | (performed, t) => t.answerReader w.lane (writeAnswer performed)

/-- The Region Map takes the port's first word, `w`, as it takes a processor word. -/
def State.takeReader (s : State) (w : ReaderWord) : State :=
  match s.judge w.address (.reader w.lane) w.access with
  | .error f =>
    (s.reportFault f (.reader w.lane) (some w.address) (some (accessDirection w.access)) none).answerReader w.lane
      (failedAnswer w.access)
  | .ok _ =>
    if needsNoOperation w.access then s.performReader w else { s with reader := { s.reader with taken := true } }

/-- The port takes its next words until one waits or none is left, each with the change that it causes as one event
(R164, R184). -/
def State.pumpReader : Nat → State → State
  | 0, s => s
  | n + 1, s =>
    match s.reader.words with
    | [] => s
    | w :: _ => if s.reader.taken then s else State.pumpReader n (s.note (s.takeReader w))

/-- The port goes on with the words it holds; the last word of an access during which the request was dropped ends the grant
(R14). -/
def State.resumeReader (s : State) : State := (s.pumpReader s.reader.words.length).endIfDropped

/-- A word is presented, `left` words of its access being still to come: only the modem that holds the grant makes accesses,
and once it has dropped its request only the words of the access in progress are taken (R13, R14, R160). -/
def State.presentReader (s : State) (left : Fin 4) (w : ReaderWord) : State :=
  if s.reader.owner = some w.lane ∧ (s.reader.ending = false ∨ s.reader.left ≠ 0) then
    { s with reader := { s.reader with left := left, words := s.reader.words ++ [w] } }.resumeReader
  else s

end Sys2Proof.Machine
end

