-- ==== Sys2Proof/Machine/Arbiter.lean ====
section
/-! DEFINITION. The Memory Arbiter (R166, R167): the choice, the word operation of the requester chosen, and how a row makes the
word operations of its own block. -/

namespace Sys2Proof.Machine

/-! ### The choice (R167) -/

/-- Whether a requester has a word waiting (R166). -/
def State.waits (s : State) : Requester → Bool
  | .reader => s.reader.taken
  | .processor => s.processor.taken
  | x => s.arbiter.requests.any (fun b => b.requester == x)

/-- The requester that a choice takes (R167): the Processor Port after four losses, else the lowest place waiting. -/
def State.choice (s : State) : Option Requester :=
  if s.processor.taken ∧ 4 ≤ s.arbiter.losses then some .processor else requesters.find? s.waits

/-- The block whose word a place offers: that whose request reached it first (R166). -/
def State.offered (s : State) (x : Requester) : Option Block := s.arbiter.requests.find? (fun b => b.requester == x)

/-- The consecutive-loss count after a choice (R167). -/
def State.countLoss (s : State) (x : Requester) : State :=
  let losses :=
    if x = .processor then 0 else if s.processor.taken then saturate 4 (s.arbiter.losses + 1) else s.arbiter.losses
  { s with arbiter := { s.arbiter with losses := losses } }

/-! ### The word operation -/

/-- The Reader Port's word is served and answered, and the port goes on. -/
def State.serveReader (s : State) : State :=
  match s.reader.words with
  | [] => s
  | w :: _ => (s.note (s.performReader w)).resumeReader

/-- The Processor Port's word is served and answered, and the port goes on. -/
def State.serveProcessor (s : State) : State :=
  match s.processor.words with
  | [] => s
  | w :: _ => (s.note (s.performProcessor w)).resumeProcessor

/-- One word operation of the Command Taker for slot `k` (R176, R178): the slot's result word, or the next of its six reads,
with the last of which the command is judged. -/
def State.slotOperation (s : State) (k : SlotId) : State :=
  match (s.slot k).result with
  | some _ => s.writeResult k
  | none =>
    let t := s.readOperation (.commandSlot k)
    match (t.slot k).reading with
    | some r => if 6 ≤ r.got.length then t.finishSlotReads k r.mode r.got State.dispatch else t
    | none => t

/-- One word operation of a block (R166). -/
def State.blockOperation (s : State) (x : Block) : State :=
  match x with
  | .journal => if s.journal.job.isSome then s.journalOperation else s.readOperation x
  | .composer => s.composerOperation
  | .verdictRecord n => s.recordOperation n
  | .statusArea => s.statusOperation
  | .commandSlot k => s.slotOperation k
  | .run | .comparison _ | .bankControl | .startUp => s.readOperation x

/-- A block's word operation as an event of its own: its request leaves the arbiter, the operation is made, and the block
offers its next word, if it has one, behind the requests that wait then (R166, R184). -/
def State.serveBlock (s : State) (x : Block) : State :=
  let t := s.note ((s.retract x).blockOperation x)
  if t.hasWord x then t.offer x else t

/-- One choice of the arbiter, if a request waits, and its word operation (R167). -/
def State.arbitrate (s : State) : State :=
  match s.choice with
  | none => s
  | some .reader => (s.countLoss .reader).serveReader
  | some .processor => (s.countLoss .processor).serveProcessor
  | some x =>
    match s.offered x with
    | some b => (s.countLoss x).serveBlock b
    | none => s

/-! ### The word operations of a row -/

/-- Whether the next choice takes block `x`'s word. -/
def State.isNext (s : State) (x : Block) : Bool :=
  s.choice == some x.requester && s.offered x.requester == some x

/-- The arbiter makes its choices, `n` at most, until the next one takes block `x`'s word. -/
def State.waitTurn : Nat → Block → State → State
  | 0, _, s => s
  | n + 1, x, s => if s.isNext x then s else State.waitTurn n x s.arbitrate

/-- More choices than ever go before one word: the requests of lower places are finite, and a row brings no new ones. -/
def mostChoices : Nat := 65536

/-- Block `x`'s word is chosen (R167): its request reaches the arbiter, if it is not there already, whatever R167 puts before
it is made first, and the choice is counted. -/
def State.turn (s : State) (x : Block) : State :=
  (((s.offer x).waitTurn mostChoices x).countLoss x.requester).retract x

/-- The reads of a row (R166): each one is made when the arbiter chooses it. -/
def State.perform {α : Type} (s : State) : Reads α → α × State
  | .done x => (x, s)
  | .read x a next =>
    match (s.turn x).readWord a with
    | (w, t) => t.perform (next w)

/-- The writes of a row, of one block, in order (R166): each one is made when the arbiter chooses it. -/
def State.putWords (x : Block) : List (Nat × Word) → State → State
  | [], s => s
  | (a, w) :: rest, s => State.putWords x rest ((s.turn x).writeWord a w)

/-- `n` word operations of the Status Writer on its area, each when the arbiter chooses it. -/
def State.statusTurns : Nat → State → State
  | 0, s => s
  | n + 1, s => State.statusTurns n (s.turn .statusArea).statusOperation

/-! ### The result words of a row (R178) -/

/-- The Status Writer writes on, by `n` word operations at most, until the Detail Value of slot `k` is written. -/
def State.showDetail : Nat → SlotId → State → State
  | 0, _, s => s
  | n + 1, k, s =>
    match (s.slot k).result with
    | some r => if r.afterDetail then State.showDetail n k (s.turn .statusArea).statusOperation else s
    | none => s

/-- The result word of slot `k` is written, behind the slot's Detail Value where the outcome carries one. -/
def State.deliver (s : State) (k : SlotId) : State :=
  let t := s.showDetail (s.status.due.length + s.status.stale.length) k
  if (t.slot k).result.isSome then (t.turn (.commandSlot k)).writeResult k else t

/-- The slots whose commands have completed from `s` to `t`, in the order in which their requests reached the arbiter. -/
def State.completed (s t : State) : List SlotId :=
  (t.arbiter.requests.filterMap (fun x => match x with | .commandSlot k => some k | _ => none) ++ allSlots).filter
    (fun k => (t.slot k).result.isSome && (s.slot k).result.isNone)

/-- The result words of the commands that a row has completed, from `s` to `t`, are written within it (R178). -/
def State.deliverAll (s t : State) : State := (s.completed t).foldl State.deliver t

/-- The end of a row that may complete commands. -/
def State.close (s t : State) : State := s.settle (s.deliverAll t)

/-! ### The words of the ports in a row -/

/-- The arbiter makes its choices, `n` at most, until the Processor Port's word is made. -/
def State.driveProcessor : Nat → State → State
  | 0, s => s
  | n + 1, s => if s.processor.taken then State.driveProcessor n s.arbitrate else s

/-- A word is presented at the Processor Port, and where no earlier word waits it is made: through at most four word
operations of others (R167). -/
def State.makeWord (s : State) (w : ProcessorWord) : State :=
  let t := s.presentWord w
  if s.processor.words = [] then t.driveProcessor 5 else t

/-- The arbiter makes its choices, `n` at most, until the Reader Port's word is made. -/
def State.driveReader : Nat → State → State
  | 0, s => s
  | n + 1, s => if s.reader.taken then State.driveReader n s.arbitrate else s

/-- A word is presented at the Reader Port, and where no earlier word waits it is made: only the Processor Port can go before
it (R167). -/
def State.makeReaderWord (s : State) (left : Fin 4) (w : ReaderWord) : State :=
  let t := s.presentReader left w
  if s.reader.words = [] then t.driveReader 2 else t

end Sys2Proof.Machine
end

