-- ==== Sys2Proof/Machine/Rows.lean ====
section
/-! DEFINITION. The rows whose own effect is no word operation of an internal block (00, section 4): the words of the ports,
grants, timers, gates, the line, the clock, and the steps of a run that read no memory. The effects stand in the files of
their families; a row ends with `settle`, or with `close` where it may complete a command. -/

namespace Sys2Proof.Machine

/-! ### The Processor Port and the arbiter (09) -/

/-- PROCESSOR_WORD_READ (R159, R162 to R165, R189): the word is made when the arbiter chooses it. -/
def execProcessorWordRead (address : BitVec 32) (mode : Mode) (s : State) : Host.Outcome State Fault Refusal :=
  .next (s.settle (s.presentWord (processorWord address.toNat mode .read)))

/-- PROCESSOR_WORD_WRITE (R159, R162 to R165, R171, R175): the word is made when the arbiter chooses it. -/
def execProcessorWordWrite (address : BitVec 32) (mode : Mode) (enables : BitVec 4) (data : Word) (s : State) :
    Host.Outcome State Fault Refusal :=
  .next (s.settle (s.presentWord (processorWord address.toNat mode (.write enables data))))

/-- BANK_WRITE (R45): a processor write to the word at a byte offset of a bank region. In FAULTED, where the recovery map
stands and no bank region does (R188), the offset itself is the address, as if the bank's base were 0, and the word is one of
the recovery map like any other: the model's choice (DESIGN CHOICE, log 56). -/
def execBankWrite (bank : BankId) (offset : BitVec 20) (mode : Mode) (enables : BitVec 4) (data : Word) (s : State) :
    Host.Outcome State Fault Refusal :=
  .next (s.settle (s.makeWord (processorWord (s.bankAddress bank offset.toNat) mode (.write enables data))))

/-- MEMORY_ARBITER_CHOICE (R167, R168, R170, R171): one choice, and its word operation. -/
def execMemoryArbiterChoice (s : State) : Host.Outcome State Fault Refusal := .next (s.settle s.arbitrate)

/-! ### The Reader Port (01) -/

/-- REQUEST_RISE (R13): the modems whose requests rise together. -/
def execRequestRise (modems : Quad Bool) (s : State) : Host.Outcome State Fault Refusal :=
  let q := s.reader.requests
  let raised : Quad Bool := ⟨q.l0 || modems.l0, q.l1 || modems.l1, q.l2 || modems.l2, q.l3 || modems.l3⟩
  .next (s.settle { s with reader := { s.reader with requests := raised } }.chooseModem)

/-- REQUEST_DROP (R14, R16). -/
def execRequestDrop (n : Lane) (s : State) : Host.Outcome State Fault Refusal := .next (s.settle (s.dropRequest n))

/-- GRANT_HOLD_EXPIRY (R15), while the owner still holds its request raised: after a drop during its access the timer no
longer expires (R14). -/
def execGrantHoldExpiry (s : State) : Host.Outcome State Fault Refusal :=
  .next <| s.settle <|
    match s.reader.owner with
    | some n => if s.reader.holdTimer && s.reader.requests.get n && !s.reader.ending then s.withdrawGrant n else s
    | none => s

/-- READER_WORD_ACCESS (R160): the word is made when the arbiter chooses it. -/
def execReaderWordAccess (n : BurstWord) (address : BitVec 32) (access : Access) (s : State) :
    Host.Outcome State Fault Refusal :=
  .next (s.settle (s.presentReader n.left ⟨n.lane, wordAddress address.toNat, access⟩))

/-- LANDING_WORD_WRITE (R6, R7). -/
def execLandingWordWrite (n : BurstWord) (k : Fin 16) (enables : BitVec 4) (data : Word) (s : State) :
    Host.Outcome State Fault Refusal :=
  .next (s.settle (s.makeReaderWord n.left ⟨n.lane, s.laneAddress n.lane (4 * k.val), .write enables data⟩))

/-- TAP_WORD_WRITE (R6, R10, R11, R77). -/
def execTapWordWrite (n : BurstWord) (enables : BitVec 4) (data : Word) (s : State) :
    Host.Outcome State Fault Refusal :=
  .next (s.settle (s.makeReaderWord n.left ⟨n.lane, s.laneAddress n.lane 64, .write enables data⟩))

/-- WRITE_BACK_READ (R87): the word is made when the arbiter chooses it. -/
def execWriteBackRead (n : BurstWord) (k : Fin 16) (s : State) : Host.Outcome State Fault Refusal :=
  .next (s.settle (s.presentReader n.left ⟨n.lane, s.laneAddress n.lane (128 + 4 * k.val), .read⟩))

/-- RESULT_WORD_WRITE (R88, R89, R91). -/
def execResultWordWrite (n : BurstWord) (enables : BitVec 4) (data : Word) (s : State) :
    Host.Outcome State Fault Refusal :=
  .next (s.settle (s.makeReaderWord n.left ⟨n.lane, s.laneAddress n.lane 192, .write enables data⟩))

/-! ### Screening and the lanes (02, 05) -/

/-- SCREENING_RUN_START (R18, R99). -/
def execScreeningRunStart (s : State) : Host.Outcome State Fault Refusal := .next (s.close s.startRun)

/-- JOURNAL_RESERVATION (R22, R111), once the Journal Writer serves it. -/
def execJournalReservation (s : State) : Host.Outcome State Fault Refusal :=
  .next <| s.settle <|
    match s.journal.job with
    | some (.reserve n) => (s.reserve n).nextRequest
    | _ => s

/-- SIGHTINGS_LOOKUP (R37, R38). -/
def execSightingsLookup (s : State) : Host.Outcome State Fault Refusal :=
  .next <| s.settle <|
    match (s.runAt .sightings).bind s.runData with
    | some (_, img, now) => s.sightingsCheck img now
    | none => s

/-- VERDICT_HANDOVER (R19, R27, R78, R99). -/
def execVerdictHandover (s : State) : Host.Outcome State Fault Refusal :=
  .next <| s.close <|
    match s.runAt .decided with
    | some r => s.handOver r
    | none => s

/-- DECISION_HOLD_EXPIRY (R86). -/
def execDecisionHoldExpiry (n : Lane) (s : State) : Host.Outcome State Fault Refusal :=
  .next (s.settle (s.decisionExpiry n))

/-- WRITE_TIMEOUT_EXPIRY (R90, R91). -/
def execWriteTimeoutExpiry (n : Lane) (s : State) : Host.Outcome State Fault Refusal :=
  .next (s.settle (s.writeExpiry n))

/-- RECOVERY_WINDOW_EXPIRY (R97). -/
def execRecoveryWindowExpiry (n : Lane) (s : State) : Host.Outcome State Fault Refusal :=
  .next (s.settle (s.windowExpiry n))

/-! ### The gates (07) -/

/-- BEAM_CHANGE (R124, R125, R128 to R132). -/
def execBeamChange (n : Lane) (beam : Beam) (blocked : Bool) (s : State) : Host.Outcome State Fault Refusal :=
  .next (s.settle (s.beamChange n beam blocked))

/-- HEAD_TIMER_EXPIRY (R130). -/
def execHeadTimerExpiry (n : Lane) (s : State) : Host.Outcome State Fault Refusal :=
  .next (s.settle (s.headExpiry n))

/-- ALARM_HOLD_EXPIRY (R132), of a running alarm hold. -/
def execAlarmHoldExpiry (n : Lane) (s : State) : Host.Outcome State Fault Refusal :=
  .next (s.settle (if (s.gate n).alarmTimer then s.setGate n (s.gate n).onCredits else s))

/-- EMERGENCY_ASSERT (R136). -/
def execEmergencyAssert (s : State) : Host.Outcome State Fault Refusal := .next (s.settle (s.emergencyInput true))

/-- EMERGENCY_DEASSERT (R137). -/
def execEmergencyDeassert (s : State) : Host.Outcome State Fault Refusal := .next (s.settle (s.emergencyInput false))

/-- EMERGENCY_INPUT_BEFORE_READY (R138). -/
def execEmergencyInputBeforeReady (asserted : Bool) (s : State) : Host.Outcome State Fault Refusal :=
  .next (s.settle (s.emergencyInput asserted))

/-! ### The neighbor line (08) -/

/-- SLOT_BOUNDARY (R140, R144, R145, R155). -/
def execSlotBoundary (s : State) : Host.Outcome State Fault Refusal := .next (s.settle s.slotBoundary)

/-- FRAME_COMPLETE (R145). -/
def execFrameComplete (s : State) : Host.Outcome State Fault Refusal := .next (s.settle s.frameComplete)

/-- COLLISION (R145). -/
def execCollision (s : State) : Host.Outcome State Fault Refusal := .next (s.settle s.collide)

/-- FRAME_RECEIVED (R141, R144, R146, R148, R155). -/
def execFrameReceived (beganIn : UnitId) (bytes : List Byte) (s : State) : Host.Outcome State Fault Refusal :=
  .next (s.settle (s.frameReceived beganIn bytes))

/-- SILENCE_TIMER_EXPIRY (R144). -/
def execSilenceTimerExpiry (s : State) : Host.Outcome State Fault Refusal := .next (s.settle s.silenceExpiry)

/-- RESYNC_END (R147): unit id + 1 cycle boundaries have passed. -/
def execResyncEnd (s : State) : Host.Outcome State Fault Refusal :=
  .next <| s.settle <|
    if s.line.membership = .resync ∧ s.cfg.unitId.val + 1 ≤ s.line.cycles then s.enterListen else s

/-- SIGHTING_MESSAGE (R153). -/
def execSightingMessage (s : State) : Host.Outcome State Fault Refusal := .next (s.settle s.sightingMessage)

/-- DENY_MESSAGE (R154). -/
def execDenyMessage (s : State) : Host.Outcome State Fault Refusal := .next (s.settle s.denyMessage)

/-- CHECK_MESSAGE (R158). -/
def execCheckMessage (s : State) : Host.Outcome State Fault Refusal := .next (s.settle s.checkMessage)

/-! ### The Service Clock (10) -/

/-- SERVICE_CLOCK_ADVANCE (R179). -/
def execServiceClockAdvance (s : State) : Host.Outcome State Fault Refusal := .next (s.settle s.advanceClock)

end Sys2Proof.Machine
end

