-- ==== Sys2Proof/Machine/RecordRows.lean ====
section
/-! DEFINITION. The rows in which an internal block makes word operations of its own (R166): each makes those that are left
of its record, one by one as the arbiter chooses them, and then has its effect, which stands in the file of its family. -/

namespace Sys2Proof.Machine

/-! ### The run (02) -/

/-- LANDED_IMAGE_READ (R21, R22). -/
def execLandedImageRead (s : State) : Host.Outcome State Fault Refusal :=
  .next <| s.settle <|
    match s.runAt .landing with
    | some r =>
      match s.perform ((s.firstCheckReads r.lane).after r.got) with
      | (found, t) => t.endFirstCheck r.lane found
    | none => s

/-- FORMAT_CHECK (R23, R24). -/
def execFormatCheck (s : State) : Host.Outcome State Fault Refusal :=
  .next <| s.settle <|
    match s.runAt .format with
    | some r =>
      match s.runData r with
      | some (x, img, _) =>
        match s.perform ((s.formatReads x img).after r.got) with
        | (found, t) => t.endFormat x found
      | none => s
    | none => s

/-- DENY_LOOKUP (R29, R30). -/
def execDenyLookup (s : State) : Host.Outcome State Fault Refusal :=
  .next <| s.settle <|
    match s.runAt .deny with
    | some r =>
      match s.runData r with
      | some (x, img, _) =>
        match s.perform ((s.centralReads x (cardSerial img)).after r.got) with
        | (found, t) => t.endDeny x (cardSerial img) found
      | none => s
    | none => s

/-- FARE_COMPUTATION (R25, R39, R40, R56). -/
def execFareComputation (s : State) : Host.Outcome State Fault Refusal :=
  .next <| s.settle <|
    match s.runAt .fare with
    | some r =>
      match s.runData r with
      | some (x, img, now) =>
        match s.perform ((s.fareStepReads r.lane x img now).after r.got) with
        | (found, t) => t.endFare x img found
      | none => s
    | none => s

/-- COMPOSE_WRITE_BACK (R100, R101). -/
def execComposeWriteBack (s : State) : Host.Outcome State Fault Refusal :=
  .next <| s.settle <|
    match s.composingRun with
    | some (r, img) => (s.putWords .composer (s.imageCells r img)).finishImage r.lane img
    | none => s

/-! ### Verdict Records and recovery (05) -/

/-- VERDICT_RECORD_WRITTEN (R78, R79, R82). -/
def execVerdictRecordWritten (n : Lane) (s : State) : Host.Outcome State Fault Refusal :=
  .next <| s.close <|
    match s.recordOf n with
    | some j => (s.putWords (.verdictRecord n) (s.recordCells j)).finishRecord j
    | none => s

/-- RECOVERY_COMPARISON (R92 to R96): the sixteen reads and the outcome. -/
def execRecoveryComparison (n : Lane) (s : State) : Host.Outcome State Fault Refusal :=
  .next <| s.close <|
    if s.comparisonDue n then
      match s.perform ((s.landingReads (.comparison n) n).after (s.lane n).got) with
      | (landing, t) => t.endComparison n landing
    else s

/-! ### The journal (06) -/

/-- The rest of the Journal Writer's job is written, and the job is complete (R109, R114). -/
def State.writeJob (s : State) (job : JournalJob) : State := (s.putWords .journal (s.jobCells job)).finishJob job

/-- JOURNAL_APPEND_COMPLETE (R109): the remaining words are written, the closing mark last. -/
def execJournalAppendComplete (s : State) : Host.Outcome State Fault Refusal :=
  .next <| s.close <|
    match s.journal.job with
    | some (.append seq words written reserved next) => s.writeJob (.append seq words written reserved next)
    | _ => s

/-- UNIT_RECORD_REWRITE_COMPLETE (R114, R115): the remaining words are written, each copy's Mark last. -/
def execUnitRecordRewriteComplete (s : State) : Host.Outcome State Fault Refusal :=
  .next <| s.close <|
    match s.journal.job with
    | some (.rewrite words written releasing) => s.writeJob (.rewrite words written releasing)
    | _ => s

/-! ### The banks (03) -/

/-- BANK_VALIDATION_END (R48 to R50). -/
def execBankValidationEnd (s : State) : Host.Outcome State Fault Refusal :=
  .next <| s.close <|
    match s.banks.validation with
    | none => s
    | some (x, k) =>
      match s.perform ((s.validationReads x).after s.banks.got) with
      | (v, t) => t.endValidation x k v

/-- BANK_SELECTION (R54, R55), once in SCANNING. -/
def execBankSelection (s : State) : Host.Outcome State Fault Refusal :=
  .next <| s.settle <|
    if s.unit = .scanning ∧ s.startUp.selectionDone = false then
      match s.perform (s.selectionReads.after s.startUp.got) with
      | (f, t) => t.endSelection f
    else s

/-! ### The Status Area (10) -/

/-- STATUS_WORD_WRITE (R184): the Change Counts that are due are written, then the next stale word, followed by the even
Change Count when it was the last. With no stale word, the Change Counts alone are written. Rows are whole (log 4). -/
def State.writeStatusWord (s : State) : State :=
  let t := s.statusTurns s.status.due.length
  match t.status.stale with
  | [] => t
  | _ :: _ =>
    let u := t.statusTurns 1
    u.statusTurns u.status.due.length

/-- STATUS_WORD_WRITE (R184). The Status Writer has words to write only in SCANNING and READY. -/
def execStatusWordWrite (s : State) : Host.Outcome State Fault Refusal := .next (s.settle s.writeStatusWord)

end Sys2Proof.Machine
end

