-- ==== Sys2Proof/Machine/CommandRows.lean ====
section
/-! DEFINITION. The command rows (10.2): each is the processor's go-write to a slot (R175) that takes the command of its
row; and FAULTED_GO_WRITE (R188). -/

namespace Sys2Proof.Machine

/-- The command of a row is judged (R177): with the row's Code, its authority and then its owner's rule; with another
Code in memory, that Code is judged in its place (log 10). -/
def ownJudge (own : CommandCode) (handler : Handler) : Handler := fun s k r =>
  if CommandCode.ofWord r.code = some own then
    if own.needsMaint ∧ r.authority = .service then s.complete k .refusedAuthority else handler s k r
  else s.dispatch k r

/-- A write to the go word of a slot at the Processor Port (R175), and, where it takes a command in READY, the six reads of
the slot and the judgment of the command (R176, R177). In FAULTED without usable slots there is no go word, and the row,
which carries no address of its own, changes nothing and answers nothing: the model's choice (DESIGN CHOICE, log 59), R188
having a write to any word then land as an ordinary one. -/
def State.goWrite (s : State) (g : GoWrite) (judge : Handler) : State :=
  if s.unit = .faulted ∧ s.startUp.usableSlots = none then s
  else
    let t := s.makeWord (processorWord (s.slotAddress g.slot 7) g.mode (.write g.enables g.data))
    if s.processor.words = [] ∧ t.processor.held = some g.slot then
      match t.perform (t.slotReads g.slot) with
      | (words, u) => u.finishSlotReads g.slot g.mode words judge
    else t

/-- FAULTED_GO_WRITE (R188): in FAULTED the command completes NOT_READY with the first cause of the failed load. -/
def execFaultedGoWrite (g : GoWrite) (s : State) : Host.Outcome State Fault Refusal :=
  .next (s.close (s.goWrite g State.dispatch))

/-- The judgment of a command whose Code names none of the commands (R177). -/
def judgeUnknown : Handler := fun s k r =>
  match CommandCode.ofWord r.code with
  | none => s.complete k .badArgument .code
  | some _ => s.dispatch k r

/-- UNKNOWN_COMMAND_CODE (R177). -/
def execUnknownCommandCode (g : GoWrite) (s : State) : Host.Outcome State Fault Refusal :=
  .next (s.close (s.goWrite g judgeUnknown))

/-- PROCEED (R83, R84). -/
def execProceed (g : GoWrite) (s : State) : Host.Outcome State Fault Refusal :=
  .next (s.close (s.goWrite g (ownJudge .proceed State.commandProceed)))

/-- CANCEL (R83, R85). -/
def execCancel (g : GoWrite) (s : State) : Host.Outcome State Fault Refusal :=
  .next (s.close (s.goWrite g (ownJudge .cancel State.commandCancel)))

/-- LANE_RESET (R98, R99). -/
def execLaneReset (g : GoWrite) (s : State) : Host.Outcome State Fault Refusal :=
  .next (s.close (s.goWrite g (ownJudge .laneReset State.commandLaneReset)))

/-- GATE_FREE (R134). -/
def execGateFree (g : GoWrite) (s : State) : Host.Outcome State Fault Refusal :=
  .next (s.close (s.goWrite g (ownJudge .gateFree State.commandGateFree)))

/-- GATE_NORMAL (R135). -/
def execGateNormal (g : GoWrite) (s : State) : Host.Outcome State Fault Refusal :=
  .next (s.close (s.goWrite g (ownJudge .gateNormal State.commandGateNormal)))

/-- CLEAR_ALARM (R133). -/
def execClearAlarm (g : GoWrite) (s : State) : Host.Outcome State Fault Refusal :=
  .next (s.close (s.goWrite g (ownJudge .clearAlarm State.commandClearAlarm)))

/-- SET_DIRECTION (R121). -/
def execSetDirection (g : GoWrite) (s : State) : Host.Outcome State Fault Refusal :=
  .next (s.close (s.goWrite g (ownJudge .setDirection State.commandSetDirection)))

/-- SET_TIME (R180). -/
def execSetTime (g : GoWrite) (s : State) : Host.Outcome State Fault Refusal :=
  .next (s.close (s.goWrite g (ownJudge .setTime State.commandSetTime)))

/-- SET_OVERRIDE (R67). -/
def execSetOverride (g : GoWrite) (s : State) : Host.Outcome State Fault Refusal :=
  .next (s.close (s.goWrite g (ownJudge .setOverride State.commandSetOverride)))

/-- BANK_SWITCH (R47). -/
def execBankSwitch (g : GoWrite) (s : State) : Host.Outcome State Fault Refusal :=
  .next (s.close (s.goWrite g (ownJudge .bankSwitch State.commandBankSwitch)))

/-- DENY_ADD (R32). -/
def execDenyAdd (g : GoWrite) (s : State) : Host.Outcome State Fault Refusal :=
  .next (s.close (s.goWrite g (ownJudge .denyAdd State.commandDenyAdd)))

/-- DENY_REMOVE (R33). -/
def execDenyRemove (g : GoWrite) (s : State) : Host.Outcome State Fault Refusal :=
  .next (s.close (s.goWrite g (ownJudge .denyRemove State.commandDenyRemove)))

/-- JOURNAL_RELEASE (R115). -/
def execJournalRelease (g : GoWrite) (s : State) : Host.Outcome State Fault Refusal :=
  .next (s.close (s.goWrite g (ownJudge .journalRelease State.commandJournalRelease)))

/-- ACK_NOTICES (R183). -/
def execAckNotices (g : GoWrite) (s : State) : Host.Outcome State Fault Refusal :=
  .next (s.close (s.goWrite g (ownJudge .ackNotices State.commandAckNotices)))

/-- FAULT_RELEASE (R173). -/
def execFaultRelease (g : GoWrite) (s : State) : Host.Outcome State Fault Refusal :=
  .next (s.close (s.goWrite g (ownJudge .faultRelease (fun t k _ => t.commandFaultRelease k))))

/-- ECC_BUDGET_RESET (R174). -/
def execEccBudgetReset (g : GoWrite) (s : State) : Host.Outcome State Fault Refusal :=
  .next (s.close (s.goWrite g (ownJudge .eccBudgetReset (fun t k _ => t.commandEccBudgetReset k))))

/-- LINE_RESTART (R149). -/
def execLineRestart (g : GoWrite) (s : State) : Host.Outcome State Fault Refusal :=
  .next (s.close (s.goWrite g (ownJudge .lineRestart (fun t k _ => t.commandLineRestart k))))

/-- LINE_CHECK_START (R156). -/
def execLineCheckStart (g : GoWrite) (s : State) : Host.Outcome State Fault Refusal :=
  .next (s.close (s.goWrite g (ownJudge .lineCheckStart State.commandLineCheckStart)))

/-- LINE_CHECK_STOP (R156). -/
def execLineCheckStop (g : GoWrite) (s : State) : Host.Outcome State Fault Refusal :=
  .next (s.close (s.goWrite g (ownJudge .lineCheckStop (fun t k _ => t.commandLineCheckStop k))))

end Sys2Proof.Machine
end

