-- ==== Sys2Proof/Machine/StartUp.lean ====
section
/-! DEFINITION. The Start-up Controller (11): reset, the configuration load, the scan's row and the entry to READY. -/

namespace Sys2Proof.Machine

/-! ### Reset (R185) -/

/-- A gate as unit reset leaves it with the beam inputs of `g` (R122, R124). -/
def Gate.resetKeepingInputs (g : Gate) : Gate := { Gate.reset with inputA := g.inputA, inputB := g.inputB }.resetBeams

/-- RESET_N_ASSERT (R185): every block takes its reset value; memory and the levels of the inputs stay. -/
def State.resetAssert (s : State) : State :=
  { State.reset with
    pending := s.pending
    freeDraws := s.freeDraws
    memory := s.memory
    emergency := s.emergency
    reader := { State.reset.reader with requests := s.reader.requests }
    gates := s.gates.map Gate.resetKeepingInputs }

/-- RESET_N_ASSERT (R185). -/
def execResetNAssert (s : State) : Host.Outcome State Fault Refusal := .next (s.settle s.resetAssert)

/-- RESET_N_RELEASE (R185, R138): LOADING begins, with the gates as the EMERGENCY input has them. -/
def State.resetRelease (s : State) : State :=
  if s.unit = .inReset then { s with startUp := { s.startUp with unit := .loading } }.gatesByInput else s

/-- RESET_N_RELEASE (R185, R138). -/
def execResetNRelease (s : State) : Host.Outcome State Fault Refusal := .next (s.settle s.resetRelease)

/-! ### The load (R186 to R188) -/

/-- A structurally faulty image (R188): FAULTED under the recovery map, with the cause and the usable command slots. -/
def State.enterFaulted (s : State) (rom : List Byte) (cause : LoadFault) : State :=
  { s with startUp := { s.startUp with unit := .faulted, loadFault := some cause, usableSlots := usableSlotsOf rom } }

/-- The gate of a lane as the load leaves it: the configured Direction (R120), and CLOSED where the lane is absent
(R138). -/
def Gate.loaded (g : Gate) (present : Bool) (d : Direction) : Gate :=
  let h := if present then g else g.untimed .closed
  { h with direction := d }

/-- The gates as the load leaves them. -/
def State.loadGates (s : State) : State :=
  let f (n : Lane) : Gate := (s.gate n).loaded (s.present n) (s.cfg.directions.get n)
  { s with gates := ⟨f 0, f 1, f 2, f 3⟩ }

/-- The Change Count with which SCANNING begins: the value read, raised by one if it is odd; 0 for an uncorrectable word
(R184). -/
def firstCount : Option Word → Word
  | none => 0
  | some w => if w.getLsbD 0 then w + 1 else w

/-- The Status Writer on entering SCANNING: the Change Count word is read first (R184). -/
def State.beginStatus (s : State) : State :=
  match s.perform (Reads.word .statusArea (s.statusAddress 0)) with
  | (w, t) =>
    (t.setStatus { t.status with changeCount := some (firstCount w), stale := [], due := [] }).makeStale
      scanningStale

/-- Both banks are VALIDATING from the start of selection (R54). -/
def State.beginSelection (s : State) : State :=
  { s with banks := { s.banks with
    a := { s.banks.a with state := some .validating }, b := { s.banks.b with state := some .validating } } }

/-- A sound image is loaded and the unit enters SCANNING (R187). -/
def State.enterScanning (s : State) (rom : List Byte) : State :=
  let l := loadImage rom
  let t := { s with cfg := l.1, startUp := { s.startUp with unit := .scanning, clamped := l.2 } }
  t.loadGates.beginSelection.beginStatus

/-- CONFIGURATION_LOAD_END (R187), in LOADING. -/
def State.loadEnd (s : State) (rom : List Byte) : State :=
  if s.unit = .loading then
    match loadFaultOf rom with
    | some cause => s.enterFaulted rom cause
    | none => s.enterScanning rom
  else s

/-- CONFIGURATION_LOAD_END (R186 to R188). -/
def execConfigurationLoadEnd (rom : List Byte) (s : State) : Host.Outcome State Fault Refusal :=
  .next (s.settle (s.loadEnd rom))

/-! ### The scan (R116 to R118) -/

/-- The closing marks of the entries with the given sequences are rewritten with 0 by the Journal Writer (R116), once all of
their slots have been read: the model's choice (log 24). -/
def State.invalidate (s : State) (l : List Nat) : State :=
  s.putWords .journal (l.map (fun q => (s.entryAddress q + 28, 0)))

/-- An append of the scan, whole: written and counted if free space is at least 1, otherwise counted Unrecorded
(R112, R113). The Journal Writer makes it (R166). -/
def State.scanAppend (s : State) (d : EntryDraft) : State :=
  if 1 ≤ s.freeSpace then
    let seq := s.journal.next
    (s.putWords .journal ((wordRun (s.entryAddress seq) 8).zip (d.words seq).toList)).countAppend none
  else s.setJournal { s.journal with unrecorded := saturate 65535 (s.journal.unrecorded + 1) }

/-- How many appends of the resolutions were made: those that found free space (R117). -/
def State.resolveDangling (s : State) (dangling : List (Vector Word 8)) : State :=
  dangling.foldl (fun t e =>
    let made := decide (1 ≤ t.freeSpace)
    let u := t.scanAppend (restartResolution e)
    u.setJournal { u.journal with resolutions := u.journal.resolutions + (if made then 1 else 0) }) s

/-- The Unit Record is written whole, both copies, by the scan (R118); the Journal Writer makes its words (R166). -/
def State.writeRecord (s : State) : State :=
  s.putWords .journal ((wordRun (s.regionBase .journal) 8).zip (s.recordWords s.journal.released).toList)

/-- The bank entries due from selection are appended (R118). -/
def State.appendDue (s : State) : State :=
  match s.banks.due with
  | some body => { s.scanAppend (scanDraft body) with banks := { s.banks with due := none } }
  | none => s

/-- The end of the scan, with what it read (R116 to R118). -/
def State.endScan (s : State) (f : Scan) : State :=
  let t := s.setJournal { s.journal with released := releasedOf f.record, next := f.found.next, resolutions := 0 }
  let u := ((t.invalidate f.stale).resolveDangling (danglingPending f.found.entries)).appendDue
  let v := u.scanAppend (scanDraft (.restart f.found.next u.journal.resolutions f.record.isNone))
  let w := (if f.record.isNone then v.writeRecord else v).noticeHigh
  { w with startUp := { w.startUp with scanDone := true, got := [] } }

/-- START_UP_SCAN (R116 to R118): in SCANNING, after bank selection has ended (R189) and any rewrite it asked for is
complete (R109). The processor's waiting reads of the journal are then served (R189). -/
def execStartUpScan (s : State) : Host.Outcome State Fault Refusal :=
  .next <| s.settle <|
    if s.scanRuns then
      match s.perform (s.scanReads.after s.startUp.got) with
      | (f, t) => (s.note (t.endScan f)).resumeProcessor
    else s

/-! ### The end of SCANNING (R189, R190) -/

/-- The entry to READY (R190). -/
def State.enterReady (s : State) : State :=
  let t := { s with startUp := { s.startUp with unit := .ready } }
  let u := ((t.notify .ready).makeStale regionCopies).chooseModem.listenIfEnabled
  if u.emergency then u.emergencyStart else u

/-- ENTER_READY (R189, R190): once selection and the scan have both ended. -/
def execEnterReady (s : State) : Host.Outcome State Fault Refusal :=
  .next <| s.settle <|
    if s.unit = .scanning ∧ s.startUp.selectionDone = true ∧ s.startUp.scanDone = true then s.enterReady else s

end Sys2Proof.Machine
end

