-- ==== Sys2Proof/Machine/Dispatch.lean ====
section
/-! DEFINITION. The meaning of every command: one arm for each row of the table. -/

namespace Sys2Proof.Machine

/-- The effect of a command on everything but the queue. -/
def exec (i : Instr) (s : State) : Host.Outcome State Fault Refusal :=
  match i with
  | .resetNAssert => Sys2Proof.Machine.execResetNAssert s
  | .resetNRelease => Sys2Proof.Machine.execResetNRelease s
  | .configurationLoadEnd rom => Sys2Proof.Machine.execConfigurationLoadEnd rom s
  | .faultedGoWrite g => Sys2Proof.Machine.execFaultedGoWrite g s
  | .bankSelection => Sys2Proof.Machine.execBankSelection s
  | .startUpScan => Sys2Proof.Machine.execStartUpScan s
  | .enterReady => Sys2Proof.Machine.execEnterReady s
  | .requestRise modems => Sys2Proof.Machine.execRequestRise modems s
  | .requestDrop n => Sys2Proof.Machine.execRequestDrop n s
  | .grantHoldExpiry => Sys2Proof.Machine.execGrantHoldExpiry s
  | .landingWordWrite n k enables data => Sys2Proof.Machine.execLandingWordWrite n k enables data s
  | .tapWordWrite n enables data => Sys2Proof.Machine.execTapWordWrite n enables data s
  | .screeningRunStart => Sys2Proof.Machine.execScreeningRunStart s
  | .landedImageRead => Sys2Proof.Machine.execLandedImageRead s
  | .journalReservation => Sys2Proof.Machine.execJournalReservation s
  | .formatCheck => Sys2Proof.Machine.execFormatCheck s
  | .denyLookup => Sys2Proof.Machine.execDenyLookup s
  | .sightingsLookup => Sys2Proof.Machine.execSightingsLookup s
  | .fareComputation => Sys2Proof.Machine.execFareComputation s
  | .composeWriteBack => Sys2Proof.Machine.execComposeWriteBack s
  | .verdictHandover => Sys2Proof.Machine.execVerdictHandover s
  | .verdictRecordWritten n => Sys2Proof.Machine.execVerdictRecordWritten n s
  | .proceed g => Sys2Proof.Machine.execProceed g s
  | .cancel g => Sys2Proof.Machine.execCancel g s
  | .decisionHoldExpiry n => Sys2Proof.Machine.execDecisionHoldExpiry n s
  | .writeBackRead n k => Sys2Proof.Machine.execWriteBackRead n k s
  | .resultWordWrite n enables data => Sys2Proof.Machine.execResultWordWrite n enables data s
  | .writeTimeoutExpiry n => Sys2Proof.Machine.execWriteTimeoutExpiry n s
  | .recoveryComparison n => Sys2Proof.Machine.execRecoveryComparison n s
  | .recoveryWindowExpiry n => Sys2Proof.Machine.execRecoveryWindowExpiry n s
  | .laneReset g => Sys2Proof.Machine.execLaneReset g s
  | .journalAppendComplete => Sys2Proof.Machine.execJournalAppendComplete s
  | .journalRelease g => Sys2Proof.Machine.execJournalRelease g s
  | .unitRecordRewriteComplete => Sys2Proof.Machine.execUnitRecordRewriteComplete s
  | .bankSwitch g => Sys2Proof.Machine.execBankSwitch g s
  | .bankValidationEnd => Sys2Proof.Machine.execBankValidationEnd s
  | .bankWrite bank offset mode enables data => Sys2Proof.Machine.execBankWrite bank offset mode enables data s
  | .setOverride g => Sys2Proof.Machine.execSetOverride g s
  | .setDirection g => Sys2Proof.Machine.execSetDirection g s
  | .beamChange n beam blocked => Sys2Proof.Machine.execBeamChange n beam blocked s
  | .headTimerExpiry n => Sys2Proof.Machine.execHeadTimerExpiry n s
  | .alarmHoldExpiry n => Sys2Proof.Machine.execAlarmHoldExpiry n s
  | .clearAlarm g => Sys2Proof.Machine.execClearAlarm g s
  | .gateFree g => Sys2Proof.Machine.execGateFree g s
  | .gateNormal g => Sys2Proof.Machine.execGateNormal g s
  | .emergencyAssert => Sys2Proof.Machine.execEmergencyAssert s
  | .emergencyDeassert => Sys2Proof.Machine.execEmergencyDeassert s
  | .emergencyInputBeforeReady asserted => Sys2Proof.Machine.execEmergencyInputBeforeReady asserted s
  | .slotBoundary => Sys2Proof.Machine.execSlotBoundary s
  | .frameComplete => Sys2Proof.Machine.execFrameComplete s
  | .collision => Sys2Proof.Machine.execCollision s
  | .frameReceived beganIn bytes => Sys2Proof.Machine.execFrameReceived beganIn bytes s
  | .sightingMessage => Sys2Proof.Machine.execSightingMessage s
  | .denyMessage => Sys2Proof.Machine.execDenyMessage s
  | .checkMessage => Sys2Proof.Machine.execCheckMessage s
  | .silenceTimerExpiry => Sys2Proof.Machine.execSilenceTimerExpiry s
  | .resyncEnd => Sys2Proof.Machine.execResyncEnd s
  | .lineRestart g => Sys2Proof.Machine.execLineRestart g s
  | .lineCheckStart g => Sys2Proof.Machine.execLineCheckStart g s
  | .lineCheckStop g => Sys2Proof.Machine.execLineCheckStop g s
  | .processorWordRead address mode => Sys2Proof.Machine.execProcessorWordRead address mode s
  | .processorWordWrite address mode enables data => Sys2Proof.Machine.execProcessorWordWrite address mode enables data s
  | .readerWordAccess n address access => Sys2Proof.Machine.execReaderWordAccess n address access s
  | .memoryArbiterChoice => Sys2Proof.Machine.execMemoryArbiterChoice s
  | .unknownCommandCode g => Sys2Proof.Machine.execUnknownCommandCode g s
  | .denyAdd g => Sys2Proof.Machine.execDenyAdd g s
  | .denyRemove g => Sys2Proof.Machine.execDenyRemove g s
  | .faultRelease g => Sys2Proof.Machine.execFaultRelease g s
  | .eccBudgetReset g => Sys2Proof.Machine.execEccBudgetReset g s
  | .ackNotices g => Sys2Proof.Machine.execAckNotices g s
  | .setTime g => Sys2Proof.Machine.execSetTime g s
  | .serviceClockAdvance => Sys2Proof.Machine.execServiceClockAdvance s
  | .statusWordWrite => Sys2Proof.Machine.execStatusWordWrite s

end Sys2Proof.Machine
end

