-- ==== Sys2Proof/Safety.lean ====
section
/-! DEFINITION. What counts as a sound state and a safe step, and the frames in which the statements speak of a step. -/

namespace Sys2Proof.Machine

/-- A step is safe when it goes on: it ends in a next state, never in a fault or a refusal. -/
def State.Safe (s : State) : Prop := ∃ t, step s = .next t

/-! ### Invariants -/

/-- The bounds that the rules put on counts and queues: the Local Deny List (R30), the Sightings Table (R34), the Transmit
Queue (R150), the budget (R169), Further (R172), the loss count (R166), the Unrecorded count (R106), the Dropped count
(R151) and the framing-error count (R141). -/
structure State.Bounded (s : State) : Prop where
  denyList      : s.denyList.length ≤ Config.denyListSize
  sightings     : s.sightings.length ≤ Config.sightingsSize
  queue         : s.line.queue.length ≤ Config.transmitQueueSize
  budget        : s.budget ≤ 255
  further       : s.faultRecord.further ≤ 255
  losses        : s.arbiter.losses ≤ 4
  unrecorded    : s.journal.unrecorded ≤ 65535
  dropped       : s.line.dropped ≤ 65535
  framingErrors : s.line.framingErrors ≤ 255

/-- A gate's timers run only where the rules let them: the head timer and a pending expiry in OPEN, never both (R130),
the alarm hold in ALARM (R132). -/
structure Gate.Timed (g : Gate) : Prop where
  head    : g.headTimer = true → g.state = .opened
  pending : g.expiryPending = true → g.state = .opened ∧ g.headTimer = false
  hold    : g.alarmTimer = true → g.state = .alarm

/-- The STATUS region and the command slots share no byte, as in every sound map (R161, R188); the words of the two are
aligned. -/
def State.StatusApart (s : State) : Prop :=
  s.regionBase .status + 4096 ≤ s.regionBase .command ∨ s.regionBase .command + 256 ≤ s.regionBase .status

/-! ### Frames -/

/-- `t` is `u` but for the bookkeeping of the Status Writer and of the Memory Arbiter: the stale set, the Change Count and
its values still to be written (R184), and the requests that wait at the arbiter (R166), which are those of the blocks
that have a word to make (`State.Enrolled`). An equation `{ u with f := t.f, … }.Mirrored t` says that nothing of `u` but the
named fields and that bookkeeping differs in `t`. -/
def State.Mirrored (u t : State) : Prop :=
  t = { u with
    status := { u.status with
      stale := t.status.stale, changeCount := t.status.changeCount, due := t.status.due }
    arbiter := { u.arbiter with requests := t.arbiter.requests } }

/-- The command completes and leaves `u`, but for the Status Writer's bookkeeping. -/
def State.Yields (s : State) (i : Instr) (u : State) : Prop := ∃ t, exec i s = .next t ∧ u.Mirrored t

/-- Every byte of memory reads as before. -/
def State.SameBytes (s t : State) : Prop := ∀ a, t.memory.byte a = s.memory.byte a

/-- Every byte of memory outside `[a, a + n)` reads as before. -/
def State.SameBytesBut (s t : State) (a n : Nat) : Prop :=
  ∀ b, (b < a ∨ a + n ≤ b) → t.memory.byte b = s.memory.byte b

/-- The notice flags of `t` are those of `s` with the given ones set (R181). -/
def State.Notified (s t : State) (l : List Notice) : Prop :=
  t.status.notices = l.foldl (fun f n => f ||| BitVec.ofNat 18 (2 ^ n.bit)) s.status.notices

/-- The Fault Record after a fault is reported (R172): the First Fault of an empty record, else one more in Further. -/
def FaultRecord.after (r : FaultRecord) (f : FirstFault) : FaultRecord :=
  match r.first with
  | none => { r with first := some f }
  | some _ => { r with further := min 255 (r.further + 1) }

/-! ### The Memory Path (R166, R167) -/

/-- The place of a requester (R166), from the first to the last. -/
def Requester.place : Requester → Nat
  | .reader => 1
  | .journal => 2
  | .composer => 3
  | .screening => 4
  | .status => 5
  | .bankControl => 6
  | .startUp => 7
  | .processor => 8

/-- Neither port has a word waiting at the Memory Arbiter, and no other block than `x` at a place up to `p` (R166), so that
nothing goes before a word of block `x`, or of another block at place `p`, that reaches the arbiter now (R167). -/
structure State.PathFree (s : State) (x : Block) (p : Nat) : Prop where
  reader    : s.reader.taken = false
  processor : s.processor.taken = false
  others    : ∀ y ∈ s.arbiter.requests, y = x ∨ p < y.requester.place

/-- No request waits at the Memory Arbiter (R166). -/
structure State.PathIdle (s : State) : Prop where
  reader    : s.reader.taken = false
  processor : s.processor.taken = false
  blocks    : s.arbiter.requests = []

/-- The blocks whose requests are at the Memory Arbiter are those that have a word to make (R166). -/
def State.Enrolled (s : State) : Prop := ∀ x, x ∈ s.arbiter.requests ↔ s.hasWord x = true

/-- Block `x` offers its word at its place, before every other block of that place (R166). -/
def State.Offers (s : State) (x : Block) (before after : List Block) : Prop :=
  s.arbiter.requests = before ++ x :: after ∧ ∀ y ∈ before, y.requester ≠ x.requester

/-- The ports, the command slots and the bookkeeping as every run keeps them: a port without a word has none waiting at the
arbiter and holds none for a slot's reads, and a word that waits is not held so (R159, R160, R176); a slot that is free has
neither reads nor a result word to make, and one whose result word waits has no reads (R176, R178); the stale set is rising,
and a block has one request (R166, R184). -/
structure State.Sound (s : State) : Prop where
  processor : s.processor.words = [] → s.processor.taken = false ∧ s.processor.held = none
  held      : s.processor.taken = true → s.processor.held = none
  reader    : s.reader.words = [] → s.reader.taken = false
  slots     : ∀ k, (s.slot k).busy = false → (s.slot k).reading = none ∧ (s.slot k).result = none
  results   : ∀ k, (s.slot k).result ≠ none → (s.slot k).reading = none
  stale     : s.status.stale.Pairwise (· < ·)
  requests  : s.arbiter.requests.Nodup

/-! ### Commands taken from the command slots (R175 to R178) -/

/-- The go word as it stands after a go-write (R171, R175): the enabled bytes new, the others as they were. -/
def State.goWord (s : State) (g : GoWrite) : Word :=
  mergeBytes g.enables (s.memory.word (s.slotAddress g.slot 7)) g.data

/-- The command that words 0 to 5 of a slot hold, with its effective authority under a mode line (R176, R177). -/
def State.commandRecord (s : State) (k : SlotId) (mode : Mode) : CommandRecord :=
  { code := s.memory.word (s.slotAddress k 0), target := s.memory.word (s.slotAddress k 1),
    arg3 := s.memory.word (s.slotAddress k 3), arg4 := s.memory.word (s.slotAddress k 4),
    arg5 := s.memory.word (s.slotAddress k 5),
    authority := effectiveAuthority (s.memory.word (s.slotAddress k 2)) mode }

/-- A go-write that takes a command in whatever unit state (R175): no earlier processor word, no request at the Memory Arbiter
and no result word waits, the Region Map admits the word, the slot is free, the sequence is new, and the go word is clean. -/
structure State.CommandTurn (s : State) (g : GoWrite) : Prop where
  sound    : s.Sound
  turn     : s.processor.words = []
  path     : s.PathIdle
  written  : ∀ k, (s.slot k).result = none
  form     : s.memory.wf = true
  admitted : s.judge (s.slotAddress g.slot 7) (.processor g.mode) (.write g.enables g.data) = .ok (.commandWord g.slot 7)
  free     : (s.slot g.slot).busy = false
  sequence : goSequence (s.goWord g) ≠ 0 ∧ goSequence (s.goWord g) ≠ (s.slot g.slot).lastTaken
  clean    : s.memory.health (s.slotAddress g.slot 7) = .clean

/-- A go-write that takes a command in READY (R175, R176): as `State.CommandTurn`, and words 0 to 5 of the slot are clean. -/
structure State.CommandReady (s : State) (g : GoWrite) : Prop extends s.CommandTurn g where
  ready : s.unit = .ready
  words : ∀ i : Fin 8, i.val < 6 → s.memory.health (s.slotAddress g.slot i.val) = .clean

/-- The Memory Arbiter after a go-write (R167): the Processor Port is chosen for it, unless it has no byte enable and needs no
word operation (R171). -/
def State.goArbiter (s : State) (g : GoWrite) : Arbiter :=
  { s.arbiter with losses := if g.enables = 0 then s.arbiter.losses else 0 }

/-- The rows of 10.2, each a go-write, with the two rows of a go-write that names no command or meets FAULTED. -/
def goRows (g : GoWrite) : List Instr :=
  [.proceed g, .cancel g, .laneReset g, .gateFree g, .gateNormal g, .clearAlarm g, .setDirection g, .setTime g,
   .setOverride g, .bankSwitch g, .denyAdd g, .denyRemove g, .journalRelease g, .ackNotices g, .faultRelease g,
   .eccBudgetReset g, .lineRestart g, .lineCheckStart g, .lineCheckStop g, .unknownCommandCode g, .faultedGoWrite g]

/-- The command of a go-write is taken and is complete (R175 to R178), the rest of the machine being as in `u`: the port
answers, the go word stands in memory, the result word carries the Sequence Echo, Outcome and Detail, and the slot is
free. An outcome that carries a Detail Value places it in the slot and in the slot's word of the Status Area, for which
the Status Writer may write other words of the area up to that one (R178, R184). The model's choices: that it writes none past
that one before the result word (log 48), and that an outcome without a value leaves the Detail Value as it was (log 12). No
other byte of memory changes, and no other slot. -/
structure State.Completes (s : State) (g : GoWrite) (outcome : CommandOutcome) (detail : Detail) (value : Option Word)
    (u t : State) : Prop where
  frame    : ({ u with memory := t.memory, slots := t.slots, processor := t.processor, arbiter := s.goArbiter g }).Mirrored t
  answered : t.processor = { s.processor with answers := s.processor.answers ++ [.done none] }
  slot     : t.slot g.slot = { busy := false, lastTaken := goSequence (s.goWord g), reading := none, command := none,
                               result := none, detailValue := value.getD (s.slot g.slot).detailValue }
  others   : ∀ k, k ≠ g.slot → t.slot k = s.slot k
  goWord   : t.memory.word (s.slotAddress g.slot 7) = s.goWord g
  result   : t.memory.word (s.slotAddress g.slot 6) = resultWord (goSequence (s.goWord g)) outcome detail
  shown    : ∀ v, value = some v → t.memory.word (s.statusAddress (208 + g.slot.val)) = v
  bytes    : ∀ b, (b < s.slotAddress g.slot 6 ∨ s.slotAddress g.slot 6 + 8 ≤ b) →
               (value = none ∨ b < s.statusAddress 0 ∨ s.statusAddress (209 + g.slot.val) ≤ b) →
               t.memory.byte b = s.memory.byte b
  upsets   : ∀ a, a ≠ s.slotAddress g.slot 6 →
               (value = none ∨ a < s.statusAddress 0 ∨ s.statusAddress (209 + g.slot.val) ≤ a) →
               t.memory.upset a = s.memory.upset a

/-- The command row `i` of the go-write `g` completes so. -/
def State.Answers (s : State) (i : Instr) (g : GoWrite) (outcome : CommandOutcome) (detail : Detail)
    (value : Option Word) (u : State) : Prop :=
  ∃ t, exec i s = .next t ∧ s.Completes g outcome detail value u t

/-- The command of a go-write is taken and goes on in its busy slot (R176, R178), the rest of the machine being as in
`u`. -/
structure State.Takes (s : State) (g : GoWrite) (u t : State) : Prop where
  frame    : ({ u with memory := t.memory, slots := t.slots, processor := t.processor, arbiter := s.goArbiter g }).Mirrored t
  answered : t.processor = { s.processor with answers := s.processor.answers ++ [.done none] }
  slot     : t.slot g.slot = { busy := true, lastTaken := goSequence (s.goWord g), reading := none,
                               command := some (s.commandRecord g.slot g.mode), result := none,
                               detailValue := (s.slot g.slot).detailValue }
  others   : ∀ k, k ≠ g.slot → t.slot k = s.slot k
  goWord   : t.memory.word (s.slotAddress g.slot 7) = s.goWord g
  bytes    : s.SameBytesBut t (s.slotAddress g.slot 7) 4
  upsets   : ∀ a, t.memory.upset a = s.memory.upset a

/-- The command row `i` of the go-write `g` is taken so. -/
def State.GoesOn (s : State) (i : Instr) (g : GoWrite) (u : State) : Prop := ∃ t, exec i s = .next t ∧ s.Takes g u t

/-- A command's target names lane `n`: 0 to 3 and present (R83, R98, R121, R133 to R135). -/
def State.Names (s : State) (target : Word) (n : Lane) : Prop := target.toNat = n.val ∧ s.present n = true

/-! ### Words of the ports -/

/-- A processor word that meets a free port in READY (R159). -/
structure State.ProcessorTurn (s : State) : Prop where
  sound : s.Sound
  ready : s.unit = .ready
  turn  : s.processor.words = []

/-- The Processor Port with one more answer. -/
def ProcessorPort.answered (p : ProcessorPort) (a : Answer) : ProcessorPort := { p with answers := p.answers ++ [a] }

/-- The port after R13's choice: the first present, unbarred, requesting modem from the last-granted index plus one on,
wrapping from 3 to 0, becomes the owner; without one nothing changes. -/
def ReaderPort.chosen (p : ReaderPort) (present : Quad Bool) : ReaderPort :=
  match [p.last + 1, p.last + 2, p.last + 3, p.last].find?
      (fun n => present.get n && p.requests.get n && !p.barred.get n) with
  | some n => { p with owner := some n, last := n, holdTimer := true }
  | none => p

/-- The port after the owner's grant has ended: the owner is none, the timer stopped, and R13 chooses again (R14, R15). -/
def ReaderPort.ended (p : ReaderPort) (present : Quad Bool) : ReaderPort :=
  ReaderPort.chosen { p with owner := none, holdTimer := false, ending := false, left := 0 } present

/-- The port at which no word waits, after it has answered a word with `left` words of its access still to come: after the
last word of an access during which the request was dropped the grant has ended (R14, R160). -/
def ReaderPort.answering (p : ReaderPort) (left : Fin 4) (x : ReaderSignal) (present : Quad Bool) : ReaderPort :=
  let q : ReaderPort := { p with left := left, signals := p.signals ++ [x] }
  if p.ending = true ∧ left = 0 then q.ended present else q

/-- The state after a fault of a port is reported (R172). -/
def State.faulted (s : State) (kind : PathFault) (source : FaultSource) (a : Option Nat)
    (d : Option AccessDirection) (m : Option Mode) : State :=
  { s with faultRecord := s.faultRecord.after ⟨kind, source, a, d, m, s.clock⟩
           status := { s.status with notices := s.status.notices ||| BitVec.ofNat 18 (2 ^ Notice.fault.bit) } }

/-- One word operation of a port on the word at `a` (R168 to R172): it gives the answer `x` and leaves `v`. A read gives
the word last written, scrubs a single wrong bit and spends a correction, and gives all ones with fault UNCORRECTABLE
where two or more bits are wrong. A write with all byte enables replaces the word, one with some merges them, spending a
correction on a single wrong bit, and is dropped on an uncorrectable word. A correction lowers the budget by one, never
below 0, and sets ECC_BUDGET when the budget is then 0. -/
structure State.Serves (s : State) (a : Nat) (access : Access) (source : FaultSource) (mode : Option Mode)
    (x : Answer) (v : State) : Prop where
  readClean : access = .read → s.memory.health a = .clean → x = .done (some (s.memory.word a)) ∧ v = s
  readCorrected : access = .read → s.memory.health a = .corrected →
    x = .done (some (s.memory.word a)) ∧ s.SameBytes v ∧ v.memory.health a = .clean
    ∧ (∀ b, b ≠ a → v.memory.upset b = s.memory.upset b)
    ∧ v = { s with memory := v.memory, budget := s.budget - 1, status := { s.status with
        notices := if s.budget ≤ 1 then s.status.notices ||| BitVec.ofNat 18 (2 ^ 11) else s.status.notices } }
  readUncorrectable : access = .read → s.memory.health a = .uncorrectable →
    x = .failed (some (BitVec.allOnes 32)) ∧ v = s.faulted .uncorrectable source (some a) (some .read) mode
  writeWhole : ∀ enables data, access = .write enables data → enables ≠ 0 →
    (enables = 0xF ∨ s.memory.health a = .clean) →
    x = .done none ∧ v.memory.word a = mergeBytes enables (s.memory.word a) data ∧ s.SameBytesBut v a 4
    ∧ v.memory.health a = .clean ∧ v = { s with memory := v.memory }
  writeCorrected : ∀ enables data, access = .write enables data → enables ≠ 0 → enables ≠ 0xF →
    s.memory.health a = .corrected →
    x = .done none ∧ v.memory.word a = mergeBytes enables (s.memory.word a) data ∧ s.SameBytesBut v a 4
    ∧ v.memory.health a = .clean
    ∧ v = { s with memory := v.memory, budget := s.budget - 1, status := { s.status with
        notices := if s.budget ≤ 1 then s.status.notices ||| BitVec.ofNat 18 (2 ^ 11) else s.status.notices } }
  writeUncorrectable : ∀ enables data, access = .write enables data → enables ≠ 0 → enables ≠ 0xF →
    s.memory.health a = .uncorrectable →
    x = .failed none ∧ v = s.faulted .uncorrectable source (some a) (some .write) mode

/-- The arbiter's next choice is `x` (R167): its word waits, and it is the Processor Port at a loss count of 4, or no
requester of a place before it waits and the Processor Port does not wait at that count. -/
structure State.Chooses (s : State) (x : Requester) : Prop where
  waits  : s.waits x = true
  served : s.processor.taken = true → 4 ≤ s.arbiter.losses → x = .processor
  first  : x = .processor → s.arbiter.losses < 4 → ∀ y, y ≠ x → s.waits y = false
  place  : x ≠ .processor → ∀ y, y.place < x.place → s.waits y = false

/-- The arbiter after a choice of another than the Processor Port (R167). -/
def State.passedOver (s : State) : Arbiter :=
  { s.arbiter with losses := if s.processor.taken = true then min 4 (s.arbiter.losses + 1) else s.arbiter.losses }

/-- The arbiter after the write of a port's word with the given byte enables, of which one without any needs no word operation
(R167, R171): the Processor Port has been chosen. -/
def State.processorServed (s : State) (enables : BitVec 4) : Arbiter :=
  { s.arbiter with losses := if enables = 0 then s.arbiter.losses else 0 }

/-- The arbiter after such a write of the Reader Port's (R167, R171). -/
def State.readerServed (s : State) (enables : BitVec 4) : Arbiter := if enables = 0 then s.arbiter else s.passedOver

/-- Nothing goes before a word that reaches the Reader Port now (R167): no processor word waits at a loss count of 4. -/
def State.ReaderFirst (s : State) : Prop := s.processor.taken = true → s.arbiter.losses < 4

/-- Modem `n` may present a word now (R13, R14, R160): it holds the grant, keeps its request raised or is still within the
access during which it dropped it, and no earlier word of its access waits. -/
structure State.ReaderTurn (s : State) (n : Lane) : Prop where
  sound : s.Sound
  owner : s.reader.owner = some n
  kept  : s.reader.ending = false ∨ s.reader.left ≠ 0
  turn  : s.reader.words = []

/-! ### Lanes, Verdict Records and entries -/

/-- A Lane Context back in IDLE (R79): as unit reset leaves it, but for its Verdict Number and the commands that wait. -/
def LaneContext.idled (l : LaneContext) : LaneContext :=
  { LaneContext.reset with verdictNumber := l.verdictNumber, waiting := l.waiting }

/-- Bank Control with one pin fewer on a bank, if one is named (R46). -/
def BankControl.unpinned (c : BankControl) : Option BankId → BankControl
  | some .a => { c with a := { c.a with pins := c.a.pins - 1 } }
  | some .b => { c with b := { c.b with pins := c.b.pins - 1 } }
  | none => c

/-- Bank Control with one pin more on a bank, if one is named (R46). -/
def BankControl.pinnedOn (c : BankControl) : Option BankId → BankControl
  | some .a => { c with a := { c.a with pins := c.a.pins + 1 } }
  | some .b => { c with b := { c.b with pins := c.b.pins + 1 } }
  | none => c

/-- The journal after lane `n`'s reserved entries, if it holds any, are given back (R79, R111): their return is a request
to the Journal Writer, which serves it in its turn (R109). -/
def State.returned (s : State) (n : Lane) : Journal :=
  if (s.lane n).reservation = 0 then s.journal else (s.request (.giveBack (s.lane n).reservation)).journal

/-- Lane `n` back in IDLE (R79): its reserved entries and its pin are given back. -/
def State.idled (s : State) (n : Lane) : State :=
  { s with
    lanes := s.lanes.set n (s.lane n).idled
    banks := s.banks.unpinned (s.lane n).pinned
    journal := s.returned n }

/-- Bank `x` is DAMAGED by an internal read in service (R52), with the fallback of R53 where it was ACTIVE: to the other bank
if that is VALID, which the Unit Record and a BANK_FALLBACK entry then name, and otherwise to none. The model's choices: the
rewrite is requested before the entry (log 40), and without a new bank a later rewrite still names the former one (log 55).
-/
def State.bankLost (s : State) (x : BankId) : State :=
  let y := x.other
  let damaged : Bank := { s.bank x with state := some .damaged }
  let banks (other : Bank) (fallback : Bool) : BankControl :=
    match x with
    | .a => { s.banks with a := damaged, b := other, fallback := fallback }
    | .b => { s.banks with a := other, b := damaged, fallback := fallback }
  let entry (new : Option (BankId × Word)) : JournalRequest :=
    .append { lane := none, time := s.clock, flags := FareFlags.none, degraded := false, body := .bankFallback x new
              reserved := none } .nothing
  let noticed : StatusWriter := { s.status with notices := s.status.notices ||| BitVec.ofNat 18 (2 ^ 15) }
  if (s.bank x).state = some .active then
    if (s.bank y).state = some .valid then
      { s with
        banks := banks { s.bank y with state := some .active } true, status := noticed
        journal := ((State.request { s with journal := { s.journal with
          activeBank := some y, activeVersion := (s.bank y).version } } (.rewrite false)).request
            (entry (some (y, (s.bank y).version)))).journal }
    else
      { s with banks := banks (s.bank y) s.banks.fallback, status := noticed, journal := (s.request (entry none)).journal }
  else { s with banks := banks (s.bank y) s.banks.fallback, status := noticed }

/-- The run `r`, pinned to bank `x`, meets an uncorrectable word of that bank at address `a` (R22, R52): the fault is
recorded, the bank is lost, and the run ends UNIT_FAULT with reason BANK_DAMAGED. -/
def State.runStopped (s : State) (r : Run) (x : BankId) (a : Nat) : State :=
  { (s.faulted .uncorrectable .internal (some a) (some .read) none).bankLost x with
    screening := { s.screening with run := some { r with
      bankDamaged := true, decision := some (.unitFault .bankDamaged), stage := .decided } } }

/-! ### The Local Deny List and the Transmit Queue -/

/-- The Serial that gives way when one joins the Local Deny List (R31): none while the list has room; in a full list that
of the oldest entry of Origin NEIGHBOR or, without one, of the oldest. -/
def State.displaced (s : State) : Option Serial :=
  if s.denyList.length < 256 then none
  else
    match s.denyList.find? (fun e => e.origin == .neighbor) with
    | some e => some e.serial
    | none => s.denyList.head?.map (·.serial)

/-- The Local Deny List after an entry joins it (R31). -/
def State.denyJoined (s : State) (e : DenyEntry) : List DenyEntry :=
  if s.denyList.length < 256 then s.denyList ++ [e]
  else if s.denyList.any (fun e => e.origin == .neighbor) then
    s.denyList.eraseP (fun e => e.origin == .neighbor) ++ [e]
  else s.denyList.tail ++ [e]

/-- The request for the DENY_ADDED entry of a Serial that joins the Local Deny List (R31). -/
def State.denyEntry (s : State) (x : Serial) (origin : Origin) (reason : DenyReason) (u : UnitId) : JournalRequest :=
  .append { lane := none, time := s.clock, flags := FareFlags.none, degraded := false
            body := .denyAdded x s.displaced origin reason u, reserved := none } .nothing

/-- The line after a message is to join the Transmit Queue (R150, R151): a disabled line discards it uncounted; a queue
with room takes it at its tail; a full one first gives up its oldest SIGHTING that is not in flight, and without such a
SIGHTING discards the newcomer, counting one dropped either way. -/
def Line.joined (l : Line) (enabled : Bool) (m : TransmitMessage) : Line :=
  let gives (q : QueuedMessage) : Bool :=
    match q.message with
    | .sighting _ _ _ => !q.inFlight
    | .deny _ _ => false
  if enabled = false then l
  else if l.queue.length < 32 then { l with queue := l.queue ++ [⟨m, false⟩] }
  else if l.queue.any gives then
    { l with queue := l.queue.eraseP gives ++ [⟨m, false⟩], dropped := min 65535 (l.dropped + 1) }
  else { l with dropped := min 65535 (l.dropped + 1) }

/-- The Verdict Record `v` is begun (R81, R82): it takes the number after the last one taken in the unit, never 0. -/
def State.begun (s : State) (v : VerdictRecord) (next : AfterRecord) : State :=
  let number := if s.verdictCount = 4294967295 then 1 else s.verdictCount + 1
  { s with
    verdictCount := number
    status := { s.status with records := s.status.records ++ [
      { lane := v.lane, number := number, words := VerdictRecord.words { v with number := number }, written := 0
        next := next }] } }

/-- The record that lane `n` in RECOVERY brings without an image's fields (R82, R28). -/
def State.answering (s : State) (n : Lane) (d : Decision) : VerdictRecord :=
  { number := 0, lane := n, reissues := (s.lane n).reissues, decision := d, flags := FareFlags.none
    degraded := decide (s.line.membership ≠ .joined) || s.banks.fallback, recovery := false, fare := 0, serial := none
    counter := none, balance := none, time := (s.lane n).arrival.bind (·.time) }

/-- A transaction entry of lane `n` (R108): with the charged values, or with the landed Counter and Balance. -/
def State.entryOf (s : State) (n : Lane) (kind : TransactionKind) (charged : Bool) (reference : Option Nat) :
    EntryDraft :=
  let l := s.lane n
  let img := l.landed.getD (Vector.replicate 16 0)
  let fare := (l.verdict.map (·.fare)).getD 0
  { lane := some n, time := s.clock, flags := (l.verdict.map (·.flags)).getD FareFlags.none
    degraded := (l.verdict.map (·.degraded)).getD false
    body := .transaction kind (cardSerial img) (if charged then cardCounter img + 1 else cardCounter img) fare
      (if charged then BitVec.ofInt 32 (cardBalance img - fare) else img[4]) reference
    reserved := some n }

/-- Lane `n` is appending, and its entry is requested (R80, R109). -/
def State.appends (s : State) (n : Lane) (d : EntryDraft) (next : AfterAppend) : State :=
  State.request { s with lanes := s.lanes.set n { s.lane n with appending := true } } (.append d next)

/-! ### The Sightings Table -/

/-- Of two entries of a full Sightings Table, `v` is evicted before `f` or is `f` (R36): it has the older Time; at equal Time
the Origin NEIGHBOR against LOCAL; at equal Time and Origin the lower Serial. -/
def Sighting.goesBefore (v f : Sighting) : Prop :=
  v.time.absolute < f.time.absolute
  ∨ (v.time.absolute = f.time.absolute
      ∧ ((v.origin = .neighbor ∧ f.origin = .own) ∨ (v.origin = f.origin ∧ v.serial.toNat ≤ f.serial.toNat)))

/-- The Sightings Table `after` is `before` with the entry `e` set (R36): in the place of its Serial's entry; else as one entry
more in a table of fewer than 512; else after the eviction of the entry that goes before all others. Every other entry stays
as it was. -/
structure SightingSet (before : List Sighting) (e : Sighting) (after : List Sighting) : Prop where
  found    : after.find? (fun f => f.serial == e.serial) = some e
  replaced : (∃ f ∈ before, f.serial = e.serial) → after = before.map (fun f => if f.serial = e.serial then e else f)
  inserted : (∀ f ∈ before, f.serial ≠ e.serial) → before.length < 512 → after = before ++ [e]
  evicted  : (∀ f ∈ before, f.serial ≠ e.serial) → 512 ≤ before.length →
    ∃ v ∈ before, (∀ f ∈ before, v.goesBefore f) ∧ after = before.eraseP (fun f => f.serial == v.serial) ++ [e]

/-- Whether an entry of the Sightings Table is within the sightings window at the service time now (R35); nothing ages while
the Service Clock is UNSET. -/
def State.Live (s : State) (f : Sighting) : Prop :=
  ∀ now, s.clock = some now → now.absolute - f.time.absolute ≤ s.cfg.sightingsWindow * 60

/-- The Sightings Table after a lookup of the Serial `x` at the service time now (R35): without its entry, if that is past the
sightings window. -/
def State.lookedUp (s : State) (x : Serial) : List Sighting :=
  match s.sightings.find? (fun f => f.serial == x), s.clock with
  | some f, some now =>
    if s.cfg.sightingsWindow * 60 < now.absolute - f.time.absolute then s.sightings.eraseP (fun f => f.serial == x)
    else s.sightings
  | _, _ => s.sightings

/-- The commit of lane `n` (R89, R102 to R104), from the state `s`: the rest of the machine being as in `u`, the lane is
appending with its timer stopped; without a conflict the Sightings Table holds this use of the card, set as R36 says, or stays
as it is while the Service Clock is UNSET; with one the table stays, and a Serial not yet denied joins the Local Deny List with
its DENY_ADDED entry; the COMMIT entry is requested, with the service time now for the credit's Grant Time, and
the messages join the Transmit Queue, with what a full queue gives up (R151). That the DENY message of a conflict joins
before the SIGHTING message is the model's choice (log 19). -/
structure State.Commits (s : State) (n : Lane) (recovered : Bool) (u t : State) : Prop where
  frame : ({ u with
      lanes := s.lanes.set n { s.lane n with appending := true, comparing := false, timer := .stopped }
      sightings := t.sightings, denyList := t.denyList, journal := t.journal
      line := { s.line with queue := t.line.queue, dropped := t.line.dropped }
      status := { s.status with notices := t.status.notices } }).Mirrored t
  agreed :
    let e := s.entryOf n (.commit false recovered) true (s.lane n).pendingSeq
    let img := (s.lane n).landed.getD (Vector.replicate 16 0)
    let x := cardSerial img
    let balance : Word := BitVec.ofInt 32 (cardBalance img - ((s.lane n).verdict.map (·.fare)).getD 0)
    (∀ f, s.sightings.find? (fun f => f.serial == x) = some f → s.Live f → f.counter ≤ cardCounter img) →
    (∀ now, s.clock = some now →
      SightingSet (s.lookedUp x) ⟨x, cardCounter img + 1, balance, s.cfg.unitId, now, .own⟩ t.sightings)
    ∧ (s.clock = none → t.sightings = s.sightings)
    ∧ t.denyList = s.denyList ∧ t.status.notices = s.status.notices
    ∧ t.journal = (s.request (.append e (.credit n s.clock))).journal
    ∧ t.line = s.line.joined s.cfg.lineEnabled (.sighting x (cardCounter img + 1) balance)
  conflict :
    let e := s.entryOf n (.commit true recovered) true (s.lane n).pendingSeq
    let img := (s.lane n).landed.getD (Vector.replicate 16 0)
    let x := cardSerial img
    let balance : Word := BitVec.ofInt 32 (cardBalance img - ((s.lane n).verdict.map (·.fare)).getD 0)
    ∀ f, s.sightings.find? (fun f => f.serial == x) = some f → s.Live f → cardCounter img < f.counter →
    t.sightings = s.sightings
    ∧ ((∃ d ∈ s.denyList, d.serial = x) → t.denyList = s.denyList ∧ t.status.notices = s.status.notices
        ∧ t.journal = (s.request (.append e (.credit n s.clock))).journal
        ∧ t.line = s.line.joined s.cfg.lineEnabled (.sighting x (cardCounter img + 1) balance))
    ∧ ((∀ d ∈ s.denyList, d.serial ≠ x) →
        t.denyList = s.denyJoined ⟨x, .own, .clone, s.clock⟩ ∧ s.Notified t [.deny]
        ∧ t.journal = ((s.request (.append e (.credit n s.clock))).request (s.denyEntry x .own .clone 0)).journal
        ∧ t.line = (s.line.joined s.cfg.lineEnabled (.deny x .clone)).joined s.cfg.lineEnabled
            (.sighting x (cardCounter img + 1) balance))

/-! ### The commands that wait for a lane -/

/-- `s` with no command waiting for lane `n`. -/
def State.unawaited (s : State) (n : Lane) : State := { s with lanes := s.lanes.set n { s.lane n with waiting := [] } }

/-- The commands that waited for lane `n` in `s` are taken in order from `t`, each against the state that the one before
left (R80). -/
def State.waitingTaken (s : State) (n : Lane) (t : State) : State := (s.lane n).waiting.foldl State.laneCommand t

/-- The command in slot `k`, taken after it waited, completes, the rest of the machine being as in `u` (R178): its result word,
with the Sequence Echo, Outcome and Detail, is to be written, by a request of the Command Taker, the slot being busy until
then. -/
def State.Ends (s : State) (k : SlotId) (outcome : CommandOutcome) (detail : Detail) (u t : State) : Prop :=
  let requests := u.arbiter.requests
  t = { u with
    slots := s.slots.set k.val { s.slot k with
      busy := true, reading := none, command := none, result := some ⟨resultWord (s.slot k).lastTaken outcome detail, false⟩ }
    arbiter := { u.arbiter with
      requests := if Block.commandSlot k ∈ requests then requests else requests ++ [.commandSlot k] } }

/-- `t` with the result words written of the commands that have completed from `s` to `t` (R178). -/
def State.resultsWritten (s t : State) : State := (s.completed t).foldl State.writeResult t

/-- The command in slot `k` is one that lane `n` may be asked for: its record is `r`, and its target names the lane. -/
structure State.CommandWaits (s : State) (k : SlotId) (r : CommandRecord) (n : Lane) : Prop where
  form    : s.memory.wf = true
  command : (s.slot k).command = some r
  target  : s.Names r.target n

/-! ### The Region Map (R161 to R164) -/

/-- A region holds the address `a` (R162). -/
def RegionEntry.Covers (r : RegionEntry) (a : Nat) : Prop :=
  r.kind ≠ .absent ∧ 4096 * r.base ≤ a ∧ a < 4096 * (r.base + r.size)

/-- Under the region map of the configuration, the word at `a` lies at offset `o` of the region `r`, and in no other region
(R161, R162). -/
structure State.MapsTo (s : State) (a : Nat) (r : RegionEntry) (o : Nat) : Prop where
  mapped : s.unit ≠ .faulted
  region : r ∈ s.cfg.regions
  covers : r.Covers a
  alone  : ∀ q ∈ s.cfg.regions, q.Covers a → q = r
  offset : a = 4096 * r.base + o

/-- The word at offset `o` of the region `r` is one that the part alone writes (R163): a Verdict Record, a write-back image,
the Status Area, the JOURNAL region or the result word of a command slot. -/
def RegionEntry.PartOwned (r : RegionEntry) (o : Nat) : Prop :=
  (r.kind = .lane ∧ ((256 ≤ o % 1024 ∧ o % 1024 < 288) ∨ (128 ≤ o % 1024 ∧ o % 1024 < 192)))
  ∨ r.kind = .status ∨ r.kind = .journal ∨ (r.kind = .command ∧ o < 256 ∧ o % 32 / 4 = 6)

end Sys2Proof.Machine
end

