-- ==== Sys2Proof/Certificates/Slice0/Obligations.lean ====
section
/-! DEFINITION. The statements for the provers, family by family. Each docstring names the rules that it rests on. -/

open Sys2Proof Sys2Proof.Machine

/-! ### The step -/

/-- The command at the front of the queue is run, on the state with the queue's rest; on an empty queue the block idles (the
model's choice, log 1). -/
def Obligations.StepRunsTheFrontCommand : Prop :=
  (∀ (c : Instr) (rest : List Instr) (s : State), s.pending = c :: rest → step s = exec c { s with pending := rest })
  ∧ ∀ s : State, s.pending = [] → step s = .next s

/-- Every command ends in a next state, with the queue as it was: the part has an answer, an outcome or a recorded fault for
every event, and goes on (R165, R178, R188). That an event which cannot occur in the present state changes nothing is the
model's choice (log 2). -/
def Obligations.EveryCommandGoesOn : Prop :=
  ∀ (c : Instr) (s : State), ∃ t, exec c s = .next t ∧ t.pending = s.pending

/-! ### Invariants -/

/-- Every step keeps the canonical form of memory, which makes equal memories equal data (log 7). -/
def Obligations.StepKeepsMemoryForm : Prop :=
  ∀ s t : State, s.memory.wf = true → step s = .next t → t.memory.wf = true

/-- Every step keeps the bounds of R30, R34, R106, R141, R150, R151, R166, R169 and R172. Every step keeps every gate's
timers in the states where they run (R122, R130, R132), and the ports, the command slots and the bookkeeping sound (R159,
R160, R166, R176, R178, R184). In SCANNING and READY every step keeps the STATUS region and the command slots apart, as the
sound map with which SCANNING begins has them (R161, R187). -/
def Obligations.StepKeepsBounds : Prop :=
  (∀ s t : State, s.Bounded → step s = .next t → t.Bounded)
  ∧ (∀ s t : State, (∀ n, (s.gate n).Timed) → step s = .next t → ∀ n, (t.gate n).Timed)
  ∧ (∀ s t : State, s.Sound → step s = .next t → t.Sound)
  ∧ (∀ s t : State, ((s.unit = .scanning ∨ s.unit = .ready) → s.StatusApart) → step s = .next t →
      (t.unit = .scanning ∨ t.unit = .ready) → t.StatusApart)

/-- The state of reset meets the invariants; the unit is in neither SCANNING nor READY then (R185). Memory that nothing has
written reads as 0, and values that the spec does not give are at reset as logs 7, 12 and 13 have them, by the model's
choice. -/
def Obligations.ResetMeetsInvariants : Prop :=
  State.reset.memory.wf = true ∧ State.reset.Bounded ∧ (∀ n, (State.reset.gate n).Timed) ∧ State.reset.Sound
  ∧ State.reset.unit ≠ .scanning ∧ State.reset.unit ≠ .ready

/-- A word of the Status Area whose mirrored state an event changes is stale after the event (R184), unless the event has
itself written the word with its new value (R178); words 1 to 215. The Status Area exists in SCANNING and READY. -/
def Obligations.ChangedMirrorIsStale : Prop :=
  ∀ (c : Instr) (s t : State), exec c s = .next t → (t.unit = .scanning ∨ t.unit = .ready) →
    ∀ i, 1 ≤ i → i < 216 → s.mirrorWord i ≠ t.mirrorWord i →
      i ∈ t.status.stale ∨ t.memory.word (t.statusAddress i) = t.mirrorWord i

/-! ### Commands of the registers (09, 10, 04) -/

/-- ECC_BUDGET_RESET (R174): refused under SERVICE authority; else the budget becomes 255, whatever it held, and nothing else
changes: the notices and the Fault Record stay. A correction taken after it spends from 255. That an outcome without a value
leaves the slot's Detail Value as it was is the model's choice (log 12). -/
def Obligations.EccBudgetResetRefillsBudget : Prop :=
  ∀ (s : State) (g : GoWrite), s.CommandReady g → (s.commandRecord g.slot g.mode).code = 16 →
    ((s.commandRecord g.slot g.mode).authority = .service →
      s.Answers (.eccBudgetReset g) g .refusedAuthority .none none s)
    ∧ ((s.commandRecord g.slot g.mode).authority = .maint →
      s.Answers (.eccBudgetReset g) g .done .none none { s with budget := 255 })

/-- FAULT_RELEASE (R173), under either authority: a held record is emptied; an empty one answers DONE with detail EMPTY and
nothing changes. The FAULT notice stays. That an outcome without a value leaves the slot's Detail Value as it was is the
model's choice (log 12). -/
def Obligations.FaultReleaseEmptiesRecord : Prop :=
  ∀ (s : State) (g : GoWrite), s.CommandReady g → (s.commandRecord g.slot g.mode).code = 15 →
    (∀ f, s.faultRecord.first = some f →
      s.Answers (.faultRelease g) g .done .none none { s with faultRecord := { first := none, further := 0 } })
    ∧ (s.faultRecord.first = none → s.Answers (.faultRelease g) g .done .empty none s)

/-- ACK_NOTICES (R183): the flags named in the mask are cleared, those that were set among them are the Detail Value, the
others stay; bits 18 and up name no flag. The Detail Value stands in the Status Area before the result word is written
(R178), the STATUS region and the command slots being apart (R161). ATTN then shows the enabled flags that are left (R182).
That no word of the Status Area past the slot's Detail Value is written before the result word is the model's choice (log
48). -/
def Obligations.AckNoticesClearsNamedFlags : Prop :=
  ∀ (s : State) (g : GoWrite), s.CommandReady g → s.StatusApart → (s.commandRecord g.slot g.mode).code = 14 →
    ∃ t, exec (.ackNotices g) s = .next t
      ∧ s.Completes g .done .none
          (some (((s.status.notices &&& ((s.commandRecord g.slot g.mode).arg3.setWidth 18)).setWidth 32)))
          { s with status := { s.status with
              notices := s.status.notices &&& ~~~((s.commandRecord g.slot g.mode).arg3.setWidth 18) } } t
      ∧ (t.attn = true ↔ ∃ i : Fin 18, s.status.notices.getLsbD i.val = true ∧ s.cfg.noticeMask.getLsbD i.val = true
          ∧ (s.commandRecord g.slot g.mode).arg3.getLsbD i.val = false)

/-- SET_OVERRIDE (R67): refused under SERVICE authority; BAD_ARGUMENT, changing nothing, for a mode other than ON (1) and OFF
(2), and for ON with a factor above 2000; ON with a factor of at most 2000 turns the override On with that factor; OFF turns
it Off, keeps the factor and does not examine the argument. It requests no journal entry and sets no notice. With a factor of
0 an exit with a valid entry costs 0. That an outcome without a value leaves the slot's Detail Value as it was is the model's
choice (log 12). -/
def Obligations.SetOverrideSetsFactor : Prop :=
  (∀ (s : State) (g : GoWrite), s.CommandReady g → (s.commandRecord g.slot g.mode).code = 9 →
    let r := s.commandRecord g.slot g.mode
    (r.authority = .service → s.Answers (.setOverride g) g .refusedAuthority .none none s)
    ∧ (r.authority = .maint →
      (r.arg3.toNat ≠ 1 → r.arg3.toNat ≠ 2 → s.Answers (.setOverride g) g .badArgument .none none s)
      ∧ (r.arg3.toNat = 1 → 2000 < r.arg4.toNat → s.Answers (.setOverride g) g .badArgument .none none s)
      ∧ (r.arg3.toNat = 1 → r.arg4.toNat ≤ 2000 →
          s.Answers (.setOverride g) g .done .none none
            { s with fareUnit := { overrideOn := true, factor := r.arg4.toNat } })
      ∧ (r.arg3.toNat = 2 →
          s.Answers (.setOverride g) g .done .none none
            { s with fareUnit := { overrideOn := false, factor := s.fareUnit.factor } })))
  ∧ ∀ cfg img now row base, (fareExit cfg img now row base 0 true).fare = 0

/-- SET_TIME (R180) under MAINT authority: a day above 65,535, a second above 86,399 and a conversion to day −1 are
BAD_ARGUMENT and change nothing; else the clock becomes SET with the converted time. SERVICE_CLOCK_ADVANCE (R179): a SET
clock goes on by one second, from second 86,399 to second 0 of the next day; after the last second of day 65,535 it is UNSET
and the Sightings Table is emptied (R34); an UNSET clock does not advance. That an outcome without a value leaves the slot's
Detail Value as it was is the model's choice (log 12). -/
def Obligations.ClockIsSetAndAdvances : Prop :=
  (∀ (s : State) (g : GoWrite), s.CommandReady g → (s.commandRecord g.slot g.mode).code = 8 →
    let r := s.commandRecord g.slot g.mode
    let start := 60 * s.cfg.serviceDayStart
    (r.authority = .service → s.Answers (.setTime g) g .refusedAuthority .none none s)
    ∧ (r.authority = .maint →
      ((65535 < r.arg3.toNat ∨ 86399 < r.arg4.toNat ∨ (r.arg4.toNat < start ∧ r.arg3.toNat = 0)) →
        s.Answers (.setTime g) g .badArgument .none none s)
      ∧ (r.arg3.toNat ≤ 65535 → r.arg4.toNat ≤ 86399 → start ≤ r.arg4.toNat →
        s.Answers (.setTime g) g .done .none none { s with clock := some ⟨r.arg3.toNat, r.arg4.toNat - start⟩ })
      ∧ (1 ≤ r.arg3.toNat → r.arg3.toNat ≤ 65535 → r.arg4.toNat ≤ 86399 → r.arg4.toNat < start →
        s.Answers (.setTime g) g .done .none none
          { s with clock := some ⟨r.arg3.toNat - 1, r.arg4.toNat + 86400 - start⟩ })))
  ∧ (∀ (s : State) (day second : Nat), s.clock = some ⟨day, second⟩ →
    (second < 86399 → s.Yields .serviceClockAdvance { s with clock := some ⟨day, second + 1⟩ })
    ∧ (second = 86399 → day < 65535 → s.Yields .serviceClockAdvance { s with clock := some ⟨day + 1, 0⟩ })
    ∧ (second = 86399 → day = 65535 → s.Yields .serviceClockAdvance { s with clock := none, sightings := [] }))
  ∧ ∀ s : State, s.clock = none → s.Yields .serviceClockAdvance s

/-- How a taken command is judged (R176, R177, R188): in FAULTED it completes NOT_READY with the first cause of the failed
load, at the usable command slots; in SCANNING every command completes NOT_READY; in READY words 0 to 5 of the slot are read,
and where some of them are uncorrectable the command completes BAD_ARGUMENT with detail MEMORY, each such word recorded as a
fault; an unknown Code is BAD_ARGUMENT with detail CODE; and each command of MAINT authority is refused under SERVICE
authority. Nothing else changes. The model's choices: that in FAULTED and in SCANNING words 0 to 5 are not read, so that
their health does not matter and none is scrubbed (log 11), that an outcome without a value leaves the Detail Value as it was
(log 12), and that in FAULTED without usable slots the row changes and answers nothing (log 59). -/
def Obligations.CommandsAreJudged : Prop :=
  (∀ (s : State) (g : GoWrite) (base : Nat) (cause : LoadFault), s.unit = .faulted →
    s.startUp.usableSlots = some base → base % 4096 = 0 → s.startUp.loadFault = some cause → s.CommandTurn g →
    s.Answers (.faultedGoWrite g) g .notReady
      (match cause with | .check => .check | .kind => .kind | .region => .region | .key => .key) none s)
  ∧ (∀ (s : State) (g : GoWrite), s.unit = .faulted → s.startUp.usableSlots = none →
    ∀ i ∈ goRows g, s.Yields i s)
  ∧ (∀ (s : State) (g : GoWrite), s.unit = .scanning → s.CommandTurn g →
    ∀ i ∈ goRows g, s.Answers i g .notReady .none none s)
  ∧ (∀ (s : State) (g : GoWrite), s.unit = .ready → s.CommandTurn g →
    let bad := (List.range 6).filter (fun i => s.memory.health (s.slotAddress g.slot i) = .uncorrectable)
    bad ≠ [] → (∀ i, i < 6 → s.memory.health (s.slotAddress g.slot i) ≠ .corrected) →
    ∀ i ∈ goRows g, s.Answers i g .badArgument .memory none
      (bad.foldl (fun t w => t.faulted .uncorrectable .internal (some (s.slotAddress g.slot w)) (some .read) none) s))
  ∧ (∀ (s : State) (g : GoWrite), s.CommandReady g →
    let code := (s.commandRecord g.slot g.mode).code.toNat
    (code = 0 ∨ 19 < code → s.Answers (.unknownCommandCode g) g .badArgument .code none s)
    ∧ ((s.commandRecord g.slot g.mode).authority = .service →
      (code = 7 → s.Answers (.setDirection g) g .refusedAuthority .none none s)
      ∧ (code = 10 → s.Answers (.bankSwitch g) g .refusedAuthority .none none s)
      ∧ (code = 12 → s.Answers (.denyRemove g) g .refusedAuthority .none none s)
      ∧ (code = 17 → s.Answers (.lineRestart g) g .refusedAuthority .none none s)
      ∧ (code = 18 → s.Answers (.lineCheckStart g) g .refusedAuthority .none none s)
      ∧ (code = 19 → s.Answers (.lineCheckStop g) g .refusedAuthority .none none s)))

/-! ### Gates: the commands (07) -/

/-- CLEAR_ALARM (R133), GATE_FREE (R134), GATE_NORMAL (R135) and SET_DIRECTION (R121): a lane that is not 0 to 3 or is
absent, and a direction of neither value, are BAD_ARGUMENT; a state that does not allow the command is REFUSED_STATE; neither
changes anything. Else the gate alone changes: an ended alarm or FREE leaves it OPEN with its head timer started if it holds
credits, and CLOSED otherwise; GATE_FREE holds it open with no timer, and keeps its credits. That an outcome without a value
leaves the slot's Detail Value as it was is the model's choice (log 12). -/
def Obligations.GateCommandsMoveTheGate : Prop :=
  ∀ (s : State) (g : GoWrite), s.CommandReady g →
    let r := s.commandRecord g.slot g.mode
    let onCredits (x : Gate) : Gate :=
      { x with state := if x.credits = [] then .closed else .opened, headTimer := decide (x.credits ≠ []),
               expiryPending := false, alarmTimer := false }
    (r.code = 6 →
      ((∀ n, ¬s.Names r.target n) → s.Answers (.clearAlarm g) g .badArgument .none none s)
      ∧ ∀ n, s.Names r.target n →
        ((s.gate n).state = .alarm →
          s.Answers (.clearAlarm g) g .done .none none { s with gates := s.gates.set n (onCredits (s.gate n)) })
        ∧ ((s.gate n).state ≠ .alarm → s.Answers (.clearAlarm g) g .refusedState .none none s))
    ∧ (r.code = 4 →
      ((∀ n, ¬s.Names r.target n) → s.Answers (.gateFree g) g .badArgument .none none s)
      ∧ ∀ n, s.Names r.target n →
        ((s.gate n).state = .free → s.Answers (.gateFree g) g .done .unchanged none s)
        ∧ ((s.gate n).state = .emergency → s.Answers (.gateFree g) g .refusedState .none none s)
        ∧ ((s.gate n).state ≠ .free → (s.gate n).state ≠ .emergency →
          s.Answers (.gateFree g) g .done .none none
            { s with gates := s.gates.set n { s.gate n with
                state := .free, headTimer := false, expiryPending := false, alarmTimer := false } }))
    ∧ (r.code = 5 →
      ((∀ n, ¬s.Names r.target n) → s.Answers (.gateNormal g) g .badArgument .none none s)
      ∧ ∀ n, s.Names r.target n →
        ((s.gate n).state = .free →
          s.Answers (.gateNormal g) g .done .none none { s with gates := s.gates.set n (onCredits (s.gate n)) })
        ∧ ((s.gate n).state ≠ .free → s.Answers (.gateNormal g) g .refusedState .none none s))
    ∧ (r.code = 7 → r.authority = .maint →
      ((∀ n, ¬s.Names r.target n) → s.Answers (.setDirection g) g .badArgument .none none s)
      ∧ (r.arg3.toNat ≠ 1 → r.arg3.toNat ≠ 2 → s.Answers (.setDirection g) g .badArgument .none none s)
      ∧ ∀ n, s.Names r.target n → (r.arg3.toNat = 1 ∨ r.arg3.toNat = 2) →
        ((s.lane n).state = .idle → (s.gate n).state = .closed → (s.gate n).credits = [] →
          s.Answers (.setDirection g) g .done .none none
            { s with gates := s.gates.set n { s.gate n with
                direction := if r.arg3.toNat = 1 then .entry else .exit } })
        ∧ (¬((s.lane n).state = .idle ∧ (s.gate n).state = .closed ∧ (s.gate n).credits = []) →
          s.Answers (.setDirection g) g .refusedState .none none s))

/-! ### The Local Deny List: the commands (02) -/

/-- DENY_ADD (R32, R31): a Serial of 0 is BAD_ARGUMENT; one that the list holds answers DONE with detail PRESENT and changes
nothing; else the entry joins at the end with Origin LOCAL, Reason OPERATOR and the service time now, a full list first
giving up its oldest entry of Origin NEIGHBOR or, without one, its oldest; the DENY notice is set, a DENY_ADDED entry that
names the Serial given up is requested, and a DENY message joins the Transmit Queue where the line is enabled: at the tail
while there is room, and in a full queue in place of the oldest SIGHTING that is not in flight, or, without one, not at all,
either way with one more in Dropped (R150, R151). DENY_REMOVE (R33) under MAINT authority: a Serial of 0 is BAD_ARGUMENT; an
absent one is NOT_FOUND and nothing changes; a present one's entry is removed, the others keep their order, and the DENY
notice is set. The list alone is reached: no message, no journal entry, no bank. That an outcome without a value leaves the
slot's Detail Value as it was is the model's choice (log 12). -/
def Obligations.DenyCommandsChangeTheList : Prop :=
  (∀ (s : State) (g : GoWrite), s.CommandReady g → (s.commandRecord g.slot g.mode).code = 11 →
     let r := s.commandRecord g.slot g.mode
     let x : Serial := r.arg4 ++ r.arg3
     let entry : DenyEntry := ⟨x, .own, .operator, s.clock⟩
     let give (e : DenyEntry) : Bool := e.origin == .neighbor
     (x = 0 → s.Answers (.denyAdd g) g .badArgument .none none s)
     ∧ (x ≠ 0 → (∃ e ∈ s.denyList, e.serial = x) → s.Answers (.denyAdd g) g .done .present none s)
     ∧ (x ≠ 0 → (∀ e ∈ s.denyList, e.serial ≠ x) →
       ∃ t, exec (.denyAdd g) s = .next t
         ∧ s.Completes g .done .none none
             { s with denyList := t.denyList, journal := t.journal, line := { s.line with
                         queue := t.line.queue, dropped := t.line.dropped }
                      status := { s.status with notices := t.status.notices } } t
         ∧ s.Notified t [.deny]
         ∧ (s.denyList.length < 256 → t.denyList = s.denyList ++ [entry])
         ∧ (256 ≤ s.denyList.length → s.denyList.any give = true → t.denyList = s.denyList.eraseP give ++ [entry])
         ∧ (256 ≤ s.denyList.length → s.denyList.any give = false → t.denyList = s.denyList.tail ++ [entry])
         ∧ t.journal = (s.request (.append
               { lane := none, time := s.clock, flags := FareFlags.none, degraded := false
                 body := .denyAdded x
                   (if s.denyList.length < 256 then none
                    else if s.denyList.any give then (s.denyList.find? give).map (·.serial)
                    else s.denyList.head?.map (·.serial)) .own .operator 0
                 reserved := none } .nothing)).journal
         ∧ (s.cfg.lineEnabled = false → t.line = s.line)
         ∧ (s.cfg.lineEnabled = true →
             let message : QueuedMessage := ⟨.deny x .operator, false⟩
             let yields (m : QueuedMessage) : Prop := m.inFlight = false ∧ ∃ y c b, m.message = .sighting y c b
             (s.line.queue.length < 32 → t.line = { s.line with queue := s.line.queue ++ [message] })
             ∧ (32 ≤ s.line.queue.length → ∀ before m after, s.line.queue = before ++ m :: after → yields m →
                 (∀ o ∈ before, ¬yields o) →
                 t.line = { s.line with
                   queue := before ++ after ++ [message], dropped := min 65535 (s.line.dropped + 1) })
             ∧ (32 ≤ s.line.queue.length → (∀ m ∈ s.line.queue, ¬yields m) →
                 t.line = { s.line with dropped := min 65535 (s.line.dropped + 1) }))))
  ∧ (∀ (s : State) (g : GoWrite), s.CommandReady g → (s.commandRecord g.slot g.mode).code = 12 →
       (s.commandRecord g.slot g.mode).authority = .maint →
       let r := s.commandRecord g.slot g.mode
       let x : Serial := r.arg4 ++ r.arg3
       (x = 0 → s.Answers (.denyRemove g) g .badArgument .none none s)
       ∧ (x ≠ 0 → (∀ e ∈ s.denyList, e.serial ≠ x) → s.Answers (.denyRemove g) g .notFound .none none s)
       ∧ (x ≠ 0 → ∀ before after e, s.denyList = before ++ e :: after → e.serial = x → (∀ d ∈ before, d.serial ≠ x) →
         s.Answers (.denyRemove g) g .done .none none
           { s with denyList := before ++ after
                    status := { s.status with notices := s.status.notices ||| BitVec.ofNat 18 (2 ^ 14) } }))

/-! ### Lanes: the commands (05) -/

/-- PROCEED (R83, R84) and CANCEL (R83, R85). At a lane that is appending the command waits, its slot busy (R80). At one that
is not: the checks in order, each failure changing nothing; then PROCEED requests a PENDING entry with the charged values for
a first verdict, and releases a re-issue at once; CANCEL requests a CANCELLED entry, or for a re-issue NOT_CHARGED with flag
CANCELLED, which resolves the Pending Sequence, with the landed values. The lane is then appending, and the slot stays busy
until the append completes. A command that waited is taken by the same checks, against the state of then (R80);
AppendCompletes, VerdictRecordIsWritten and RecoveryComparisonDecides say when. That an outcome without a value keeps the
Detail Value is the model's choice (log 12), and so is that waiting commands are taken in the order they came (log 39). -/
def Obligations.ProceedAndCancelDecide : Prop :=
  (∀ (s : State) (g : GoWrite), s.CommandReady g →
    let r := s.commandRecord g.slot g.mode
    let check (i : Instr) : Prop :=
      ((∀ n, ¬s.Names r.target n) → s.Answers i g .badArgument .none none s)
      ∧ (∀ n, s.Names r.target n → (s.lane n).appending = true → s.GoesOn i g
          { s with lanes := s.lanes.set n { s.lane n with waiting := (s.lane n).waiting ++ [g.slot] } })
      ∧ ∀ n, s.Names r.target n → (s.lane n).appending = false →
        (r.arg3 = 0 → s.Answers i g .badArgument .none none s)
        ∧ (r.arg3 ≠ 0 → r.arg3.toNat ≠ (s.lane n).verdictNumber → s.Answers i g .badSequence .none none s)
        ∧ (r.arg3 ≠ 0 → r.arg3.toNat = (s.lane n).verdictNumber → (s.lane n).state ≠ .decided →
            s.Answers i g .refusedState .none none s)
    (r.code = 1 → check (.proceed g)
      ∧ ∀ n, s.Names r.target n → (s.lane n).appending = false → r.arg3 ≠ 0 →
        r.arg3.toNat = (s.lane n).verdictNumber → (s.lane n).state = .decided →
        ((s.lane n).pendingSeq = none →
          s.GoesOn (.proceed g) g (s.appends n (s.entryOf n .pending true none) (.release n g.slot)))
        ∧ ((s.lane n).pendingSeq ≠ none →
          s.Answers (.proceed g) g .done .none none
            { s with lanes := s.lanes.set n { s.lane n with state := .released, timer := .writeTimeout } }))
    ∧ (r.code = 2 → check (.cancel g)
      ∧ ∀ n, s.Names r.target n → (s.lane n).appending = false → r.arg3 ≠ 0 →
        r.arg3.toNat = (s.lane n).verdictNumber → (s.lane n).state = .decided →
        ((s.lane n).pendingSeq = none →
          s.GoesOn (.cancel g) g (s.appends n (s.entryOf n .cancelled false none) (.toIdle n (some g.slot))))
        ∧ ∀ q, (s.lane n).pendingSeq = some q →
          s.GoesOn (.cancel g) g
            (s.appends n (s.entryOf n .notChargedCancelled false (some q)) (.toIdle n (some g.slot)))))
  ∧ ∀ (s : State) (k : SlotId) (r : CommandRecord) (n : Lane), s.CommandWaits k r n → r.code = 1 ∨ r.code = 2 →
    let t := s.laneCommand k
    ((s.lane n).appending = true →
      t = { s with lanes := s.lanes.set n { s.lane n with waiting := (s.lane n).waiting ++ [k] } })
    ∧ ((s.lane n).appending = false →
      (r.arg3 = 0 → s.Ends k .badArgument .none s t)
      ∧ (r.arg3 ≠ 0 → r.arg3.toNat ≠ (s.lane n).verdictNumber → s.Ends k .badSequence .none s t)
      ∧ (r.arg3 ≠ 0 → r.arg3.toNat = (s.lane n).verdictNumber → (s.lane n).state ≠ .decided →
          s.Ends k .refusedState .none s t)
      ∧ (r.arg3 ≠ 0 → r.arg3.toNat = (s.lane n).verdictNumber → (s.lane n).state = .decided →
        (r.code = 1 → (s.lane n).pendingSeq = none →
          t = s.appends n (s.entryOf n .pending true none) (.release n k))
        ∧ (r.code = 1 → (s.lane n).pendingSeq ≠ none →
          s.Ends k .done .none
            { s with lanes := s.lanes.set n { s.lane n with state := .released, timer := .writeTimeout } } t)
        ∧ (r.code = 2 → (s.lane n).pendingSeq = none →
          t = s.appends n (s.entryOf n .cancelled false none) (.toIdle n (some k)))
        ∧ ∀ q, r.code = 2 → (s.lane n).pendingSeq = some q →
          t = s.appends n (s.entryOf n .notChargedCancelled false (some q)) (.toIdle n (some k))))

/-- LANE_RESET (R98) at a lane that is neither appending nor comparing whose run has not been handed over and whose REFUSAL
entry is not being appended: IDLE answers DONE with detail IDLE; SCREENING sets Reset Requested and waits for the run, a
second reset is BUSY; DECIDED, RELEASED and RECOVERY request their entry with flag RESET, and the slot stays busy until it is
whole. While the lane is appending, or comparing, or its Verdict Record is being written after the hand-over, the command
waits (R80, R92, R98), and so it does while the REFUSAL entry of its run is being appended. A LANE_RESET that waited is taken
in the same way, against the state of then (R80). The model's choices: the wait for the REFUSAL entry (log 15), that the
comparing mark holds until the Verdict Record of the comparison's outcome is whole (log 18), that waiting commands are taken
in the order they came (log 39), and that DONE and BUSY leave the Detail Value as it was (log 12). -/
def Obligations.LaneResetActsByState : Prop :=
  (∀ (s : State) (g : GoWrite), s.CommandReady g → (s.commandRecord g.slot g.mode).code = 3 →
    let r := s.commandRecord g.slot g.mode
    let handed (n : Lane) : Prop := (∃ j ∈ s.status.records, j.lane = n ∧ (j.next = .decided ∨ j.next = .idle))
      ∨ ∃ q, s.screening.run = some q ∧ q.lane = n ∧ q.stage = .refusing
    let appends (n : Lane) (e : EntryDraft) : State := s.appends n e (.toIdle n (some g.slot))
    ((∀ n, ¬s.Names r.target n) → s.Answers (.laneReset g) g .badArgument .none none s)
    ∧ ∀ n, s.Names r.target n →
      (((s.lane n).appending = true ∨ (s.lane n).comparing = true ∨ handed n) →
        s.GoesOn (.laneReset g) g
          { s with lanes := s.lanes.set n { s.lane n with waiting := (s.lane n).waiting ++ [g.slot] } })
      ∧ ((s.lane n).appending = false → (s.lane n).comparing = false → ¬handed n →
        ((s.lane n).state = .idle → s.Answers (.laneReset g) g .done .idle none s)
        ∧ ((s.lane n).state = .screening → (s.lane n).resetRequested = true →
            s.Answers (.laneReset g) g .busy .none none s)
        ∧ ((s.lane n).state = .screening → (s.lane n).resetRequested = false →
            s.GoesOn (.laneReset g) g
              { s with lanes := s.lanes.set n { s.lane n with resetRequested := true, resetSlot := some g.slot } })
        ∧ ((s.lane n).state = .decided → (s.lane n).pendingSeq = none →
            s.GoesOn (.laneReset g) g (appends n (s.entryOf n .cancelledReset false none)))
        ∧ (∀ q, (s.lane n).state = .decided → (s.lane n).pendingSeq = some q →
            s.GoesOn (.laneReset g) g (appends n (s.entryOf n .notChargedReset false (some q))))
        ∧ ((s.lane n).state = .released ∨ (s.lane n).state = .recovery →
            s.GoesOn (.laneReset g) g (appends n (s.entryOf n .uncertainReset true (s.lane n).pendingSeq)))))
  ∧ ∀ (s : State) (k : SlotId) (r : CommandRecord) (n : Lane), s.CommandWaits k r n → r.code = 3 →
    let t := s.laneCommand k
    let handed : Prop := (∃ j ∈ s.status.records, j.lane = n ∧ (j.next = .decided ∨ j.next = .idle))
      ∨ ∃ q, s.screening.run = some q ∧ q.lane = n ∧ q.stage = .refusing
    (((s.lane n).appending = true ∨ (s.lane n).comparing = true ∨ handed) →
      t = { s with lanes := s.lanes.set n { s.lane n with waiting := (s.lane n).waiting ++ [k] } })
    ∧ ((s.lane n).appending = false → (s.lane n).comparing = false → ¬handed →
      ((s.lane n).state = .idle → s.Ends k .done .idle s t)
      ∧ ((s.lane n).state = .screening → (s.lane n).resetRequested = true → s.Ends k .busy .none s t)
      ∧ ((s.lane n).state = .screening → (s.lane n).resetRequested = false →
          t = { s with lanes := s.lanes.set n { s.lane n with resetRequested := true, resetSlot := some k } })
      ∧ ((s.lane n).state = .decided → (s.lane n).pendingSeq = none →
          t = s.appends n (s.entryOf n .cancelledReset false none) (.toIdle n (some k)))
      ∧ (∀ q, (s.lane n).state = .decided → (s.lane n).pendingSeq = some q →
          t = s.appends n (s.entryOf n .notChargedReset false (some q)) (.toIdle n (some k)))
      ∧ ((s.lane n).state = .released ∨ (s.lane n).state = .recovery →
          t = s.appends n (s.entryOf n .uncertainReset true (s.lane n).pendingSeq) (.toIdle n (some k))))

/-! ### The journal and the banks: the commands (06, 03) -/

/-- JOURNAL_RELEASE (R115): BUSY while another is in progress; BAD_SEQUENCE unless Released Sequence < q < Next Sequence;
REFUSED_STATE with the lowest Pending Sequence at or below q as Detail Value (detail OPEN_PENDING); each changing nothing.
Else the rewrite of the Unit Record is requested and the slot stays busy. The Detail Value stands in the Status Area before
the result word is written (R178), the STATUS region and the command slots being apart (R161). The model's choices: that no
word of the Status Area past the slot's Detail Value is written before the result word (log 48), an outcome without a value
leaves the Detail Value as it was (log 12), and the rewrite carries what holds when it is taken up (log 21) and, with no bank
ACTIVE, the former bank (log 55). -/
def Obligations.JournalReleaseIsChecked : Prop :=
  ∀ (s : State) (g : GoWrite), s.CommandReady g → (s.commandRecord g.slot g.mode).code = 13 →
    let q := (s.commandRecord g.slot g.mode).arg3.toNat
    (s.journal.release ≠ none → s.Answers (.journalRelease g) g .busy .none none s)
    ∧ (s.journal.release = none → ¬(s.journal.released < q ∧ q < s.journal.next) →
        s.Answers (.journalRelease g) g .badSequence .none none s)
    ∧ (s.journal.release = none → s.journal.released < q → q < s.journal.next →
      (∀ p n, (s.lane n).pendingSeq = some p → p ≤ q →
        (∀ m p', (s.lane m).pendingSeq = some p' → p ≤ p') → s.StatusApart →
        s.Answers (.journalRelease g) g .refusedState .openPending (some (BitVec.ofNat 32 p)) s)
      ∧ ((∀ n p, (s.lane n).pendingSeq = some p → q < p) →
        s.GoesOn (.journalRelease g) g
          (State.request { s with journal := { s.journal with release := some (g.slot, q) } } (.rewrite true))))

/-- BANK_SWITCH (R47) under MAINT authority: a target that names neither bank is BAD_ARGUMENT; while a validation is in
progress BUSY; a bank that is neither STAGING nor VALID without pins REFUSED_STATE; each changing nothing. Else the bank
becomes VALIDATING, the validation mark names it, and the slot stays busy. That an outcome without a value leaves the slot's
Detail Value as it was is the model's choice (log 12). -/
def Obligations.BankSwitchStartsValidation : Prop :=
  ∀ (s : State) (g : GoWrite), s.CommandReady g → (s.commandRecord g.slot g.mode).code = 10 →
    (s.commandRecord g.slot g.mode).authority = .maint →
    let target := (s.commandRecord g.slot g.mode).target
    let starts (x : BankId) (a b : Bank) (named : Bank) : Prop :=
      (s.banks.validation ≠ none → s.Answers (.bankSwitch g) g .busy .none none s)
      ∧ (s.banks.validation = none →
        ¬(named.state = some .staging ∨ (named.state = some .valid ∧ named.pins = 0)) →
        s.Answers (.bankSwitch g) g .refusedState .none none s)
      ∧ (s.banks.validation = none → (named.state = some .staging ∨ (named.state = some .valid ∧ named.pins = 0)) →
        s.GoesOn (.bankSwitch g) g { s with banks := { s.banks with a := a, b := b, validation := some (x, g.slot) } })
    (target.toNat ≠ 1 → target.toNat ≠ 2 → s.Answers (.bankSwitch g) g .badArgument .none none s)
    ∧ (target.toNat = 1 → starts .a { s.banks.a with state := some .validating } s.banks.b s.banks.a)
    ∧ (target.toNat = 2 → starts .b s.banks.a { s.banks.b with state := some .validating } s.banks.b)

/-! ### The neighbor line: the commands (08) -/

/-- LINE_RESTART (R149) under MAINT authority, in every membership state: a frame being sent is abandoned, the Transmit Queue
and the Presence table are emptied, and the controller enters LISTEN, its clock running unaligned with the silence timer,
where the line is enabled, and stays SILENT where it is not. The Dropped and framing-error counts and the Check Results table
stay, and nothing but the line and the LINE notice changes. LINE_CHECK_START and LINE_CHECK_STOP (R156) under MAINT
authority: a mode other than LINE (1) and WRAP (2), or an injection other than ON (1) and OFF (2), is BAD_ARGUMENT; a start
outside JOINED and a stop outside CHECK are REFUSED_STATE; each changing nothing. A start clears every Check Results entry,
seeds the generator, sets the send Index to 0, and enters CHECK with the mode and injection; a stop of a LINE check returns
to JOINED and a stop of a WRAP check enters LISTEN, its clock running unaligned. Both set the LINE notice. The model's
choices: an entry to LISTEN keeps the slot and the cycle number (log 28), an entry to SILENT empties the inbox (log 29), the
stop of a WRAP check abandons the frame on the line (log 30), a CHECK frame on the line at the stop of a LINE check goes on
(log 45), and an outcome without a value leaves the Detail Value as it was (log 12). -/
def Obligations.LineCommandsAct : Prop :=
  (∀ (s : State) (g : GoWrite), s.CommandReady g → (s.commandRecord g.slot g.mode).code = 17 →
     (s.commandRecord g.slot g.mode).authority = .maint →
     ∃ t, exec (.lineRestart g) s = .next t
       ∧ s.Completes g .done .none none
           { s with line := t.line, status := { s.status with notices := t.status.notices } } t
       ∧ t.line.queue = [] ∧ t.line.sending = none ∧ t.line.inbox = []
       ∧ t.line.presence = Vector.replicate 16 ⟨none, 4⟩
       ∧ t.line.dropped = s.line.dropped ∧ t.line.framingErrors = s.line.framingErrors
       ∧ t.line.results = s.line.results ∧ t.line.slot = s.line.slot ∧ t.line.cycle = s.line.cycle
       ∧ t.line.aligned = false ∧ t.line.misaligned = 0 ∧ t.line.mode = none
       ∧ t.line.membership = (if s.cfg.lineEnabled = true then .listen else .silent)
       ∧ t.line.running = s.cfg.lineEnabled ∧ t.line.silenceTimer = s.cfg.lineEnabled
       ∧ (s.cfg.lineEnabled = true → t.noticed .line = true)
       ∧ ∀ n, n ≠ Notice.line → t.noticed n = s.noticed n)
  ∧ (∀ (s : State) (g : GoWrite), s.CommandReady g → (s.commandRecord g.slot g.mode).authority = .maint →
       let r := s.commandRecord g.slot g.mode
       let noticed : StatusWriter := { s.status with notices := s.status.notices ||| BitVec.ofNat 18 (2 ^ 12) }
       (r.code = 18 →
         (¬(1 ≤ r.arg3.toNat ∧ r.arg3.toNat ≤ 2 ∧ 1 ≤ r.arg4.toNat ∧ r.arg4.toNat ≤ 2) →
           s.Answers (.lineCheckStart g) g .badArgument .none none s)
         ∧ (1 ≤ r.arg3.toNat → r.arg3.toNat ≤ 2 → 1 ≤ r.arg4.toNat → r.arg4.toNat ≤ 2 →
           (s.line.membership ≠ .joined → s.Answers (.lineCheckStart g) g .refusedState .none none s)
           ∧ (s.line.membership = .joined →
             s.Answers (.lineCheckStart g) g .done .none none
               { s with
                 line := { s.line with
                   membership := .check, results := Vector.replicate 16 ⟨false, none, 0, 0, 0, none⟩, sendIndex := 0
                   generator := 0x7FFF, mode := some (if r.arg3.toNat = 1 then .line else .wrap)
                   injection := decide (r.arg4.toNat = 1) }
                 status := noticed })))
       ∧ (r.code = 19 →
         (s.line.membership ≠ .check → s.Answers (.lineCheckStop g) g .refusedState .none none s)
         ∧ (s.line.membership = .check → s.line.mode ≠ some .wrap →
           s.Answers (.lineCheckStop g) g .done .none none
             { s with line := { s.line with membership := .joined, mode := none }, status := noticed })
         ∧ (s.line.membership = .check → s.line.mode = some .wrap →
           s.Answers (.lineCheckStop g) g .done .none none
             { s with
               line := { s.line with
                 membership := .listen, mode := none, running := true, aligned := false, silenceTimer := true
                 joining := false, misaligned := 0, sending := none
                 queue := s.line.queue.map (fun m => { m with inFlight := false }) }
               status := noticed })))

/-! ### Start-up (11, 06, 03) -/

/-- RESET_N_ASSERT (R185): from every state the machine is the one of reset, every block at its reset value and the outputs
dropped, but for memory, the levels of the inputs, and what a blocked beam shows at once (R124); while RESET_N is asserted no
processor word is answered. RESET_N_RELEASE (R185, R138): LOADING begins, with every gate EMERGENCY or CLOSED as the
EMERGENCY input has it, and nothing else changes; without an assertion nothing happens (log 2). The model's choices: the
reset values that the spec does not give (the configuration before a load, the journal's Next and Released Sequence, the slot
clock, the line check's mode, Index and generator, log 13, and the Detail Values, log 12), that the answers given are no
longer shown (log 34), and the queue of commands and the count of free values, which are the model's own (logs 1, 9). -/
def Obligations.ResetClearsAndReleases : Prop :=
  (∀ s : State, ∃ t, exec .resetNAssert s = .next t
    ∧ t = { State.reset with
        pending := s.pending, freeDraws := s.freeDraws, memory := s.memory, emergency := s.emergency
        reader := { State.reset.reader with requests := s.reader.requests }, gates := t.gates }
    ∧ t.startUp = { unit := .inReset, clamped := false, loadFault := none, usableSlots := none, selectionDone := false
                    scanDone := false, got := [] }
    ∧ t.cfg.regions = [] ∧ t.cfg.keys = [] ∧ t.cfg.noticeMask = 0
    ∧ t.processor = { words := [], taken := false, held := none, answers := [] }
    ∧ t.reader = { requests := s.reader.requests, owner := none, last := 3, holdTimer := false, barred := Quad.all false
                   words := [], taken := false, left := 0, ending := false, signals := [] }
    ∧ t.arbiter = { losses := 0, requests := [] } ∧ t.budget = 255
    ∧ t.faultRecord = { first := none, further := 0 } ∧ t.verdictCount = 0
    ∧ (∀ n, t.lane n = {
        state := .idle, verdictNumber := 0, landed := none, composed := none, verdict := none, pinned := none
        reservation := 0, pendingSeq := none, reissues := 0, timer := .stopped, resetRequested := false, mask := 0
        arrival := none, appending := false, comparing := false, got := [], resetSlot := none, waiting := [] })
    ∧ t.screening = { queue := [], run := none } ∧ t.fareUnit = { overrideOn := false, factor := 1000 }
    ∧ t.denyList = [] ∧ t.sightings = []
    ∧ t.journal.reservationTotal = 0 ∧ t.journal.unrecorded = 0 ∧ t.journal.job = none ∧ t.journal.queue = []
    ∧ t.journal.release = none ∧ t.journal.resolutions = 0
    ∧ t.banks = { a := { state := none, pins := 0, version := 0 }, b := { state := none, pins := 0, version := 0 }
                  validation := none, got := [], fallback := false, due := none }
    ∧ (∀ n, let g := s.gate n
        t.gate n = {
          direction := .entry, state := .closed, credits := [], inputA := g.inputA, inputB := g.inputB
          beams := if g.inputA then (if g.inputB then .ab else .a) else if g.inputB then .b else .clear
          entryBeam := if g.inputA = false ∧ g.inputB = false then .absent else .unknown, crossed := false
          headTimer := false, expiryPending := false, alarmTimer := false })
    ∧ t.line.membership = .silent ∧ t.line.aligned = false ∧ t.line.running = false ∧ t.line.silenceTimer = false
    ∧ t.line.joining = false ∧ t.line.misaligned = 0 ∧ t.line.queue = [] ∧ t.line.dropped = 0 ∧ t.line.framingErrors = 0
    ∧ t.line.sending = none ∧ t.line.inbox = [] ∧ t.line.presence = Vector.replicate 16 { lastCycle := none, silence := 4 }
    ∧ t.line.results = Vector.replicate 16 { synced := false, lastIndex := none, checked := 0, mismatches := 0
                                             missing := 0, first := none }
    ∧ (∀ k, t.slot k = { busy := false, lastTaken := 0, reading := none, command := none, result := none
                         detailValue := 0 })
    ∧ t.status = { notices := 0, stale := [], changeCount := none, due := [], records := [] } ∧ t.clock = none
    ∧ (∀ n, t.permit n = false ∧ t.grantLine n = false) ∧ t.attn = false ∧ t.configSelect = false)
  ∧ (∀ (s : State) (a : BitVec 32) (mode : Mode) (enables : BitVec 4) (data : Word), s.unit = .inReset →
      s.Yields (.processorWordRead a mode) s ∧ s.Yields (.processorWordWrite a mode enables data) s)
  ∧ (∀ s : State, s.unit ≠ .inReset → s.Yields .resetNRelease s)
  ∧ ∀ s : State, s.unit = .inReset →
    ∃ t, exec .resetNRelease s = .next t
      ∧ ({ s with startUp := { s.startUp with unit := .loading }, gates := t.gates }).Mirrored t
      ∧ t.configSelect = true
      ∧ ∀ n, t.gate n = { s.gate n with
          state := if s.emergency = true then .emergency else .closed
          headTimer := false, expiryPending := false, alarmTimer := false }

/-- CONFIGURATION_LOAD_END (R187, R188) in LOADING: a structurally faulty image leaves the unit FAULTED with its first cause
and the command slots that are usable, and nothing else changes; a sound one is loaded, clamped, and the unit is SCANNING,
with each present gate in the configured Direction and each absent one CLOSED (R120, R138), and, in the Status Writer (R184),
every word but the Change Count and the region copies stale and an odd Change Count, one above the even one that the word in
memory gives. What is structurally faulty and how the values are clamped is stated by LoadIsJudgedAndClamped. No request of
place 5 or before it waits at the arbiter when the Change Count word is read. That both banks are VALIDATING from this event
on is the model's choice (log 26); R54 says so from the start of selection. -/
def Obligations.ConfigurationLoadEnds : Prop :=
  ∀ (s : State) (rom : List Byte), s.unit = .loading →
    (∀ cause, loadFaultOf rom = some cause →
      s.Yields (.configurationLoadEnd rom) { s with startUp := { s.startUp with
        unit := .faulted, loadFault := some cause, usableSlots := usableSlotsOf rom } })
    ∧ (loadFaultOf rom = none → s.PathFree .statusArea 5 →
      ∃ t, exec (.configurationLoadEnd rom) s = .next t
        ∧ t = { s with
            cfg := (loadImage rom).1, startUp := { s.startUp with unit := .scanning, clamped := (loadImage rom).2 }
            gates := t.gates, memory := t.memory, budget := t.budget, faultRecord := t.faultRecord
            status := { t.status with records := s.status.records }
            arbiter := { s.arbiter with requests := t.arbiter.requests }
            banks := { s.banks with
              a := { s.banks.a with state := some .validating }, b := { s.banks.b with state := some .validating } } }
        ∧ s.SameBytes t
        ∧ (∀ n, t.gate n = { s.gate n with direction := t.cfg.directions.get n, state := (t.gate n).state
                                           headTimer := (t.gate n).headTimer
                                           expiryPending := (t.gate n).expiryPending
                                           alarmTimer := (t.gate n).alarmTimer })
        ∧ (∀ n, t.present n = true → t.gate n = { s.gate n with direction := t.cfg.directions.get n })
        ∧ (∀ n, t.present n = false → (t.gate n).state = .closed)
        ∧ (∀ i, 1 ≤ i → i < 1024 → ¬(216 ≤ i ∧ i < 280) → i ∈ t.status.stale)
        ∧ (s.memory.health (t.statusAddress 0) = .clean →
            t.status.changeCount = some (if (s.memory.word (t.statusAddress 0)).getLsbD 0 = true then
              s.memory.word (t.statusAddress 0) + 2 else s.memory.word (t.statusAddress 0) + 1)))

/-- What CONFIGURATION_LOAD_END judges and loads (R186, R187, R161, R3; layout 12.8), of the bytes from the ROM, a silent one
giving all ones. The first cause, in R187's order: CHECK where the CRC-32 of bytes 0 to 1,019 is not that of bytes 1,020 to
1,023; KIND where a region entry's Kind is none of the eight; REGION where the map is not sound (each mandatory Kind once,
every Size in its range, no region past 16 MiB, no address shared); KEY where not exactly one key slot has Use CURRENT; else
none. Of any image each value is loaded clamped to the nearest end of its range, the penalty fare to the clamped ceiling; a
right that is none of three is none, a direction that is neither is ENTRY, a Use that is none of three is RETIRED, and with
no lane present lane 0 is; the CLAMPED flag says whether any of this changed a value. The model's choices: 288, 289 and 290
are one byte each (log 47), and each item is clamped whatever the other entries are (log 33). -/
def Obligations.LoadIsJudgedAndClamped : Prop :=
  ∀ rom : List Byte,
    let byte (i : Nat) : Nat := (rom.getD i 0xFF).toNat
    let half (i : Nat) : Nat := byte i + 256 * byte (i + 1)
    let word (i : Nat) : Nat := half i + 65536 * half (i + 2)
    let mismatch : Prop := (crc32 ((List.range 1020).map (fun i => rom.getD i 0xFF))).toNat ≠ word 1020
    let kind (r : Nat) : Nat := byte (16 * r)
    let base (r : Nat) : Nat := word (16 * r + 8)
    let size (r : Nat) : Nat := word (16 * r + 12)
    let unknown : Prop := ∃ r, r < 16 ∧ 7 < kind r
    let sized (r : Nat) : Prop :=
      (1 ≤ kind r → kind r ≤ 3 → size r = 1) ∧ (kind r = 4 → ∃ p, 1 ≤ p ∧ p ≤ 9 ∧ size r = 2 ^ p)
      ∧ (kind r = 5 ∨ kind r = 6 → 16 ≤ size r ∧ size r ≤ 256) ∧ (kind r = 7 → 1 ≤ size r)
    let sound : Prop :=
      (∀ k, 1 ≤ k → k ≤ 6 → ∃ r, r < 16 ∧ kind r = k ∧ ∀ q, q < 16 → kind q = k → q = r)
      ∧ ∀ r, r < 16 → kind r ≠ 0 → sized r ∧ base r + size r ≤ 4096
        ∧ ∀ q, q < r → kind q ≠ 0 → base q + size q ≤ base r ∨ base r + size r ≤ base q
    let use (k : Nat) : Nat := byte (256 + 8 * k + 1)
    let keyed : Prop := ∃ k, k < 4 ∧ use k = 1 ∧ ∀ j, j < 4 → use j = 1 → j = k
    let cfg : Configuration := (loadImage rom).1
    let right (v : Nat) : Right := if v = 1 then .readOnly else if v = 2 then .readWrite else .denied
    let direction (n : Lane) : Nat := byte (296 + n.val) / 2 % 4
    let marked (n : Lane) : Prop := byte (296 + n.val) % 2 = 1
    let held (low high v : Nat) : Nat := max low (min high v)
    let items : List (Nat × Nat × Nat) :=
      [ (0, 15, byte 288), (1, 8, byte 290), (1, 4095, half 292), (0, 15, byte 294), (2, 60, half 300)
      , (500, 10000, half 302), (5, 60, half 304), (0, 3, half 306), (3, 20, half 308), (2, 30, half 310)
      , (1, 20, half 312), (0, 300, half 314), (5, 240, half 316), (30, 600, half 320), (0, 120, half 322)
      , (0, 3, half 324), (0, 65535, half 326), (0, 2000, half 328), (1, 100, half 330), (1, 65535, half 332)
      , (0, held 1 65535 (half 332), half 334), (0, 1439, half 336) ]
    (mismatch → loadFaultOf rom = some .check)
    ∧ (¬mismatch → unknown → loadFaultOf rom = some .kind)
    ∧ (¬mismatch → ¬unknown → ¬sound → loadFaultOf rom = some .region)
    ∧ (¬mismatch → ¬unknown → sound → ¬keyed → loadFaultOf rom = some .key)
    ∧ (¬mismatch → ¬unknown → sound → keyed → loadFaultOf rom = none)
    ∧ [cfg.unitId.val, cfg.slotLength, cfg.station, cfg.zone, cfg.decisionHold, cfg.writeTimeout, cfg.recoveryWindow,
       cfg.maximumReissues, cfg.passageTimeout, cfg.alarmHold, cfg.grantHoldLimit, cfg.repeatWindow, cfg.sightingsWindow,
       cfg.maximumJourney, cfg.transferWindow, cfg.maximumTransfers, cfg.transferDiscount, cfg.overdraftLimit,
       cfg.roundingUnit, cfg.fareCeiling, cfg.penaltyFare, cfg.serviceDayStart]
        = items.map (fun x => held x.1 x.2.1 x.2.2)
    ∧ (cfg.lineEnabled = true ↔ byte 289 = 1)
    ∧ (∀ n, cfg.present.get n = true ↔ marked n ∨ (n = 0 ∧ ∀ m, ¬marked m))
    ∧ (∀ n, cfg.directions.get n = if direction n = 2 then .exit else .entry)
    ∧ (∀ i : Fin 18, cfg.noticeMask.getLsbD i.val = (word 340).testBit i.val)
    ∧ cfg.regions.length = 16 ∧ cfg.keys.length = 4
    ∧ (∀ r, r < 16 → kind r ≤ 7 → ∃ e, cfg.regions[r]? = some e ∧ e.kind.code = kind r ∧ e.base = base r ∧ e.size = size r
        ∧ e.service = right (byte (16 * r + 1)) ∧ e.maint = right (byte (16 * r + 2)) ∧ e.reader = right (byte (16 * r + 3))
        ∧ ∀ n, e.admitted.get n = (byte (16 * r + 4)).testBit n.val)
    ∧ (∀ k, k < 4 → ∃ e, cfg.keys[k]? = some e ∧ e.generation.toNat = byte (256 + 8 * k)
        ∧ e.key.toNat = word (256 + 8 * k + 4)
        ∧ e.use = if use k = 1 then .current else if use k = 2 then .accept else .retired)
    ∧ ((loadImage rom).2 = true ↔
        (∃ x ∈ items, x.2.2 < x.1 ∨ x.2.1 < x.2.2) ∨ (∀ n, ¬marked n) ∨ (∃ n, direction n ≠ 1 ∧ direction n ≠ 2)
        ∨ (∃ r i, r < 16 ∧ 1 ≤ i ∧ i ≤ 3 ∧ 2 < byte (16 * r + i)) ∨ (∃ k, k < 4 ∧ (use k = 0 ∨ 3 < use k)))

/-- BANK_SELECTION (R54, R55) in SCANNING, both banks VALIDATING: a named bank that passes validation is ACTIVE, and a
Version other than the recorded one sets the BANK notice; where it fails, the other bank is ACTIVE with the fallback mark if
it passes, and a BANK_FALLBACK entry is due and the BANK notice set, with a new bank or with none; with no named bank, A is
ACTIVE if it passes, else B. A bank that failed is DAMAGED for MEMORY, and any other bank that is not ACTIVE is EMPTY by a
Version of 0 and STAGING by another; a bank not validated is DAMAGED where its Version cannot be read. The Unit Record is
rewritten where it does not name the ACTIVE bank with its Version. Pins stay. Only the banks, the journal, notices, and what
reads leave behind change: no byte of memory does. Its words are read with no request of another waiting at the arbiter, and
none of them by an earlier choice. The model's choices: the Version kept by a bank whose Version cannot be
read (log 22), the rewrite left to the scan where the Unit Record is invalid (log 23), the BANK notice for damage met here
(log 26), Released Sequence taken from the valid record already here (log 50), the Second Copy read only when the First is
not valid (log 41), a copy valid whatever its Released Sequence (log 52), and, when no bank is ACTIVE, the bank that a later
rewrite names (log 55). -/
def Obligations.BankSelectionSettlesBanks : Prop :=
  ∀ s : State, s.unit = .scanning → s.startUp.selectionDone = false → s.startUp.got = [] → s.PathFree .startUp 7 →
    (∀ x, (s.bank x).state = some .validating) →
    let record : Option UnitRecord := s.readUnitRecord.1
    let valid (z : BankId) : Validation := (s.readUnitRecord.2.validate z).1
    let passes (z : BankId) : Prop := (valid z).failure = none
    let lost (z : BankId) : Prop := (valid z).failure.map (·.1) = some .memory
    let version (z : BankId) : Word := (valid z).version.getD (s.bank z).version
    let active (z : BankId) : Bank := { s.bank z with state := some .active, version := version z }
    let failed (z : BankId) : Bank := { s.bank z with
      version := version z
      state := if (valid z).failure.map (·.1) = some .memory then some .damaged
               else if version z = 0 then some .empty else some .staging }
    let header (z : BankId) : Nat := s.bankAddress z 0
    let unread (z : BankId) : Bank :=
      if s.memory.health (header z) = .uncorrectable then { s.bank z with state := some .damaged }
      else { s.bank z with
        version := s.memory.word (header z)
        state := if s.memory.word (header z) = 0 then some .empty else some .staging }
    let taken : Journal := match record with
      | none => s.journal
      | some r => { s.journal with released := r.released, activeBank := r.bank, activeVersion := r.version }
    let naming (z : BankId) : State :=
      { s with journal := { taken with activeBank := some z, activeVersion := version z } }
    let rewritten (z : BankId) : Journal := (State.request (naming z) (.rewrite false)).journal
    ∃ t, exec .bankSelection s = .next t
      ∧ ({ s with
            memory := t.memory, budget := t.budget, faultRecord := t.faultRecord, banks := t.banks, journal := t.journal
            startUp := { s.startUp with selectionDone := true }
            status := { s.status with notices := t.status.notices } }).Mirrored t
      ∧ s.SameBytes t
      ∧ (∀ x, (t.bank x).state = some .active ∨ (t.bank x).state = some .staging ∨ (t.bank x).state = some .empty
          ∨ (t.bank x).state = some .damaged)
      ∧ ¬((t.bank .a).state = some .active ∧ (t.bank .b).state = some .active)
      ∧ (∀ x, (t.bank x).pins = (s.bank x).pins)
      ∧ t.banks.validation = s.banks.validation
      ∧ (∀ r x, record = some r → r.bank = some x →
          (passes x →
            t.bank x = active x ∧ t.bank x.other = unread x.other ∧ t.banks.fallback = s.banks.fallback
            ∧ t.banks.due = s.banks.due
            ∧ (r.version = version x → t.journal = taken
                ∧ (s.memory.health (header x.other) ≠ .uncorrectable → t.noticed .bank = s.noticed .bank))
            ∧ (r.version ≠ version x → t.journal = rewritten x ∧ t.noticed .bank = true)
            ∧ (s.memory.health (header x.other) = .uncorrectable → t.noticed .bank = true))
          ∧ (¬passes x → passes x.other →
            t.bank x = failed x ∧ t.bank x.other = active x.other ∧ t.banks.fallback = true
            ∧ t.banks.due = some (.bankFallback x (some (x.other, version x.other)))
            ∧ t.journal = rewritten x.other ∧ t.noticed .bank = true)
          ∧ (¬passes x → ¬passes x.other →
            t.bank x = failed x ∧ t.bank x.other = failed x.other ∧ t.banks.fallback = s.banks.fallback
            ∧ t.banks.due = some (.bankFallback x none) ∧ t.journal = taken ∧ t.noticed .bank = true))
      ∧ (record.bind (·.bank) = none →
          t.banks.fallback = s.banks.fallback ∧ t.banks.due = s.banks.due
          ∧ (passes .a → t.bank .a = active .a ∧ t.bank .b = unread .b
              ∧ t.journal = (if record.isSome then rewritten .a else (naming .a).journal)
              ∧ (t.noticed .bank = true ↔ s.noticed .bank = true ∨ s.memory.health (header .b) = .uncorrectable))
          ∧ (¬passes .a → passes .b → t.bank .a = failed .a ∧ t.bank .b = active .b
              ∧ t.journal = (if record.isSome then rewritten .b else (naming .b).journal)
              ∧ (t.noticed .bank = true ↔ s.noticed .bank = true ∨ lost .a))
          ∧ (¬passes .a → ¬passes .b → t.bank .a = failed .a ∧ t.bank .b = failed .b ∧ t.journal = taken
              ∧ (t.noticed .bank = true ↔ s.noticed .bank = true ∨ lost .a ∨ lost .b)))

/-- START_UP_SCAN (R116 to R118) in SCANNING, after selection, with no rewrite in progress; else nothing happens (log 2).
Released Sequence is the Unit Record's, or 0 for an invalid one; Next Sequence is the first sequence from Released + 1 on
whose slot holds no valid entry with it, or has an uncorrectable word, at most Released + capacity + 1. Beyond an
uncorrectable slot the closing mark of each valid entry is rewritten with 0, up to the first slot without one; that this ends
at sequence Released + capacity, and that the marks are rewritten once all these slots are read, is the model's choice (log
24). Then, each while there is free space and counted Unrecorded
otherwise, an UNCERTAIN entry with flag RESTART is appended for every PENDING found that no entry found resolves, in
ascending order, then the entry due from selection, then RESTART, with the Next found, the resolutions made and whether the
Unit Record was invalid; an invalid Unit Record is rewritten. No other byte changes, JOURNAL_HIGH is set from the high-water
mark on (R113), and the processor's waiting reads go on (R189). Its words are read and written with no request of another
waiting at the arbiter, and none of them by an earlier choice. The model's choices besides: an invalid record is rewritten
here and a valid one in selection (log 23), the Second Copy is read only when the First is not valid (log 41), a copy is
valid whatever its Released Sequence (log 52), and, when no bank is ACTIVE, the bank that the rewrite names (log 55). -/
def Obligations.ScanRestoresJournal : Prop :=
  ∀ s : State,
    let runs : Prop := s.unit = .scanning ∧ s.startUp.selectionDone = true ∧ s.startUp.scanDone = false
      ∧ s.journal.job = none
    (¬runs → s.Yields .startUpScan s)
    ∧ (runs → s.startUp.got = [] → s.PathFree .startUp 7 → s.memory.wf = true → 64 ≤ s.regionSize .journal →
      let capacity := s.regionSize .journal / 32 - 1
      let slot (q : Nat) : Nat := s.regionBase .journal + 32 + 32 * (q % capacity)
      let entry (q : Nat) : Vector Word 8 := Vector.ofFn (fun i : Fin 8 => s.memory.word (slot q + 4 * i.val))
      let damaged (q : Nat) : Prop := ∃ i : Fin 8, s.memory.health (slot q + 4 * i.val) = .uncorrectable
      let good (q : Nat) : Prop := q ≠ 4294967295 ∧ ¬damaged q ∧ validEntry (entry q) q = true
      let record : Option UnitRecord := s.readUnitRecord.1
      let released := (record.map (·.released)).getD 0
      ∃ (next : Nat) (v y t : State), exec .startUpScan s = .next t ∧ v.Mirrored y ∧ y.resumeProcessor.Mirrored t
        ∧ (s.processor.words = [] → v.Mirrored t)
        ∧ released < next ∧ next ≤ released + capacity + 1 ∧ (∀ q, released < q → q < next → good q)
        ∧ (next ≤ released + capacity → ¬good next)
        ∧ (let found : List (Vector Word 8) := (List.range (next - released - 1)).map (fun i => entry (released + 1 + i))
           let resolved (e : Vector Word 8) : Bool := found.any (fun f =>
             decide (2 ≤ entryKind f ∧ entryKind f ≤ 14) && entryReference f == some e[0].toNat)
           let dangling := found.filter (fun e => entryKind e == 1 && !resolved e)
           let room := min (capacity - (next - 1 - released) - s.journal.reservationTotal)
             (4294967295 - next - s.journal.reservationTotal)
           let bare (body : EntryBody) : EntryDraft :=
             { lane := none, time := none, flags := FareFlags.none, degraded := false, body := body, reserved := none }
           let drafts : List EntryDraft := dangling.map restartResolution ++ s.banks.due.toList.map bare
             ++ [bare (.restart next (min dangling.length room) record.isNone)]
           let made := min drafts.length room
           let at_ (q j : Nat) : Word := v.memory.word (slot q + 4 * j)
           let cut (m : Nat) : Prop := damaged next ∧ next ≠ 4294967295 ∧ next < m ∧ m ≤ released + capacity
             ∧ ∀ q, next < q → q ≤ m → good q
           v = { s with
             memory := v.memory, budget := v.budget, faultRecord := v.faultRecord
             startUp := { s.startUp with scanDone := true }, banks := { s.banks with due := none }
             journal := { s.journal with
               next := next + made, released := released, resolutions := min dangling.length room
               unrecorded := if made < drafts.length then min 65535 (s.journal.unrecorded + (drafts.length - made))
                 else s.journal.unrecorded }
             status := { s.status with notices := v.status.notices } }
           ∧ (∀ i d, i < made → drafts[i]? = some d → ∀ j : Fin 8,
               at_ (next + i) j.val = (d.words (next + i))[j.val]
               ∧ v.memory.health (slot (next + i) + 4 * j.val) = .clean)
           ∧ (∀ i e, i < made → dangling[i]? = some e →
               at_ (next + i) 0 = BitVec.ofNat 32 (next + i) ∧ at_ (next + i) 7 = BitVec.ofNat 32 (next + i)
               ∧ bits (at_ (next + i) 1) 0 5 = 9 ∧ bits (at_ (next + i) 1) 5 9 = bits e[1] 5 9
               ∧ bits (at_ (next + i) 1) 14 17 = 131071 ∧ (at_ (next + i) 1).getLsbD 31 = true
               ∧ at_ (next + i) 2 = e[2] ∧ at_ (next + i) 3 = e[3] ∧ at_ (next + i) 4 = e[4] ∧ at_ (next + i) 5 = e[5]
               ∧ bits (at_ (next + i) 6) 0 16 = 0
               ∧ bits (at_ (next + i) 6) 16 16 = (next + i - e[0].toNat) % 65536)
           ∧ (∀ m, cut m → next + made ≤ m → at_ m 7 = 0)
           ∧ (record = none → ∀ j : Fin 8, v.memory.word (s.regionBase .journal + 4 * j.val)
               = (unitRecordWords 0 s.journal.activeBank s.journal.activeVersion)[j.val])
           ∧ (∀ b, (record = none → b < s.regionBase .journal ∨ s.regionBase .journal + 32 ≤ b) →
               (∀ i, i < made → b < slot (next + i) ∨ slot (next + i) + 32 ≤ b) →
               (∀ m, cut m → b < slot m + 28 ∨ slot m + 32 ≤ b) → v.memory.byte b = s.memory.byte b)
           ∧ (damaged next → next ≤ released + capacity → next ≠ 4294967295 → v.faultRecord.first ≠ none)
           ∧ (v.noticed .journalHigh = true ↔
               s.noticed .journalHigh = true ∨ 7 * capacity / 8 ≤ next + made - 1 - released)))

/-- ENTER_READY (R189, R190) once selection and the scan have ended: the unit is READY with its notice set, the region copies
are stale (R184), a waiting modem is granted (R12, R13), the line enters LISTEN where it is enabled (R143), and an asserted
EMERGENCY input requests its entry and sets its notice (R138). That LISTEN keeps the slot and the cycle is the model's choice
(log 28). -/
def Obligations.UnitEntersReady : Prop :=
  ∀ s : State, s.unit = .scanning → s.startUp.selectionDone = true → s.startUp.scanDone = true →
    ∃ t, exec .enterReady s = .next t
      ∧ ({ s with
            startUp := { s.startUp with unit := .ready }, reader := t.reader, line := t.line, journal := t.journal
            status := { s.status with notices := t.status.notices } }).Mirrored t
      ∧ t.noticed .ready = true
      ∧ (∀ i, 216 ≤ i → i < 280 → i ∈ t.status.stale)
      ∧ t.reader = (if s.reader.owner = none then s.reader.chosen s.cfg.present else s.reader)
      ∧ (s.cfg.lineEnabled = true → t.line.membership = .listen ∧ t.line.running = true ∧ t.line.aligned = false
          ∧ t.line.silenceTimer = true)
      ∧ (s.cfg.lineEnabled = false → t.line = s.line)
      ∧ (s.emergency = true → t.noticed .emergency = true
          ∧ t.journal = (s.request (.append
              { lane := none, time := s.clock, flags := FareFlags.none, degraded := false
                body := .emergencyStart s.cfg.present, reserved := none } .nothing)).journal)
      ∧ (s.emergency = false → t.journal = s.journal)

/-! ### The ports (01, 09) -/

/-- PROCESSOR_WORD_READ and PROCESSOR_WORD_WRITE (R159, R162 to R165, R172) at a free port in READY: an admitted read, and an
admitted write with a byte enable, to a watched word as to any other, wait for the Memory Arbiter and change nothing yet
(R166); what they do when they are chosen, ProcessorWordIsServed says. A write without byte enables needs no word operation
and acts at once (R171): it is answered; in a bank, the bank becomes STAGING (R45); a go word takes no command where it is no
go-write (R175), its Go Sequence as it stands being 0 or the last taken one, or its slot busy. A refused word is answered
ERROR, a read with all ones, its fault is recorded, and memory is unchanged. What the map admits, by area (R161 to R164):
OUTSIDE every region, OUTSIDE; a direction above the lesser of the ceiling and the configured right, RIGHTS; a go-write to a
busy slot, SLOT_BUSY; a MAINT write of a bank that is VALIDATING, ACTIVE or DAMAGED, or VALID with pins, BANK_LOCKED; and
everything else is admitted. So no processor write changes a Verdict Record, a write-back image, the Status Area, the JOURNAL
region or a result word of a slot (R163). In FAULTED the recovery map governs: SERVICE reads, MAINT reads and writes (R188).
The model's choices: words are taken in order and their answers kept as a list (log 5), the map takes a write again, with its
state test, in the event of its word operation (log 6), and the two lowest bits of an address select nothing (log 32). -/
def Obligations.ProcessorWordIsJudged : Prop :=
  (∀ (s : State) (address : BitVec 32) (mode : Mode), s.ProcessorTurn →
    let a := address.toNat / 4 * 4
    (∀ area, s.judge a (.processor mode) .read = .ok area →
      s.Yields (.processorWordRead address mode)
        { s with processor := { s.processor with words := [⟨a, mode, .read⟩], taken := true } })
    ∧ (∀ f, s.judge a (.processor mode) .read = .error f →
      s.Yields (.processorWordRead address mode)
        { s.faulted f .processor (some a) (some .read) (some mode) with
          processor := s.processor.answered (.failed (some (BitVec.allOnes 32))) })
    ∧ ∀ (enables : BitVec 4) (data : Word),
      (∀ f, s.judge a (.processor mode) (.write enables data) = .error f →
        s.Yields (.processorWordWrite address mode enables data)
          { s.faulted f .processor (some a) (some .write) (some mode) with
            processor := s.processor.answered (.failed none) })
      ∧ (∀ area, s.judge a (.processor mode) (.write enables data) = .ok area →
        (enables ≠ 0 → s.Yields (.processorWordWrite address mode enables data)
          { s with processor := { s.processor with words := [⟨a, mode, .write enables data⟩], taken := true } })
        ∧ (enables = 0 → (∀ k, area = .commandWord k 7 → s.memory.health a = .clean ∧
              (let q := goSequence (s.memory.word a)
               q = 0 ∨ q = (s.slot k).lastTaken ∨ (s.slot k).busy = true)) →
          (∀ x, area ≠ .bank x) → s.Yields (.processorWordWrite address mode enables data)
            { s with processor := s.processor.answered (.done none) })
        ∧ (∀ x, enables = 0 → area = .bank x → ∃ t, exec (.processorWordWrite address mode enables data) s = .next t
          ∧ ({ s with processor := s.processor.answered (.done none), banks := t.banks }).Mirrored t
          ∧ t.bank x = { s.bank x with state := some .staging }
          ∧ (∀ y, y ≠ x → t.bank y = s.bank y) ∧ t.banks.validation = s.banks.validation ∧ t.banks.got = s.banks.got
          ∧ t.banks.fallback = s.banks.fallback ∧ t.banks.due = s.banks.due))
      ∧ (∀ r o, s.MapsTo a r o → r.PartOwned o →
        s.Yields (.processorWordWrite address mode enables data)
          { s.faulted .rights .processor (some a) (some .write) (some mode) with
            processor := s.processor.answered (.failed none) }))
  ∧ (∀ (s : State) (a : Nat) (r : RegionEntry) (o : Nat) (mode : Mode), s.MapsTo a r o →
    let right : Right := match mode with | .service => r.service | .maint => r.maint
    let judged (x : Access) : Except PathFault Area := s.judge a (.processor mode) x
    let reads (area : Area) : Prop := judged .read = if right = .denied then .error .rights else .ok area
    let closed : Prop := ∀ e d, judged (.write e d) = .error .rights
    (∀ m : Lane, r.kind = .lane → m.val = o / 1024 →
      closed
      ∧ (∀ k : Fin 16, o % 1024 / 4 = k.val → reads (.landing m k))
      ∧ (o % 1024 / 4 = 16 → reads (.tap m))
      ∧ (32 ≤ o % 1024 / 4 → o % 1024 / 4 < 48 → reads (.writeBack m))
      ∧ (o % 1024 / 4 = 48 → reads (.result m))
      ∧ ((16 < o % 1024 / 4 ∧ o % 1024 / 4 < 32) ∨ 48 < o % 1024 / 4 → reads .laneOther))
    ∧ (r.kind = .command → 256 ≤ o → closed ∧ judged .read = .error .rights)
    ∧ (∀ (k : SlotId) (i : Fin 8), r.kind = .command → o < 256 → k.val = o / 32 → i.val = o % 32 / 4 →
      let refused (e : BitVec 4) (d : Word) : Prop := i = 7 ∧ (s.slot k).busy = true
        ∧ ((e.getLsbD 0 = true ∧ e.getLsbD 1 = true ∧ d.toNat % 65536 ≠ 0 ∧ d.toNat % 65536 ≠ (s.slot k).lastTaken)
           ∨ (e.getLsbD 0 ≠ e.getLsbD 1))
      reads (.commandWord k i)
      ∧ (i = 6 ∨ right ≠ .readWrite → closed)
      ∧ (i ≠ 6 → right = .readWrite → ∀ e d,
          (refused e d → judged (.write e d) = .error .slotBusy)
          ∧ (¬refused e d → judged (.write e d) = .ok (.commandWord k i))))
    ∧ (r.kind = .status → reads .statusArea ∧ closed)
    ∧ (r.kind = .journal → reads .journalRegion ∧ closed)
    ∧ (∀ x : BankId, r.kind = (match x with | .a => .bankA | .b => .bankB) →
      reads (.bank x)
      ∧ (mode = .service ∨ right ≠ .readWrite → closed)
      ∧ (mode = .maint → right = .readWrite → ∀ e d,
          ((s.bank x).state = some .empty ∨ (s.bank x).state = some .staging
              ∨ ((s.bank x).state = some .valid ∧ (s.bank x).pins = 0) →
            judged (.write e d) = .ok (.bank x))
          ∧ ((s.bank x).state = some .validating ∨ (s.bank x).state = some .active ∨ (s.bank x).state = some .damaged
              ∨ ((s.bank x).state = some .valid ∧ 0 < (s.bank x).pins) →
            judged (.write e d) = .error .bankLocked)))
    ∧ (r.kind = .plain → reads (.plain r.admitted)
      ∧ ∀ e d, judged (.write e d) = if right = .readWrite then .ok (.plain r.admitted) else .error .rights))
  ∧ (∀ (s : State) (a : Nat) (source : Source) (x : Access), s.unit ≠ .faulted →
      (∀ r ∈ s.cfg.regions, ¬r.Covers a) → s.judge a source x = .error .outside)
  ∧ ∀ (s : State) (a : Nat) (e : BitVec 4) (d : Word), s.unit = .faulted →
    let go (k : SlotId) : Prop := ∃ base, s.startUp.usableSlots = some base
      ∧ base + 32 * k.val + 28 ≤ a ∧ a < base + 32 * k.val + 32
    let governs (area : Area) : Prop := (∀ mode, s.judge a (.processor mode) .read = .ok area)
      ∧ s.judge a (.processor .service) (.write e d) = .error .rights
    (16777216 ≤ a → ∀ source x, s.judge a source x = .error .outside)
    ∧ (a < 16777216 → (∀ k, ¬go k) →
        governs .recovery ∧ s.judge a (.processor .maint) (.write e d) = .ok .recovery)
    ∧ ∀ k, a < 16777216 → go k → governs (.commandWord k 7)
        ∧ ((s.slot k).busy = false → s.judge a (.processor .maint) (.write e d) = .ok (.commandWord k 7))

/-- READER_WORD_ACCESS (R160, R162 to R165) and WRITE_BACK_READ (R87) by the modem that holds the grant, a word of a burst or
alone: an admitted read, and an admitted write with a byte enable, to a watched word as to any other, wait for the Memory
Arbiter (R166); a write to a PLAIN region without byte enables is answered at once (R171); a refused word brings the exception
line, a read with all ones, and its fault is recorded with source reader n. A word of the lane's write-back image
is admitted to its reader only while the lane is RELEASED, and is refused NOT_RELEASED in every other state. What the map
admits to reader n, by area (R162 to R164): in its own lane's area the landing image and the tap word, a write only while the
landing area is open (LANDING_LOCKED); the write-back image, to be read in RELEASED (NOT_RELEASED); the result word, to be
written in RELEASED while the lane is not appending (UNEXPECTED_RESULT); a PLAIN region that admits it; each within the
configured right; and nothing else (RIGHTS). So no reader's write changes a Verdict Record, a write-back image, the Status
Area, the JOURNAL region or a result word of a slot (R163). The last word of an access during which the request was dropped,
answered at once, ends the grant (R14). The model's choices are those of ProcessorWordIsJudged (logs 5, 6, 32). -/
def Obligations.ReaderWordIsJudged : Prop :=
  (∀ (s : State) (n : Lane) (left : Fin 4) (address : BitVec 32), s.ReaderTurn n → s.unit = .ready →
    let a := address.toNat / 4 * 4
    (∀ area, s.judge a (.reader n) .read = .ok area →
      s.Yields (.readerWordAccess ⟨n, left⟩ address .read)
        { s with reader := { s.reader with words := [⟨n, a, .read⟩], taken := true, left := left } })
    ∧ (∀ f, s.judge a (.reader n) .read = .error f →
      s.Yields (.readerWordAccess ⟨n, left⟩ address .read)
        { s.faulted f (.reader n) (some a) (some .read) none with
          reader := s.reader.answering left (.answer n (.failed (some (BitVec.allOnes 32)))) s.cfg.present })
    ∧ (∀ (enables : BitVec 4) (data : Word) (f : PathFault), s.judge a (.reader n) (.write enables data) = .error f →
      s.Yields (.readerWordAccess ⟨n, left⟩ address (.write enables data))
        { s.faulted f (.reader n) (some a) (some .write) none with
          reader := s.reader.answering left (.answer n (.failed none)) s.cfg.present })
    ∧ (∀ (enables : BitVec 4) (data : Word) (area : Area), s.judge a (.reader n) (.write enables data) = .ok area →
      (enables ≠ 0 → s.Yields (.readerWordAccess ⟨n, left⟩ address (.write enables data))
        { s with reader := { s.reader with words := [⟨n, a, .write enables data⟩], taken := true, left := left } })
      ∧ (∀ admitted, enables = 0 → area = .plain admitted → s.Yields (.readerWordAccess ⟨n, left⟩ address (.write enables data))
        { s with reader := s.reader.answering left (.answer n (.done none)) s.cfg.present }))
    ∧ (∀ (enables : BitVec 4) (data : Word) (r : RegionEntry) (o : Nat), s.MapsTo a r o → r.PartOwned o →
      s.Yields (.readerWordAccess ⟨n, left⟩ address (.write enables data))
        { s.faulted .rights (.reader n) (some a) (some .write) none with
          reader := s.reader.answering left (.answer n (.failed none)) s.cfg.present }))
  ∧ (∀ (s : State) (n : Lane) (left : Fin 4) (k : Fin 16) (r : RegionEntry), s.ReaderTurn n → s.unit = .ready →
    s.locate (s.laneAddress n (128 + 4 * k.val)) = some (r, .writeBack n) → r.reader ≠ .denied →
    ((s.lane n).state = .released →
      s.Yields (.writeBackRead ⟨n, left⟩ k)
        { s with reader := { s.reader with
            words := [⟨n, s.laneAddress n (128 + 4 * k.val), .read⟩], taken := true, left := left } })
    ∧ ((s.lane n).state ≠ .released →
      s.Yields (.writeBackRead ⟨n, left⟩ k)
        { s.faulted .notReleased (.reader n) (some (s.laneAddress n (128 + 4 * k.val))) (some .read) none with
          reader := s.reader.answering left (.answer n (.failed (some (BitVec.allOnes 32)))) s.cfg.present }))
  ∧ ∀ (s : State) (n : Lane) (a : Nat) (r : RegionEntry) (o : Nat), s.MapsTo a r o →
    let judged (x : Access) : Except PathFault Area := s.judge a (.reader n) x
    let open_ : Prop := (s.lane n).state = .idle
      ∨ ((s.lane n).state = .recovery ∧ (s.lane n).comparing = false ∧ (s.lane n).appending = false)
    let reads (area : Area) : Prop := judged .read = if r.reader = .denied then .error .rights else .ok area
    let closed : Prop := ∀ e d, judged (.write e d) = .error .rights
    let shut : Prop := closed ∧ judged .read = .error .rights
    let lands (area : Area) : Prop := reads area
      ∧ (r.reader ≠ .readWrite → closed)
      ∧ (r.reader = .readWrite → open_ → ∀ e d, judged (.write e d) = .ok area)
      ∧ (r.reader = .readWrite → ¬open_ → ∀ e d, judged (.write e d) = .error .landingLocked)
    (∀ m : Lane, r.kind = .lane → m.val = o / 1024 → m ≠ n → shut)
    ∧ (r.kind = .lane → n.val = o / 1024 →
      (∀ k : Fin 16, o % 1024 / 4 = k.val → lands (.landing n k))
      ∧ (o % 1024 / 4 = 16 → lands (.tap n))
      ∧ (32 ≤ o % 1024 / 4 → o % 1024 / 4 < 48 → closed
        ∧ (r.reader = .denied → judged .read = .error .rights)
        ∧ (r.reader ≠ .denied → (s.lane n).state = .released → judged .read = .ok (.writeBack n))
        ∧ (r.reader ≠ .denied → (s.lane n).state ≠ .released → judged .read = .error .notReleased))
      ∧ (o % 1024 / 4 = 48 → reads (.result n)
        ∧ (r.reader ≠ .readWrite → closed)
        ∧ (r.reader = .readWrite → (s.lane n).state = .released → (s.lane n).appending = false →
            ∀ e d, judged (.write e d) = .ok (.result n))
        ∧ (r.reader = .readWrite → (s.lane n).state ≠ .released ∨ (s.lane n).appending = true →
            ∀ e d, judged (.write e d) = .error .unexpectedResult))
      ∧ ((16 < o % 1024 / 4 ∧ o % 1024 / 4 < 32) ∨ 48 < o % 1024 / 4 → shut))
    ∧ (r.kind = .command ∨ r.kind = .status ∨ r.kind = .journal ∨ r.kind = .bankA ∨ r.kind = .bankB → shut)
    ∧ (r.kind = .plain → r.admitted.get n = false → shut)
    ∧ (r.kind = .plain → r.admitted.get n = true → reads (.plain r.admitted)
      ∧ ∀ e d, judged (.write e d) = if r.reader = .readWrite then .ok (.plain r.admitted) else .error .rights)

/-- MEMORY_ARBITER_CHOICE (R167): with no request waiting nothing happens; the consecutive-loss count becomes 0 when the
Processor Port is chosen, which it is at a count of 4 or when it alone waits; rises by one when another is chosen while it
waits; and stays otherwise. A processor word that is not chosen goes on waiting. The choice is the Processor Port at a count
of 4 while it waits, and else the requester of the lowest place that waits, exactly one (R166). After every command the
requests at the arbiter are those of the blocks that have a word to make, each once: runs, recovery comparisons, Verdict
Records, command slots with their reads and result words, Bank Control and the Start-up Controller among them (R166). That
a block which a command has set to work has its request there when that command ends is the model's choice (log 4). -/
def Obligations.ArbiterCountsLosses : Prop :=
  (∀ s : State, s.arbiter.losses ≤ 4 → s.Sound →
    let others := [Requester.reader, .journal, .composer, .screening, .status, .bankControl, .startUp].any s.waits
    ∃ t, exec .memoryArbiterChoice s = .next t
      ∧ (s.processor.taken = false → others = false → s.Mirrored t)
      ∧ (s.processor.taken = true → (s.arbiter.losses = 4 ∨ others = false) → t.arbiter.losses = 0)
      ∧ (s.processor.taken = true → s.arbiter.losses < 4 → others = true →
          t.arbiter.losses = s.arbiter.losses + 1 ∧ t.processor = s.processor)
      ∧ (s.processor.taken = false → t.arbiter.losses = s.arbiter.losses)
      ∧ ((∃ x, s.waits x = true) → ∃ x, s.Chooses x ∧ ∀ y, s.Chooses y → y = x)
      ∧ (∀ x, s.Chooses x → x ≠ .processor → t.arbiter.losses = s.passedOver.losses))
  ∧ ∀ (c : Instr) (s t : State), exec c s = .next t → t.Enrolled ∧ (s.arbiter.requests.Nodup → t.arbiter.requests.Nodup)

/-- The word operation of the requester that the arbiter chooses (R166 to R172), as `State.Serves` has it: with its scrub,
its correction and its fault (R168 to R171). The Processor Port's, whose write the Region Map takes again then (R164): it is
answered; a write in a bank makes the bank STAGING (R45); a go-write takes the command, the port holding its answer while the
Command Taker reads the slot (R176); a write that the map now refuses has no effect but its fault. The Reader Port's: the
same, answered with data or the exception line (R160), after the last answer of an access whose request was dropped with the
end of the grant (R14); a landing word, tap word or result word has the effect of its own row. The Journal Writer's: one word
of its entry or Unit Record, the last of them completing the row (R109, R114). The Composer's: one word of the image, the
sixteenth completing it (R101). At places 4, 6 and 7, for a command slot at place 5 (R176), and for the Journal Writer where
it reads on for the scan (R116; log 24), the next word that the block reads, which it keeps until its row takes the outcome;
with the sixth word of a slot the command is judged (R177). Place 5's: the sharer whose request came first makes one word and
goes behind the others while it has more: a word of a Verdict Record, the number last (R82); of the Status Area, a due Change
Count before the lowest stale word (R184), a Detail Value letting the result word behind it follow (R178); or a slot's result
word, which frees the slot (R178). The model's choices: the order of the words between the first and the last of an entry, of
the image's words, and of words 1 to 7 of a Verdict Record (logs 43, 44, 51), that the last word of a record completes it as
its own row does, a result word then waiting for its own choice (log 4), the second verdict of the map (log 6), and how place
5 queues (log 54). -/
def Obligations.ProcessorWordIsServed : Prop :=
  let i : Instr := .memoryArbiterChoice
  (∀ (s : State) (w : ProcessorWord), s.unit = .ready → s.Chooses .processor → s.Sound → s.processor.words = [w] →
    s.memory.wf = true →
    let answered (x : Answer) : ProcessorPort :=
      { words := [], taken := false, held := none, answers := s.processor.answers ++ [x] }
    let arbiter : Arbiter := { s.arbiter with losses := 0 }
    (w.access = .read →
      ∃ (x : Answer) (v t : State), exec i s = .next t ∧ s.Serves w.address .read .processor (some w.mode) x v
        ∧ ({ v with processor := answered x, arbiter := arbiter }).Mirrored t)
    ∧ ∀ (enables : BitVec 4) (data : Word), w.access = .write enables data → enables ≠ 0 →
      (∀ f, s.judge w.address (.processor w.mode) w.access = .error f →
        s.Yields i { s.faulted f .processor (some w.address) (some .write) (some w.mode) with
          processor := answered (.failed none), arbiter := arbiter })
      ∧ ∀ area, s.judge w.address (.processor w.mode) w.access = .ok area →
        ∃ (x : Answer) (v t : State), exec i s = .next t
          ∧ s.Serves w.address w.access .processor (some w.mode) x v
          ∧ (let plain : Prop := ({ v with processor := answered x, arbiter := arbiter }).Mirrored t
             let q := goSequence (v.memory.word w.address)
             (x = .failed none → plain)
             ∧ ((∀ k, area ≠ .commandWord k 7) → (∀ b, area ≠ .bank b) → plain)
             ∧ (∀ b, x = .done none → area = .bank b →
                ({ v with processor := answered x, arbiter := arbiter, banks := t.banks }).Mirrored t
                ∧ t.bank b = { s.bank b with state := some .staging } ∧ (∀ y, y ≠ b → t.bank y = s.bank y)
                ∧ t.banks.validation = s.banks.validation ∧ t.banks.got = s.banks.got
                ∧ t.banks.fallback = s.banks.fallback ∧ t.banks.due = s.banks.due)
             ∧ ∀ k, x = .done none → area = .commandWord k 7 →
                (q = 0 ∨ q = (s.slot k).lastTaken ∨ (s.slot k).busy = true → plain)
                ∧ (q ≠ 0 → q ≠ (s.slot k).lastTaken → (s.slot k).busy = false →
                  ({ v with
                      processor := { s.processor with taken := false, held := some k }, arbiter := arbiter
                      slots := s.slots.set k.val { s.slot k with
                        busy := true, lastTaken := q, reading := some ⟨w.mode, []⟩ } }).Mirrored t)))
  ∧ (∀ (s : State) (w : ReaderWord) (rest : List ReaderWord), s.Chooses .reader → s.unit = .ready →
      s.reader.words = w :: rest → s.memory.wf = true →
      (w.access = .read ∨ ∃ e d admitted, w.access = .write e d ∧ e ≠ 0
        ∧ s.judge w.address (.reader w.lane) w.access = .ok (.plain admitted)) →
      ∃ (x : Answer) (v t : State), exec i s = .next t
        ∧ s.Serves w.address w.access (.reader w.lane) none x v
        ∧ (let p : ReaderPort := { s.reader with
             words := rest, taken := false, signals := s.reader.signals ++ [.answer w.lane x] }
           (rest = [] → ({ v with
              arbiter := s.passedOver
              reader := if s.reader.ending = true ∧ s.reader.left = 0 then p.ended s.cfg.present else p }).Mirrored t)
           ∧ ∀ z more area, rest = z :: more → s.reader.owner = some z.lane → z.access = .read →
              s.judge z.address (.reader z.lane) .read = .ok area →
              ({ v with arbiter := s.passedOver, reader := { p with taken := true } }).Mirrored t))
  ∧ (∀ (s : State) (n : Lane) (left : Fin 4) (enables : BitVec 4) (data : Word), s.ReaderTurn n → s.ReaderFirst →
      s.unit = .ready → enables ≠ 0 →
      let presented (o : Nat) : State := { s with reader := { s.reader with
        words := [⟨n, s.laneAddress n o, .write enables data⟩], taken := true, left := left } }
      let admitted (o : Nat) : Prop := ∃ area, s.judge (s.laneAddress n o) (.reader n) (.write enables data) = .ok area
      (∀ k : Fin 16, admitted (4 * k.val) →
        exec i (presented (4 * k.val)) = exec (.landingWordWrite ⟨n, left⟩ k enables data) s)
      ∧ (admitted 64 → exec i (presented 64) = exec (.tapWordWrite ⟨n, left⟩ enables data) s)
      ∧ (admitted 192 → exec i (presented 192) = exec (.resultWordWrite ⟨n, left⟩ enables data) s))
  ∧ (∀ s : State, s.Chooses .journal → s.memory.wf = true →
      let one (job : JournalJob) (a : Nat) (w : Word) : Prop :=
        ∃ t, exec i s = .next t
          ∧ ({ s with memory := t.memory, arbiter := s.passedOver
                      journal := { s.journal with job := some job } }).Mirrored t
          ∧ t.memory.word a = w ∧ t.memory.health a = .clean ∧ s.SameBytesBut t a 4
      let completes (row : Instr) : Prop := s.PathFree .journal 5 → s.arbiter.requests.Nodup →
        ∃ t u, exec i s = .next t ∧ exec row s = .next u ∧ (s.resultsWritten t).Mirrored u
      (∀ seq words written reserved next, s.journal.job = some (.append seq words written reserved next) →
        (∀ h : written < 7, one (.append seq words (written + 1) reserved next)
          (s.regionBase .journal + 32 + 32 * (seq % (s.regionSize .journal / 32 - 1)) + 4 * written) words[written])
        ∧ (written = 7 → completes .journalAppendComplete))
      ∧ ∀ words written releasing, s.journal.job = some (.rewrite words written releasing) →
        (∀ h : written < 7, one (.rewrite words (written + 1) releasing) (s.regionBase .journal + 4 * written)
          words[written])
        ∧ (written = 7 → completes .unitRecordRewriteComplete))
  ∧ (∀ (s : State) (r : Run) (img : Image), s.Chooses .composer → s.screening.run = some r → r.stage = .composing →
      r.image = some img → s.memory.wf = true →
      let a := s.laneAddress r.lane (128 + 4 * r.written)
      (∀ h : r.written < 15, ∃ t, exec i s = .next t
        ∧ ({ s with memory := t.memory, arbiter := s.passedOver
                    screening := { s.screening with run := some { r with written := r.written + 1 } } }).Mirrored t
        ∧ t.memory.word a = img[r.written] ∧ t.memory.health a = .clean ∧ s.SameBytesBut t a 4)
      ∧ (r.written = 15 → ∃ t u, exec i s = .next t ∧ exec .composeWriteBack s = .next u ∧ t.Mirrored u))
  ∧ (∀ (s : State) (x : Block) (before after : List Block) (a : Nat), s.Chooses x.requester → s.Offers x before after →
      s.unit ≠ .faulted → s.memory.wf = true → s.nextRead x = some a →
      ∃ (y : Answer) (v t : State), exec i s = .next t ∧ s.Serves a .read .internal none y v
        ∧ (let word : Option Word := match y with | .done w => w | .failed _ => none
           let u : State := { v with arbiter := s.passedOver }
           (∀ r, x = .run → s.screening.run = some r →
              ({ u with screening := { s.screening with run := some { r with got := r.got ++ [word] } } }).Mirrored t)
           ∧ (∀ n, x = .comparison n →
              ({ u with lanes := s.lanes.set n { s.lane n with got := (s.lane n).got ++ [word] } }).Mirrored t)
           ∧ (x = .bankControl → s.banks.validation ≠ none →
              ({ u with banks := { s.banks with got := s.banks.got ++ [word] } }).Mirrored t)
           ∧ (x = .startUp ∨ x = .journal ∨ (x = .bankControl ∧ s.banks.validation = none) →
              ({ u with startUp := { s.startUp with got := s.startUp.got ++ [word] } }).Mirrored t)
           ∧ ∀ k r, x = .commandSlot k → (s.slot k).result = none → (s.slot k).reading = some r →
              (r.got.length < 5 → ({ u with slots := s.slots.set k.val { s.slot k with
                reading := some { r with got := r.got ++ [word] } } }).Mirrored t)
              ∧ ∀ w0 w1 w2 w3 w4 w5, r.got ++ [word] = [some w0, some w1, some w2, some w3, some w4, some w5] →
                (s.processor.held = some k → s.processor.words.length = 1) →
                let command : CommandRecord := ⟨w0, w1, w3, w4, w5, effectiveAuthority w2 r.mode⟩
                (s.processor.held = some k ∨ s.processor.words = [] →
                  (State.dispatch { u with
                    processor := if s.processor.held = some k then
                        { s.processor with
                          words := [], taken := false, held := none, answers := s.processor.answers ++ [.done none] }
                      else s.processor
                    slots := s.slots.set k.val { s.slot k with reading := none, command := some command } }
                    k command).Mirrored t)))
  ∧ (∀ (s : State) (k : SlotId) (w : Word) (before after : List Block), s.Chooses .status →
      s.Offers (.commandSlot k) before after → s.memory.wf = true → (s.slot k).result = some ⟨w, false⟩ →
      ∃ t, exec i s = .next t
        ∧ ({ s with
              memory := t.memory, arbiter := s.passedOver
              slots := s.slots.set k.val { s.slot k with busy := false, result := none } }).Mirrored t
        ∧ t.memory.word (s.slotAddress k 6) = w ∧ t.memory.health (s.slotAddress k 6) = .clean
        ∧ s.SameBytesBut t (s.slotAddress k 6) 4)
  ∧ ∀ (s : State) (x : Block) (before after : List Block), s.Chooses .status → s.Offers x before after →
      s.arbiter.requests.Nodup → s.Enrolled → s.memory.wf = true →
      let base := s.regionBase .status
      let behind (more : List Block) (t : State) : Prop :=
        t.arbiter = { s.passedOver with requests := before ++ after ++ more }
      (∀ n j, x = .verdictRecord n → s.status.records.find? (fun k => k.lane == n) = some j →
        (∀ h : j.written < 7, ∃ t, exec i s = .next t ∧ behind [x] t
          ∧ t = { s with memory := t.memory, arbiter := t.arbiter, status := { s.status with
                    records := { j with written := j.written + 1 } ::
                      s.status.records.eraseP (fun k => k.lane == n) } }
          ∧ t.memory.word (s.laneAddress n (260 + 4 * j.written)) = j.words[j.written + 1]
          ∧ s.SameBytesBut t (s.laneAddress n (260 + 4 * j.written)) 4)
        ∧ (j.written = 7 → s.PathFree x 5 → ∃ t u, exec i s = .next t
            ∧ exec (.verdictRecordWritten n) s = .next u ∧ (s.resultsWritten t).Mirrored u))
      ∧ (∀ v due, x = .statusArea → s.status.due = v :: due →
          ∃ t, exec i s = .next t ∧ behind (if due ≠ [] ∨ s.status.stale ≠ [] then [x] else []) t
            ∧ t = { s with memory := t.memory, arbiter := t.arbiter, status := { s.status with due := due } }
            ∧ t.memory.word base = v ∧ s.SameBytesBut t base 4)
      ∧ ∀ k more count, x = .statusArea → s.status.due = [] → s.status.stale = k :: more →
          s.status.changeCount = some count →
          ∃ t, exec i s = .next t
            ∧ t = { s with memory := t.memory, arbiter := t.arbiter, slots := t.slots, status := { s.status with
                      stale := more, changeCount := t.status.changeCount, due := t.status.due } }
            ∧ (more = [] → t.status.changeCount = some (count + 1) ∧ t.status.due = [count + 1])
            ∧ (more ≠ [] → t.status.changeCount = some count ∧ t.status.due = [])
            ∧ t.memory.word (base + 4 * k) = s.mirrorWord k ∧ s.SameBytesBut t (base + 4 * k) 4
            ∧ ((∀ j : SlotId, k = 208 + j.val → ∀ w, (s.slot j).result ≠ some ⟨w, true⟩) → t.slots = s.slots ∧ behind [x] t)
            ∧ ∀ (j : SlotId) (w : Word), k = 208 + j.val → (s.slot j).result = some ⟨w, true⟩ →
              t.slots = s.slots.set j.val { s.slot j with result := some ⟨w, false⟩ }
              ∧ behind [.commandSlot j, x] t

/-- REQUEST_RISE (R13) and REQUEST_DROP (R14, R16) in READY: requests that rise join the others, and a free port chooses at
once; a dropped request clears the modem's barred mark, and ends its grant, with the next choice, at once, or, while an
access is in progress, once no word of it is left to present or to answer. -/
def Obligations.RequestsMoveTheGrant : Prop :=
  ∀ s : State, s.unit = .ready →
    (∀ modems : Quad Bool,
      let p : ReaderPort := { s.reader with
        requests := ⟨s.reader.requests.l0 || modems.l0, s.reader.requests.l1 || modems.l1,
                     s.reader.requests.l2 || modems.l2, s.reader.requests.l3 || modems.l3⟩ }
      s.Yields (.requestRise modems)
        { s with reader := if s.reader.owner = none then p.chosen s.cfg.present else p })
    ∧ ∀ n : Lane,
      let p : ReaderPort := { s.reader with
        requests := s.reader.requests.set n false, barred := s.reader.barred.set n false }
      (s.reader.owner ≠ some n → s.Yields (.requestDrop n) { s with reader := p })
      ∧ (s.reader.owner = some n → (∃ w ∈ s.reader.words, w.lane = n) ∨ s.reader.left ≠ 0 →
          s.Yields (.requestDrop n) { s with reader := { p with ending := true } })
      ∧ (s.reader.owner = some n → (∀ w ∈ s.reader.words, w.lane ≠ n) → s.reader.left = 0 →
          s.Yields (.requestDrop n) { s with reader := p.ended s.cfg.present })

/-- GRANT_HOLD_EXPIRY (R15) while the owner holds its request raised, in READY: the grant is withdrawn with the exception
line and fault GRANT_HOLD; the owner's partial landing is discarded where its landing area is open and kept where it is
locked; the modem is barred; words not yet taken are never made; and the port chooses again. That a word which already waits
at the arbiter stays and is served is the model's choice (log 35). Nothing happens without an owner, with the timer stopped,
after the owner has dropped its request, even if it has raised it again since (R14), or with it low (log 2). -/
def Obligations.GrantHoldExpiryWithdraws : Prop :=
  (∀ s : State, (s.reader.holdTimer = false ∨ s.reader.ending = true
      ∨ ∀ n, s.reader.owner = some n → s.reader.requests.get n = false) → s.Yields .grantHoldExpiry s)
  ∧ ∀ (s : State) (n : Lane), s.unit = .ready → s.reader.owner = some n → s.reader.holdTimer = true →
    s.reader.requests.get n = true → s.reader.ending = false →
    let open_ := (s.lane n).state = .idle
      ∨ ((s.lane n).state = .recovery ∧ (s.lane n).comparing = false ∧ (s.lane n).appending = false)
    ∃ t, exec .grantHoldExpiry s = .next t
      ∧ ({ s.faulted .grantHold (.reader n) none none none with lanes := t.lanes, reader := t.reader }).Mirrored t
      ∧ t.reader = ReaderPort.ended
          { s.reader with
            words := if s.reader.taken = true then s.reader.words.take 1 else []
            signals := s.reader.signals ++ [.withdrawn n], barred := s.reader.barred.set n true } s.cfg.present
      ∧ (open_ → t.lanes = s.lanes.set n { s.lane n with mask := 0 })
      ∧ (¬open_ → t.lanes = s.lanes)

/-! ### Landing and arrival (01) -/

/-- LANDING_WORD_WRITE (R6, R7, R171) by the reader that holds the grant, in a LANE region whose configured reader right is
read-write, where nothing goes before it at the arbiter (R167): while the landing area is open the write lands, merged by its
byte enables, and its mark is set whatever the enables; a partial write that meets an uncorrectable word is dropped and marks
nothing; while the area is locked the word is refused LANDING_LOCKED. A write without byte enables needs no choice of the
arbiter. The last word of an access during which the request was dropped ends the grant (R14). That the row makes its word
within it, and that the map takes the write in the event of its word operation, is the model's choice (logs 4, 6). -/
def Obligations.LandingWordIsMarked : Prop :=
  ∀ (s : State) (n : Lane) (left : Fin 4) (k : Fin 16) (enables : BitVec 4) (data : Word) (r : RegionEntry), s.ReaderTurn n →
    s.ReaderFirst → s.unit = .ready → s.memory.wf = true →
    s.locate (s.laneAddress n (4 * k.val)) = some (r, .landing n k) → r.reader = .readWrite →
    let a := s.laneAddress n (4 * k.val)
    let isOpen := (s.lane n).state = .idle
      ∨ ((s.lane n).state = .recovery ∧ (s.lane n).comparing = false ∧ (s.lane n).appending = false)
    let marked : Quad LaneContext :=
      s.lanes.set n { s.lane n with mask := (s.lane n).mask ||| BitVec.ofNat 16 (2 ^ k.val) }
    let partly := enables ≠ 0 ∧ enables ≠ 0xF
    (¬isOpen → s.Yields (.landingWordWrite ⟨n, left⟩ k enables data)
      { s.faulted .landingLocked (.reader n) (some a) (some .write) none with
        reader := s.reader.answering left (.answer n (.failed none)) s.cfg.present })
    ∧ (isOpen → enables = 0 → s.Yields (.landingWordWrite ⟨n, left⟩ k enables data)
      { s with lanes := marked, reader := s.reader.answering left (.answer n (.done none)) s.cfg.present })
    ∧ (isOpen → (enables = 0xF ∨ (partly ∧ s.memory.health a = .clean)) →
      ∃ t, exec (.landingWordWrite ⟨n, left⟩ k enables data) s = .next t
        ∧ ({ s with lanes := marked, reader := s.reader.answering left (.answer n (.done none)) s.cfg.present
                    memory := t.memory, arbiter := s.passedOver }).Mirrored t
        ∧ t.memory.word a = mergeBytes enables (s.memory.word a) data ∧ t.memory.health a = .clean
        ∧ s.SameBytesBut t a 4)
    ∧ (isOpen → partly → s.memory.health a = .corrected →
      ∃ t, exec (.landingWordWrite ⟨n, left⟩ k enables data) s = .next t
        ∧ ({ s with lanes := marked, reader := s.reader.answering left (.answer n (.done none)) s.cfg.present, memory := t.memory
                    arbiter := s.passedOver, budget := s.budget - 1
                    status := { s.status with notices := t.status.notices } }).Mirrored t
        ∧ t.memory.word a = mergeBytes enables (s.memory.word a) data ∧ t.memory.health a = .clean
        ∧ s.SameBytesBut t a 4 ∧ (s.budget ≤ 1 → t.noticed .eccBudget = true))
    ∧ (isOpen → partly → s.memory.health a = .uncorrectable →
      s.Yields (.landingWordWrite ⟨n, left⟩ k enables data)
        { s.faulted .uncorrectable (.reader n) (some a) (some .write) none with
          reader := s.reader.answering left (.answer n (.failed none)) s.cfg.present, arbiter := s.passedOver })

/-- TAP_WORD_WRITE (R9, R10, R11, R77) of a clean tap word, or with all byte enables, where nothing goes before it at the
arbiter (R167): the merged word's Reader Status and the
mask make an arrival. At an IDLE lane a transaction begins: the ACTIVE bank is pinned if there is one, and the lane enters
SCREENING at the tail of the queue. In RECOVERY, with no comparison or append in progress, a GOOD and complete landing starts
the comparison; another is answered by a Verdict Record with its refusal, its mask being cleared and the lane staying in
RECOVERY. In every other state the word is refused LANDING_LOCKED and there is no arrival. The last word of an access during
which the request was dropped ends the grant (R14). That R11's clear of the mask comes with the arrival, and not with the end
of the record, is the model's choice (log 17), and so are that the record takes its number and tests DEGRADED when it is
begun (logs 14, 16) and that the row makes its word within it (logs 4, 6). -/
def Obligations.TapWordArrives : Prop :=
  ∀ (s : State) (n : Lane) (left : Fin 4) (enables : BitVec 4) (data : Word) (r : RegionEntry), s.ReaderTurn n →
    s.ReaderFirst → s.unit = .ready → s.memory.wf = true → s.locate (s.laneAddress n 64) = some (r, .tap n) →
    r.reader = .readWrite →
    (enables = 0xF ∨ s.memory.health (s.laneAddress n 64) = .clean) →
    let a := s.laneAddress n 64
    let l := s.lane n
    let w := mergeBytes enables (s.memory.word a) data
    let status : ReaderStatus :=
      if w.toNat % 256 = 1 then .good else if w.toNat % 256 = 2 then .collision else .readError
    let arrival : Arrival := { status := status, complete := decide (l.mask = 0xFFFF), time := s.clock }
    let active : Option BankId :=
      if s.banks.a.state = some .active then some .a else if s.banks.b.state = some .active then some .b else none
    let banks : BankControl :=
      match active with
      | some .a => { s.banks with a := { s.banks.a with pins := s.banks.a.pins + 1 } }
      | some .b => { s.banks with b := { s.banks.b with pins := s.banks.b.pins + 1 } }
      | none => s.banks
    let landed (t : State) : Prop := t.memory.word a = w ∧ s.SameBytesBut t a 4
    let done : ReaderPort := s.reader.answering left (.answer n (.done none)) s.cfg.present
    (l.state = .idle →
      ∃ t, exec (.tapWordWrite ⟨n, left⟩ enables data) s = .next t ∧ landed t
        ∧ ({ s with
              memory := t.memory, reader := done, arbiter := s.readerServed enables, banks := banks
              screening := { s.screening with queue := s.screening.queue ++ [n] }
              lanes := s.lanes.set n { l with
                state := .screening, pinned := active, reservation := 0, reissues := 0, resetRequested := false
                arrival := some arrival } }).Mirrored t)
    ∧ (l.state = .recovery → l.comparing = false → l.appending = false → status = .good → l.mask = 0xFFFF →
      ∃ t, exec (.tapWordWrite ⟨n, left⟩ enables data) s = .next t ∧ landed t
        ∧ ({ s with memory := t.memory, reader := done, arbiter := s.readerServed enables
                    lanes := s.lanes.set n { l with arrival := some arrival, comparing := true, got := [] } }).Mirrored t)
    ∧ (l.state = .recovery → l.comparing = false → l.appending = false → (status ≠ .good ∨ l.mask ≠ 0xFFFF) →
      ∃ t, exec (.tapWordWrite ⟨n, left⟩ enables data) s = .next t ∧ landed t
        ∧ ({ s with
              memory := t.memory, reader := done, arbiter := s.readerServed enables
              lanes := s.lanes.set n { l with arrival := some arrival, mask := 0 }
              verdictCount := t.verdictCount, status := { s.status with records := t.status.records } }).Mirrored t
        ∧ t.verdictCount = (if s.verdictCount = 4294967295 then 1 else s.verdictCount + 1)
        ∧ t.status.records = s.status.records ++ [
            { lane := n, number := t.verdictCount, written := 0, next := .answeredInRecovery
              words := VerdictRecord.words
                { number := t.verdictCount, lane := n, reissues := l.reissues, flags := FareFlags.none
                  decision := match status with
                    | .collision => .multipleCards
                    | .readError => .unreadable .status
                    | .good => .unreadable .mask
                  degraded := decide (s.line.membership ≠ .joined) || s.banks.fallback, recovery := false, fare := 0
                  serial := none, counter := none, balance := none, time := s.clock } }])
    ∧ (l.state ≠ .idle → ¬(l.state = .recovery ∧ l.comparing = false ∧ l.appending = false) →
      s.Yields (.tapWordWrite ⟨n, left⟩ enables data)
        { s.faulted .landingLocked (.reader n) (some a) (some .write) none with
          reader := s.reader.answering left (.answer n (.failed none)) s.cfg.present })

/-! ### Screening (02) -/

/-- SCREENING_RUN_START (R18): the head lane leaves the queue and becomes the current lane of a run that stands before its
first check. A lane whose Reset Requested mark is set ends at once (R99): it returns to IDLE, nothing is read, and the
waiting LANE_RESET completes DONE with detail DISCARDED. The lane's pin and its reserved entries are given back (R79, R46):
its Reservation is 0 at once, and the Reservation Total falls when the Journal Writer serves the return, at once where no
request is in progress and in its turn otherwise (R109; log 42). The result word is written within the row, where no other
request of place 5 or before it waits at the arbiter (log 4). DONE leaves the slot's Detail Value as it was (log 12). -/
def Obligations.RunStartsWithHeadLane : Prop :=
  ∀ (s : State) (n : Lane) (rest : List Lane), s.screening.run = none → s.screening.queue = n :: rest →
    ((s.lane n).resetRequested = false →
      s.Yields .screeningRunStart { s with screening :=
        { queue := rest
          run := some { lane := n, stage := .landing, got := [], now := none, decision := none, fare := none, image := none
                        written := 0, bankDamaged := false, degraded := false } } })
    ∧ ∀ k, (s.lane n).resetRequested = true → (s.lane n).resetSlot = some k → s.memory.wf = true →
      s.PathFree (.commandSlot k) 5 → (s.slot k).result = none →
      ∃ t, exec .screeningRunStart s = .next t
        ∧ ({ State.idled { s with screening := { queue := rest, run := none } } n with
              memory := t.memory, slots := t.slots }).Mirrored t
        ∧ t.banks = s.banks.unpinned (s.lane n).pinned
        ∧ (s.journal.job = none → s.journal.queue = [] → t.journal = { s.journal with
            reservationTotal := s.journal.reservationTotal - (s.lane n).reservation })
        ∧ (s.journal.job ≠ none → (s.lane n).reservation ≠ 0 → t.journal = { s.journal with
            queue := s.journal.queue ++ [.giveBack (s.lane n).reservation] })
        ∧ (t.lane n).state = .idle ∧ (t.lane n).resetRequested = false ∧ (t.lane n).pinned = none
        ∧ (t.lane n).reservation = 0 ∧ (t.lane n).mask = 0
        ∧ (t.lane n).verdictNumber = (s.lane n).verdictNumber
        ∧ (∀ m, m ≠ n → t.lane m = s.lane m)
        ∧ (t.slot k).busy = false ∧ (∀ j, j ≠ k → t.slot j = s.slot j)
        ∧ t.memory.word (s.slotAddress k 6) = resultWord (s.slot k).lastTaken .done .discarded
        ∧ s.SameBytesBut t (s.slotAddress k 6) 4

/-- LANDED_IMAGE_READ (R21, R22): the status and the mask handed over with the arrival, then the image, whose sixteen clean
words become the Landed Image, then the unit conditions in order, each refusal ending the checks; past them the Journal
Writer is asked for a reservation. An uncorrectable word refuses UNREADABLE with reason MEMORY. JOURNAL_RESERVATION (R22,
R111): with free space of at least 2 the lane holds two entries and the format check is next; else JOURNAL_FULL with its
notice, and nothing reserved; then the requests that wait are taken in order (R109), as AppendCompletes states. That the
words are read in ascending order, and none after an uncorrectable one, is DEDUCED (log 41). The words are read with no
other request of place 4 or before it waiting at the arbiter, and none of them by an earlier choice. -/
def Obligations.UnitConditionsAreMade : Prop :=
  (∀ (s : State) (r : Run) (n : Lane) (x : Arrival), s.screening.run = some r → r.lane = n → r.stage = .landing →
    r.got = [] → s.PathFree .run 4 → (s.lane n).arrival = some x →
    let l := s.lane n
    let outcome (landed : Option Image) (q : Run) (j : Journal) : State :=
      { s with lanes := s.lanes.set n { l with landed := landed }, screening := { s.screening with run := some q }
               journal := j }
    let refused (landed : Option Image) (now : Option ServiceTime) (d : Decision) : State :=
      outcome landed { r with now := now, decision := some d, stage := .decided } s.journal
    let img : Image := Vector.ofFn (fun i : Fin 16 => s.memory.word (s.laneAddress n (4 * i.val)))
    (x.status = .collision → s.Yields .landedImageRead (refused none r.now .multipleCards))
    ∧ (x.status = .readError → s.Yields .landedImageRead (refused none r.now (.unreadable .status)))
    ∧ (x.status = .good → x.complete = false → s.Yields .landedImageRead (refused none r.now (.unreadable .mask)))
    ∧ (x.status = .good → x.complete = true →
        (∃ i : Fin 16, s.memory.health (s.laneAddress n (4 * i.val)) = .uncorrectable) →
      ∃ t, exec .landedImageRead s = .next t
        ∧ ({ refused none r.now (.unreadable .memory) with
              memory := t.memory, budget := t.budget, faultRecord := t.faultRecord
              status := { s.status with notices := t.status.notices } }).Mirrored t
        ∧ s.SameBytes t)
    ∧ (x.status = .good → x.complete = true →
        (∀ i : Fin 16, s.memory.health (s.laneAddress n (4 * i.val)) = .clean) →
      (s.clock = none → s.Yields .landedImageRead (refused (some img) r.now (.unitFault .clock)))
      ∧ ∀ now, s.clock = some now →
        (l.pinned = none → s.Yields .landedImageRead (refused (some img) (some now) (.unitFault .noBank)))
        ∧ ∀ b, l.pinned = some b →
          ((s.bank b).state = some .damaged →
            s.Yields .landedImageRead (refused (some img) (some now) (.unitFault .bankDamaged)))
          ∧ ((s.bank b).state ≠ some .damaged → s.emergency = true →
            s.Yields .landedImageRead (refused (some img) (some now) .emergency))
          ∧ ((s.bank b).state ≠ some .damaged → s.emergency = false → 3 ≤ (s.gate n).credits.length →
            s.Yields .landedImageRead (refused (some img) (some now) .gateBusy))
          ∧ ((s.bank b).state ≠ some .damaged → s.emergency = false → (s.gate n).credits.length < 3 →
            s.Yields .landedImageRead
              (outcome (some img) { r with now := some now, stage := .reserving }
                (s.request (.reserve n)).journal))))
  ∧ ∀ (s : State) (r : Run) (n : Lane), s.screening.run = some r → s.journal.job = some (.reserve n) →
    ∃ t, exec .journalReservation s = .next t
      ∧ t.journal.next = s.journal.next ∧ t.journal.released = s.journal.released
      ∧ (2 ≤ s.freeSpace → (State.nextRequest { s with
            lanes := s.lanes.set n { s.lane n with reservation := 2 }
            journal := { s.journal with reservationTotal := s.journal.reservationTotal + 2 }
            screening := { s.screening with run := some { r with stage := .format, got := [] } } }).Mirrored t)
      ∧ (s.freeSpace < 2 → (State.nextRequest { s with
            screening := { s.screening with
              run := some { r with decision := some .journalFull, stage := .decided, got := [] } }
            status := { s.status with notices := s.status.notices ||| BitVec.ofNat 18 (2 ^ 9) } }).Mirrored t)

/-- FORMAT_CHECK (R23, R24, R3 to R5), of a lane that holds a pinned bank, a Landed Image and its run's now, the card's
product row being clean in the bank: the first test that fails refuses the tap, in the order Format, Serial, Carry Count,
product Kind, key, tag; past them the deny lookup is next. Nothing but the run changes. Where the image passes the first
three and the product row is uncorrectable, the fault is recorded, the bank is DAMAGED, with the fallback of R53 if it was
ACTIVE, and the run ends UNIT_FAULT with reason BANK_DAMAGED (R22, R52). The model's choices: the first word of the row alone
is read (log 49), a Kind of none of the three passes as STORED does (log 38), and, of a bank lost, those of `State.bankLost`
(logs 40, 55). The words are read with no other request of place 4 or before it waiting at the arbiter, and none of them by
an earlier choice. -/
def Obligations.FormatAndTagAreChecked : Prop :=
  ∀ (s : State) (r : Run) (x : BankId) (img : Image) (now : ServiceTime), s.screening.run = some r →
    r.stage = .format → r.got = [] → s.PathFree .run 4 → (s.lane r.lane).pinned = some x →
    (s.lane r.lane).landed = some img → r.now = some now →
    let row := s.bankAddress x (612 + 8 * cardProduct img)
    let kind := bits (s.memory.word (s.bankAddress x (612 + 8 * cardProduct img))) 0 8
    let slot : Option KeySlot := s.cfg.keys.find? (fun k => k.generation == cardGeneration img)
    let held : Option KeySlot := slot.bind (fun k => if k.use = .retired then none else some k)
    let refusal : Option Decision :=
      if cardFormat img ≠ 1 then some (.unreadable .format)
      else if cardSerial img = 0 then some (.unreadable .serial)
      else if 4 < cardCarryCount img then some (.unreadable .carry)
      else if kind = 3 then some (.unreadable .product)
      else match held with
        | none => some .forgedKey
        | some k => if cardTag k.key img = img[15] then none else some .forgedTag
    (s.memory.health row = .clean → s.Yields .formatCheck { s with screening := { s.screening with
      run := some { r with
        decision := match refusal with | some d => some d | none => r.decision
        stage := if refusal = none then .deny else .decided } } })
    ∧ (s.memory.health row = .uncorrectable → s.unit ≠ .faulted → cardFormat img = 1 → cardSerial img ≠ 0 →
        cardCarryCount img ≤ 4 → s.Yields .formatCheck (s.runStopped r x row))

/-- DENY_LOOKUP (R29, R30) in a pinned bank whose deny section is clean and strictly ascending, of fewer than 65,536 entries:
a Serial that stands in the section is refused DENIED with reason CENTRAL and that entry's Reason code and Flags, wherever it
stands; a Serial that is not there is refused by the Local Deny List's entry, LOCAL or NEIGHBOR by its Origin; and otherwise
the sightings lookup is next. Nothing but the run changes. Where the Deny Count, or a word of every entry, is uncorrectable,
the run stops at the word met: the fault is recorded, the bank is DAMAGED, with the fallback of R53 if it was ACTIVE, and the
run ends UNIT_FAULT with reason BANK_DAMAGED (R22, R52). The model's choices: the Deny Count is read from the bank at each
lookup, and a probe reads the four words of one entry (log 25), in ascending order and none after an uncorrectable one (log
41); of a bank lost, those of `State.bankLost` (logs 40, 55). The words are read with no other request of place 4 or before
it waiting at the arbiter, and none of them by an earlier choice. -/
def Obligations.DenyLookupFindsSerial : Prop :=
  ∀ (s : State) (r : Run) (x : BankId) (img : Image) (now : ServiceTime) (count : Nat), s.screening.run = some r →
    r.stage = .deny → r.got = [] → s.PathFree .run 4 → (s.lane r.lane).pinned = some x →
    (s.lane r.lane).landed = some img → r.now = some now →
    let at_ (i j : Nat) : Nat := s.bankAddress x (1024 + 16 * i + 4 * j)
    let serial (i : Nat) : Serial := s.memory.word (at_ i 1) ++ s.memory.word (at_ i 0)
    let decided (d : Decision) : State :=
      { s with screening := { s.screening with run := some { r with decision := some d, stage := .decided } } }
    (s.memory.health (s.bankAddress x 4) = .uncorrectable → s.unit ≠ .faulted →
      s.Yields .denyLookup (s.runStopped r x (s.bankAddress x 4)))
    ∧ (s.memory.health (s.bankAddress x 4) = .clean → (s.memory.word (s.bankAddress x 4)).toNat = count → count < 65536 →
    (0 < count → s.unit ≠ .faulted → (∀ i, i < count → ∃ j, j < 4 ∧ s.memory.health (at_ i j) = .uncorrectable) →
      (∀ i j, i < count → j < 4 → s.memory.health (at_ i j) ≠ .corrected) →
      ∃ i j, i < count ∧ j < 4 ∧ s.memory.health (at_ i j) = .uncorrectable
        ∧ s.Yields .denyLookup (s.runStopped r x (at_ i j)))
    ∧ ((∀ i j, i < count → j < 4 → s.memory.health (at_ i j) = .clean) →
    (∀ i, i + 1 < count → (serial i).toNat < (serial (i + 1)).toNat) →
    (∀ i, i < count → serial i = cardSerial img →
      s.Yields .denyLookup
        (decided (.deniedCentral (byteOf (s.memory.word (at_ i 2)) 0) (byteOf (s.memory.word (at_ i 2)) 1))))
    ∧ ((∀ i, i < count → serial i ≠ cardSerial img) →
      (∀ e, s.denyList.find? (fun e => e.serial == cardSerial img) = some e →
        s.Yields .denyLookup (decided (if e.origin = .own then .deniedLocal else .deniedNeighbor)))
      ∧ ((∀ e ∈ s.denyList, e.serial ≠ cardSerial img) →
        s.Yields .denyLookup { s with screening := { s.screening with run := some { r with stage := .sightings } } }))))

/-- SIGHTINGS_LOOKUP (R35, R37, R38): no entry, or an entry past the sightings window, which is removed, passes; so does an
entry with a lower Counter, or with the same Counter and Balance. A higher Counter in the table is CLONE with reason
REGRESSION, an equal one with another Balance DIVERGED; the entry stays, and a Serial not yet denied joins the Local Deny
List with Origin LOCAL and Reason CLONE, a full list giving up an entry (R31), sets the DENY notice, requests its DENY_ADDED
entry, and sends a DENY message, with what a full queue gives up (R150, R151). -/
def Obligations.SightingsLookupCatchesClones : Prop :=
  ∀ (s : State) (r : Run) (x : BankId) (img : Image) (now : ServiceTime), s.screening.run = some r →
    r.stage = .sightings → (s.lane r.lane).pinned = some x → (s.lane r.lane).landed = some img → r.now = some now →
    let next : Screening := { s.screening with run := some { r with stage := .fare, got := [] } }
    let found : Option Sighting := s.sightings.find? (fun e => e.serial == cardSerial img)
    let old (e : Sighting) : Prop := s.cfg.sightingsWindow * 60 < now.absolute - e.time.absolute
    (found = none → s.Yields .sightingsLookup { s with screening := next })
    ∧ ∀ e, found = some e →
      (old e → s.Yields .sightingsLookup
        { s with screening := next, sightings := s.sightings.eraseP (fun e => e.serial == cardSerial img) })
      ∧ (¬old e → (e.counter < cardCounter img ∨ (e.counter = cardCounter img ∧ e.balance = img[4])) →
        s.Yields .sightingsLookup { s with screening := next })
      ∧ (¬old e → (cardCounter img < e.counter ∨ (e.counter = cardCounter img ∧ e.balance ≠ img[4])) →
        ∃ t, exec .sightingsLookup s = .next t
          ∧ ({ s with
                denyList := t.denyList, journal := t.journal, line := { s.line with
                  queue := t.line.queue, dropped := t.line.dropped }
                status := { s.status with notices := t.status.notices }
                screening := { s.screening with run := some { r with
                  stage := .decided, got := []
                  decision := some (if cardCounter img < e.counter then .cloneRegression else .cloneDiverged) } } }
              ).Mirrored t
          ∧ ((∃ d ∈ s.denyList, d.serial = cardSerial img) → t.denyList = s.denyList ∧ t.journal = s.journal
              ∧ t.line = s.line ∧ t.status.notices = s.status.notices)
          ∧ ((∀ d ∈ s.denyList, d.serial ≠ cardSerial img) →
              t.denyList = s.denyJoined ⟨cardSerial img, .own, .clone, s.clock⟩ ∧ s.Notified t [.deny]
              ∧ t.journal = (s.request (s.denyEntry (cardSerial img) .own .clone 0)).journal
              ∧ t.line = s.line.joined s.cfg.lineEnabled (.deny (cardSerial img) .clone)))

/-! ### Fares (04) -/

/-- FARE_COMPUTATION on an ENTRY lane (R25, R39, R59 to R62), the card's product row being clean in the pinned bank: a
Counter of 65,535 is COUNTER_EXHAUSTED; an open journey from this station within the repeat window is REPEAT, and another
that is neither later than now nor older than the maximum journey is PASSBACK; else the fare is the penalty for a stale
journey and 0 otherwise, the money test is that of a valid pass or of the product's floor, and a passed test goes on to the
Composer with the write-back values of R62, a failed one is INSUFFICIENT. Nothing but the run changes. Where a word of the
row is uncorrectable, the bank is DAMAGED and the run ends UNIT_FAULT with reason BANK_DAMAGED (R22, R52, R53, R56). The
model's choices: the words of the row are read in ascending order and none after an uncorrectable one, so that the fault and
the address recorded are those of the first (log 41), and, of a bank lost, those of `State.bankLost` (logs 40, 55). The words
are read with no other request of place 4 or before it waiting at the arbiter, and none of them by an earlier choice. -/
def Obligations.EntryFareIsComputed : Prop :=
  ∀ (s : State) (r : Run) (x : BankId) (img : Image) (now : ServiceTime), s.screening.run = some r → r.stage = .fare →
    r.got = [] → s.PathFree .run 4 → (s.lane r.lane).pinned = some x → (s.lane r.lane).landed = some img → r.now = some now →
    (s.gate r.lane).direction = .entry →
    let run (q : Run) : State := { s with screening := { s.screening with run := some q } }
    let refused (d : Decision) : State := run { r with decision := some d, stage := .decided }
    let inside : Prop := cardInside img = true
    let seconds : Int := now.day * 86400 + now.second - (cardEntryDay img * 86400 + cardEntrySecond img : Nat)
    let age : Int := ((now.day : Int) - cardEntryDay img) * 1440 + (now.second / 60 : Nat)
      - (cardEntrySecond img / 60 : Nat)
    let repeated : Prop :=
      inside ∧ cardEntryStation img = s.cfg.station ∧ 0 ≤ seconds ∧ seconds ≤ s.cfg.repeatWindow
    let passback : Prop := inside ∧ ¬repeated ∧ 0 ≤ age ∧ age ≤ s.cfg.maximumJourney
    (cardCounter img = 65535 → s.Yields .fareComputation (refused .counterExhausted))
    ∧ (cardCounter img < 65535 → repeated → s.Yields .fareComputation (refused .repeated))
    ∧ (cardCounter img < 65535 → passback → s.Yields .fareComputation (refused .passback))
    ∧ (cardCounter img < 65535 → ¬repeated → ¬passback → s.unit ≠ .faulted →
        (s.memory.health (s.bankAddress x (612 + 8 * cardProduct img)) = .uncorrectable →
          s.Yields .fareComputation (s.runStopped r x (s.bankAddress x (612 + 8 * cardProduct img))))
        ∧ (s.memory.health (s.bankAddress x (612 + 8 * cardProduct img)) = .clean →
          s.memory.health (s.bankAddress x (616 + 8 * cardProduct img)) = .uncorrectable →
          s.Yields .fareComputation (s.runStopped r x (s.bankAddress x (616 + 8 * cardProduct img)))))
    ∧ (cardCounter img < 65535 → ¬repeated → ¬passback →
        s.memory.health (s.bankAddress x (612 + 8 * cardProduct img)) = .clean →
        s.memory.health (s.bankAddress x (616 + 8 * cardProduct img)) = .clean →
      let w0 := s.memory.word (s.bankAddress x (612 + 8 * cardProduct img))
      let w1 := s.memory.word (s.bankAddress x (616 + 8 * cardProduct img))
      let pass : Prop := bits w0 0 8 = 2 ∧ now.day ≤ cardPassExpiry img ∧ cardPassLow img ≤ s.cfg.zone
        ∧ s.cfg.zone ≤ cardPassHigh img
      let gap : Int := ((now.day : Int) - cardLastExitDay img) * 1440 + (now.second / 60 : Nat)
        - (cardLastExitSecond img / 60 : Nat)
      let linked : Prop := cardLastExitStation img ≠ 0 ∧ 0 ≤ gap ∧ gap ≤ s.cfg.transferWindow
        ∧ cardTransferCount img < s.cfg.maximumTransfers
      let fare : Nat := if cardInside img then s.cfg.penaltyFare else 0
      let balance : Int := img[4].toInt - fare
      ∃ f : FareResult, f.fare = fare
        ∧ (f.passed = true ↔ (pass ∧ -(s.cfg.overdraftLimit : Int) ≤ balance) ∨ (¬pass ∧ (bits w1 16 16 : Int) ≤ balance))
        ∧ f.flags.penalty = cardInside img ∧ f.flags.override = false ∧ f.flags.capped = false
        ∧ (f.flags.pass = true ↔ pass) ∧ (f.flags.linked = true ↔ linked)
        ∧ (f.flags.negative = true ↔ f.passed = true ∧ balance < 0)
        ∧ f.writeBack =
            { balance := balance, daySpent := cardDaySpent img, spendDay := cardSpendDay img
              transferCount := if f.flags.linked = true then cardTransferCount img + 1 else 0, inside := true
              linked := f.flags.linked, stamp := .entry now s.cfg.station s.cfg.zone }
        ∧ (f.passed = true → s.Yields .fareComputation (run { r with
            fare := some f, image := some (composeImage s.cfg.keys img f.writeBack), written := 0, stage := .composing }))
        ∧ (f.passed = false → s.Yields .fareComputation (run { r with
            fare := some f, decision := some .insufficient, stage := .decided })))

/-- FARE_COMPUTATION on an EXIT lane (R25, R40, R59, R63 to R74), the words that it reads being clean in the pinned bank: a
Counter of 65,535 is COUNTER_EXHAUSTED; a last exit at this station within the repeat window is REPEAT; a card without a
valid entry pays the penalty fare alone, and its day's spending stays; else the base fare of the two zones, the band factor
of the entry minute or the override's, and the product factor are multiplied, rounded half up to the rounding unit and held
to the ceiling, then the transfer discount and the daily cap apply. The money test is the overdraft limit; a passed one goes
on to the Composer with the write-back values of R74, a failed one is INSUFFICIENT. Nothing but the run changes. An
uncorrectable word among those it reads (the product row, the Fare Matrix entry, and without the override the Band Count and
the bands) makes the bank DAMAGED and ends the run UNIT_FAULT with reason BANK_DAMAGED (R22, R52, R53, R56). The model's
choices: only the words that the result uses are read (log 25), those of the row and of the bands in ascending order and none
after an uncorrectable one, so that the fault and the address recorded are those of the first (log 41); a Band Count above 8
is read as 8 and without a band the factor is 0, and a Kind of none of the three is read as STORED (log 38); and, of a bank
lost, those of `State.bankLost` (logs 40, 55). The words are read with no other request of place 4 or before it waiting at the
arbiter, and none of them by an earlier choice. -/
def Obligations.ExitFareIsComputed : Prop :=
  ∀ (s : State) (r : Run) (x : BankId) (img : Image) (now : ServiceTime), s.screening.run = some r → r.stage = .fare →
    r.got = [] → s.PathFree .run 4 → (s.lane r.lane).pinned = some x → (s.lane r.lane).landed = some img → r.now = some now →
    (s.gate r.lane).direction = .exit →
    let run (q : Run) : State := { s with screening := { s.screening with run := some q } }
    let outcome (f : FareResult) (fare : Nat) (flags : FareFlags) (spent day : Nat) : Prop :=
      let balance : Int := img[4].toInt - fare
      f.fare = fare ∧ (f.passed = true ↔ -(s.cfg.overdraftLimit : Int) ≤ balance)
      ∧ f.flags = { flags with negative := f.passed && decide (balance < 0) }
      ∧ f.writeBack =
          { balance := balance, daySpent := spent, spendDay := day, transferCount := cardTransferCount img
            inside := false, linked := false, stamp := .exit now s.cfg.station }
      ∧ (f.passed = true → s.Yields .fareComputation (run { r with
          fare := some f, image := some (composeImage s.cfg.keys img f.writeBack), written := 0, stage := .composing }))
      ∧ (f.passed = false → s.Yields .fareComputation (run { r with
          fare := some f, decision := some .insufficient, stage := .decided }))
    let seconds : Int := now.day * 86400 + now.second - (cardLastExitDay img * 86400 + cardLastExitSecond img : Nat)
    let repeated : Prop := cardInside img = false ∧ cardLastExitStation img ≠ 0
      ∧ cardLastExitStation img = s.cfg.station ∧ 0 ≤ seconds ∧ seconds ≤ s.cfg.repeatWindow
    let age : Int := ((now.day : Int) - cardEntryDay img) * 1440 + (now.second / 60 : Nat)
      - (cardEntrySecond img / 60 : Nat)
    let valid : Prop := cardInside img = true ∧ 0 ≤ age ∧ age ≤ s.cfg.maximumJourney
    let clean (o : Nat) : Prop := s.memory.health (s.bankAddress x o) = .clean
    let at_ (o : Nat) : Word := s.memory.word (s.bankAddress x o)
    let w0 := at_ (612 + 8 * cardProduct img)
    let w1 := at_ (616 + 8 * cardProduct img)
    let cap := bits w1 0 16
    let row := 612 + 8 * cardProduct img
    let matrix := 64 + (32 * cardEntryZone img + 2 * s.cfg.zone) / 4 * 4
    let stops (o : Nat) : Prop := s.memory.health (s.bankAddress x o) = .uncorrectable →
      s.Yields .fareComputation (s.runStopped r x (s.bankAddress x o))
    (cardCounter img = 65535 →
      s.Yields .fareComputation (run { r with decision := some .counterExhausted, stage := .decided }))
    ∧ (cardCounter img < 65535 → repeated →
      s.Yields .fareComputation (run { r with decision := some .repeated, stage := .decided }))
    ∧ (cardCounter img < 65535 → ¬repeated → s.unit ≠ .faulted →
      stops row ∧ (clean row → stops (row + 4))
      ∧ (clean row → clean (row + 4) → valid →
        stops matrix
        ∧ (clean matrix → s.fareUnit.overrideOn = false →
          stops 576
          ∧ ∀ i, clean 576 → i < (at_ 576).toNat → i < 8 → (∀ j, j < i → clean (580 + 4 * j)) → stops (580 + 4 * i))))
    ∧ (cardCounter img < 65535 → ¬repeated → clean (612 + 8 * cardProduct img) → clean (616 + 8 * cardProduct img) →
      (¬valid → ∃ f, outcome f s.cfg.penaltyFare ⟨true, false, false, false, false, false⟩ (cardDaySpent img)
          (cardSpendDay img))
      ∧ ∀ band : Nat, valid →
        clean (64 + (32 * cardEntryZone img + 2 * s.cfg.zone) / 4 * 4) →
        (s.fareUnit.overrideOn = true → band = s.fareUnit.factor) →
        (s.fareUnit.overrideOn = false →
          let start (i : Nat) : Nat := bits (at_ (580 + 4 * i)) 0 16
          let minute := cardEntrySecond img / 60
          clean 576 ∧ 1 ≤ (at_ 576).toNat ∧ (at_ 576).toNat ≤ 8 ∧ (∀ i, i < (at_ 576).toNat → clean (580 + 4 * i))
          ∧ ∃ i, i < (at_ 576).toNat ∧ band = bits (at_ (580 + 4 * i)) 16 16
            ∧ ((start i ≤ minute ∧ ∀ j, i < j → j < (at_ 576).toNat → minute < start j)
              ∨ (i + 1 = (at_ 576).toNat ∧ ∀ j, j < (at_ 576).toNat → minute < start j))) →
        let base := bits (at_ (64 + (32 * cardEntryZone img + 2 * s.cfg.zone) / 4 * 4)) (16 * (s.cfg.zone % 2)) 16
        let pass := decide (bits w0 0 8 = 2 ∧ now.day ≤ cardPassExpiry img ∧ cardPassLow img ≤ cardEntryZone img
          ∧ cardEntryZone img ≤ cardPassHigh img ∧ cardPassLow img ≤ s.cfg.zone ∧ s.cfg.zone ≤ cardPassHigh img)
        let product := if pass = true then 0 else if bits w0 0 8 = 2 then 1000 else bits w0 16 16
        let unit := s.cfg.roundingUnit
        let fare1 := min (unit * ((base * band * product + 500000 * unit) / (1000000 * unit))) s.cfg.fareCeiling
        let fare2 := if cardLinked img then fare1 - s.cfg.transferDiscount else fare1
        let spent := if cardSpendDay img = now.day then cardDaySpent img else 0
        let fare3 := if 0 < cap then min fare2 (cap - spent) else fare2
        ∃ f, outcome f fare3
          ⟨false, s.fareUnit.overrideOn, pass, cardLinked img, decide (fare3 < fare2), false⟩
          (min 65535 (spent + fare3)) now.day)

/-- COMPOSE_WRITE_BACK (R100, R101, R5): the words of the write-back image that are not written yet are written to the lane's
write-back area, the image is the lane's Composed Image, and the verdict is ACCEPT. The image, field by field (R100): it
keeps the card's Serial, Product Class, six further flags, Carry Count, pass fields, and its first Carry Count Carry Words,
the others being 0 (R101); carries the Counter plus one, the Fare Unit's Balance, Day Spent, Spend Day, Transfer Count,
INSIDE and LINKED, and the CURRENT generation; on an entry takes the entry fields of the tap and keeps the last exit, on an
exit the other way round, a second above 86,399 that it keeps being written as 86,399; its bits without a field are 0; and it
passes the tag check under the CURRENT key. The words are written with no other request of place 3 or before it waiting at the
arbiter. -/
def Obligations.WriteBackIsComposed : Prop :=
  (∀ (s : State) (r : Run) (img : Image), s.screening.run = some r → r.stage = .composing → r.image = some img →
    r.written < 16 → r.got = [] → s.PathFree .composer 3 → s.memory.wf = true →
    ∃ t, exec .composeWriteBack s = .next t
      ∧ ({ s with
            memory := t.memory, lanes := s.lanes.set r.lane { s.lane r.lane with composed := some img }
            screening := { s.screening with run := some { r with decision := some .accept, stage := .decided } }
          }).Mirrored t
      ∧ (∀ i : Fin 16, r.written ≤ i.val →
          t.memory.word (s.laneAddress r.lane (128 + 4 * i.val)) = img[i.val]
          ∧ t.memory.health (s.laneAddress r.lane (128 + 4 * i.val)) = .clean)
      ∧ s.SameBytesBut t (s.laneAddress r.lane (128 + 4 * r.written)) (64 - 4 * r.written))
  ∧ ∀ (keys : List KeySlot) (key : KeySlot) (img : Image) (w : WriteBack),
    keys.find? (fun k => k.use == .current) = some key → cardCounter img < 65535 →
    -2147483648 ≤ w.balance → w.balance ≤ 2147483647 →
    let out := composeImage keys img w
    cardSerial out = cardSerial img ∧ cardCounter out = cardCounter img + 1 ∧ cardBalance out = w.balance
    ∧ cardFormat out = 1 ∧ cardGeneration out = key.generation ∧ cardTag key.key out = out[15]
    ∧ cardInside out = w.inside ∧ cardLinked out = w.linked ∧ cardPassExpiry out = cardPassExpiry img
    ∧ cardProduct out = cardProduct img
    ∧ cardFurtherFlags out = cardFurtherFlags img ∧ cardCarryCount out = cardCarryCount img
    ∧ cardPassLow out = cardPassLow img ∧ cardPassHigh out = cardPassHigh img
    ∧ (∀ i : Fin 4, cardCarryWord out i = if i.val < cardCarryCount img then cardCarryWord img i else 0)
    ∧ (w.daySpent < 65536 → cardDaySpent out = w.daySpent) ∧ (w.spendDay < 65536 → cardSpendDay out = w.spendDay)
    ∧ (w.transferCount < 4 → cardTransferCount out = w.transferCount)
    ∧ (∀ now station zone, w.stamp = .entry now station zone →
        now.day < 65536 → now.second < 86400 → station < 4096 → zone < 16 →
        cardEntryDay out = now.day ∧ cardEntrySecond out = now.second ∧ cardEntryStation out = station
        ∧ cardEntryZone out = zone ∧ cardLastExitDay out = cardLastExitDay img
        ∧ bits out[8] 0 17 = cardLastExitSecond img ∧ cardLastExitStation out = cardLastExitStation img)
    ∧ (∀ now station, w.stamp = .exit now station → now.day < 65536 → now.second < 86400 → station < 4096 →
        cardLastExitDay out = now.day ∧ cardLastExitSecond out = now.second ∧ cardLastExitStation out = station
        ∧ cardEntryDay out = cardEntryDay img ∧ bits out[6] 0 17 = cardEntrySecond img
        ∧ cardEntryStation out = cardEntryStation img ∧ cardEntryZone out = cardEntryZone img)
    ∧ bits out[0] 31 1 = 0 ∧ bits out[6] 31 1 = 0 ∧ bits out[8] 29 3 = 0 ∧ bits out[9] 12 20 = 0 ∧ out[14] = 0

/-! ### The hand-over and the Verdict Record (02, 05) -/

/-- VERDICT_HANDOVER (R19, R27, R28, R78) of a run whose lane's Reset Requested is not set: an ACCEPT gives the lane its
Verdict and begins the Verdict Record; FORGED, DENIED, CLONE, PASSBACK, INSUFFICIENT and COUNTER_EXHAUSTED request their
REFUSAL entry first, and the run waits for it, the lane being appending by no rule of R80; every other refusal gives back
what the lane holds reserved and begins its Verdict Record. A run whose pinned bank was made DAMAGED ends UNIT_FAULT with
reason BANK_DAMAGED, whatever it found (R20). With the mark set the outcome is discarded (R99). The model's choices: DEGRADED
is tested here, where R28 and R143 say at the moment the verdict is decided (log 14), a record takes its number when it is
begun (log 16), a return lowers the Reservation Total when the Journal Writer serves it (log 42), and the result word is
written within the row, where no other request of place 5 or before it waits at the arbiter (log 4). -/
def Obligations.VerdictIsHandedOver : Prop :=
  ∀ (s : State) (r : Run) (d : Decision), s.screening.run = some r → r.stage = .decided →
    (if r.bankDamaged = true then d = .unitFault .bankDamaged else r.decision = some d) →
    let n := r.lane
    let l := s.lane n
    let degraded := decide (s.line.membership ≠ .joined) || s.banks.fallback
    let free : State := { s with screening := { s.screening with run := none } }
    let fare : Nat := if d = .accept ∨ d = .insufficient then (r.fare.map (·.fare)).getD 0 else 0
    let flags : FareFlags :=
      if d = .accept ∨ d = .insufficient then (r.fare.map (·.flags)).getD FareFlags.none else FareFlags.none
    let record (balance : Option Word) : VerdictRecord :=
      { number := 0, lane := n, reissues := l.reissues, decision := d, flags := flags, degraded := degraded
        recovery := false, fare := fare, serial := l.landed.map cardSerial, counter := l.landed.map cardCounter
        balance := balance, time := r.now }
    let landedBalance : Option Word := l.landed.map (fun img => img[4])
    let journaled : Prop := d = .forgedKey ∨ d = .forgedTag ∨ (∃ p q, d = .deniedCentral p q) ∨ d = .deniedLocal
      ∨ d = .deniedNeighbor ∨ d = .cloneRegression ∨ d = .cloneDiverged ∨ d = .passback ∨ d = .insufficient
      ∨ d = .counterExhausted
    (l.resetRequested = false →
      (d = .accept → s.Yields .verdictHandover
        (State.begun { free with lanes := s.lanes.set n { l with verdict := some ⟨fare, flags, degraded⟩ } }
          (record (l.composed.map (fun img => img[4]))) .decided))
      ∧ (journaled → s.Yields .verdictHandover
        (State.request
          { s with screening := { s.screening with run := some { r with stage := .refusing, degraded := degraded } } }
          (.append
            { lane := some n, time := r.now, flags := flags, degraded := degraded
              body := .refusal d (cardSerial (l.landed.getD (Vector.replicate 16 0)))
                (cardCounter (l.landed.getD (Vector.replicate 16 0))) fare (l.landed.getD (Vector.replicate 16 0))[4]
              reserved := some n } (.handOver n))))
      ∧ (d ≠ .accept → ¬journaled → s.Yields .verdictHandover
        (State.begun
          { free with
            lanes := s.lanes.set n { l with reservation := 0 }
            journal := s.returned n }
          (record landedBalance) .idle)))
    ∧ ∀ k, l.resetRequested = true → l.resetSlot = some k → s.memory.wf = true →
      s.PathFree (.commandSlot k) 5 → (s.slot k).result = none →
      ∃ t, exec .verdictHandover s = .next t
        ∧ ({ free.idled n with memory := t.memory, slots := t.slots }).Mirrored t
        ∧ (t.slot k).busy = false ∧ (∀ j, j ≠ k → t.slot j = s.slot j)
        ∧ t.memory.word (s.slotAddress k 6) = resultWord (s.slot k).lastTaken .done .discarded
        ∧ s.SameBytesBut t (s.slotAddress k 6) 4

/-- VERDICT_RECORD_WRITTEN (R78, R81, R82): the words of lane n's oldest record that are not written yet are written, its
number becomes the lane's Verdict Number, the VERDICT notice is set, and the lane moves: to DECIDED with its decision hold
(R76, R94), back to IDLE (R79), or it stays in RECOVERY with its landing area open again (R11, R92). With no command waiting
for the lane nothing else changes; the commands that wait are taken then, in order (R80, R98; log 39). A record that answered
an arrival in RECOVERY changes nothing more (R11). The words are written with no other request of place 5 or before it
waiting at the arbiter, and none twice. The model's choices: the mask of such an arrival was cleared with it (log 17), the
comparing mark ends with the record of the comparison's outcome (log 18), and so does, after LANE_RECOVERING or MEMORY, its
mask (log 58), words 1 to 7 are written in ascending order (log 51), the result words of commands that waited are written
within the row (log 4), and leave the Detail Value as it was where their outcome has none (log 12), and without a record
nothing happens (log 2). -/
def Obligations.VerdictRecordIsWritten : Prop :=
  (∀ (s : State) (n : Lane), (∀ j ∈ s.status.records, j.lane ≠ n) → s.Yields (.verdictRecordWritten n) s)
  ∧ (∀ (s : State) (n : Lane) (j : RecordJob), s.status.records.find? (fun i => i.lane == n) = some j → j.written < 8 →
    s.PathFree (.verdictRecord n) 5 → (s.lane n).waiting = [] → s.memory.wf = true →
    ∃ t, exec (.verdictRecordWritten n) s = .next t
      ∧ (∀ i : Fin 8, (i = 0 ∨ j.written < i.val) →
          t.memory.word (s.laneAddress n (256 + 4 * i.val)) = j.words[i.val]
          ∧ t.memory.health (s.laneAddress n (256 + 4 * i.val)) = .clean)
      ∧ s.SameBytesBut t (s.laneAddress n 256) 32
      ∧ s.Notified t [.verdict n]
      ∧ (let l : LaneContext := { s.lane n with verdictNumber := j.number }
         let written : State :=
          { s with
            lanes := s.lanes.set n l, memory := t.memory
            status := { s.status with
              notices := t.status.notices, records := s.status.records.eraseP (fun i => i.lane == n) } }
         let after (x : LaneContext) : State := { written with lanes := s.lanes.set n x }
         (j.next = .decided ∨ j.next = .reissued →
            (after { l with state := .decided, timer := .decisionHold, comparing := false }).Mirrored t)
         ∧ (j.next = .idle → (written.idled n).Mirrored t)
         ∧ (j.next = .staysInRecovery → (after { l with comparing := false, mask := 0 }).Mirrored t)
         ∧ (j.next = .answeredInRecovery → written.Mirrored t)))
  ∧ ∀ (s : State) (n : Lane) (j : RecordJob), s.status.records.find? (fun i => i.lane == n) = some j →
    s.PathFree (.verdictRecord n) 5 → s.arbiter.requests.Nodup →
    ∃ u t, exec (.verdictRecordWritten n) (s.unawaited n) = .next u ∧ exec (.verdictRecordWritten n) s = .next t
      ∧ (s.resultsWritten (s.waitingTaken n u)).Mirrored t

/-! ### Results, timers and recovery (05) -/

/-- DECISION_HOLD_EXPIRY (R86), WRITE_TIMEOUT_EXPIRY (R90, R91) and RECOVERY_WINDOW_EXPIRY (R97), of a timer that runs and is
not held (R80, R92): EXPIRED, or NOT_CHARGED with flag EXPIRED for a re-issue, is requested; RECOVERY is entered with its
window and an empty landing mask; UNCERTAIN with flag WINDOW is requested. That a timer which does not run, or is held,
brings nothing is the model's choice (log 2). -/
def Obligations.LaneTimersExpire : Prop :=
  ∀ (s : State) (n : Lane),
    let l := s.lane n
    let hold : Prop := l.state = .decided ∧ l.timer = .decisionHold ∧ l.appending = false
    let write : Prop := l.state = .released ∧ l.timer = .writeTimeout ∧ l.appending = false
    let window : Prop := l.state = .recovery ∧ l.timer = .recoveryWindow ∧ l.appending = false ∧ l.comparing = false
    (hold → l.pendingSeq = none →
      s.Yields (.decisionHoldExpiry n) (s.appends n (s.entryOf n .expired false none) (.toIdle n none)))
    ∧ (∀ q, hold → l.pendingSeq = some q →
      s.Yields (.decisionHoldExpiry n) (s.appends n (s.entryOf n .notChargedExpired false (some q)) (.toIdle n none)))
    ∧ (¬hold → s.Yields (.decisionHoldExpiry n) s)
    ∧ (write → s.Yields (.writeTimeoutExpiry n)
        { s with lanes := s.lanes.set n { l with state := .recovery, timer := .recoveryWindow, mask := 0 } })
    ∧ (¬write → s.Yields (.writeTimeoutExpiry n) s)
    ∧ (window → s.Yields (.recoveryWindowExpiry n)
        (s.appends n (s.entryOf n .uncertainWindow true l.pendingSeq) (.toIdle n none)))
    ∧ (¬window → s.Yields (.recoveryWindowExpiry n) s)

/-- RESULT_WORD_WRITE (R88, R89, R91, R164) by the modem that holds the grant, where nothing goes before it at the arbiter
(R167): a word that the Region Map admits lands, and its Outcome, the low byte, is taken: WRITTEN commits, with the clock SET
or UNSET, FAILED requests NOT_CHARGED and stops the timer, any other value (TORN) leads to RECOVERY. A refused word
(UNEXPECTED_RESULT outside RELEASED, or while the lane is appending) changes nothing but the Fault Record and the answer. The
last word of an access during which the request was dropped ends the grant (R14). That the DENY message of a commit's
conflict joins the Transmit Queue before its SIGHTING message is the model's choice (log 19), and so is that the row makes
its word within it (logs 4, 6). -/
def Obligations.ResultWordIsTaken : Prop :=
  ∀ (s : State) (n : Lane) (left : Fin 4) (enables : BitVec 4) (data : Word), s.ReaderTurn n → s.ReaderFirst →
    s.unit = .ready →
    let a := s.laneAddress n 192
    (∀ f, s.judge a (.reader n) (.write enables data) = .error f →
      s.Yields (.resultWordWrite ⟨n, left⟩ enables data)
        { s.faulted f (.reader n) (some a) (some .write) none with
          reader := s.reader.answering left (.answer n (.failed none)) s.cfg.present })
    ∧ (s.judge a (.reader n) (.write enables data) = .ok (.result n) →
        (s.lane n).comparing = false → s.memory.wf = true → s.memory.health a = .clean →
      let w := mergeBytes enables (s.memory.word a) data
      ∃ t, exec (.resultWordWrite ⟨n, left⟩ enables data) s = .next t
        ∧ t.memory.word a = w ∧ s.SameBytesBut t a 4
        ∧ (let u : State := { s with
             memory := t.memory, reader := s.reader.answering left (.answer n (.done none)) s.cfg.present
             arbiter := s.readerServed enables }
           (w.toNat % 256 = 1 → s.Commits n false u t)
           ∧ (w.toNat % 256 = 2 →
              (State.appends { u with lanes := s.lanes.set n { s.lane n with timer := .stopped } } n
                (s.entryOf n .notCharged false (s.lane n).pendingSeq) (.toIdle n none)).Mirrored t)
           ∧ (w.toNat % 256 ≠ 1 → w.toNat % 256 ≠ 2 →
              ({ u with lanes := s.lanes.set n { s.lane n with
                state := .recovery, timer := .recoveryWindow, mask := 0 } }).Mirrored t)))

/-- RECOVERY_COMPARISON (R92 to R96) of a lane that is comparing and not appending, with no verdict of its own still being
written and no command waiting: a landing equal to the Composed Image commits with flag RECOVERED; one equal to the Landed
Image is issued again while re-issues are left, and otherwise NOT_CHARGED with flag REISSUES_SPENT is requested; another
image of the same Serial requests UNCERTAIN; another Serial is answered LANE_RECOVERING and an uncorrectable word UNREADABLE
with reason MEMORY, the lane staying in RECOVERY. The commands that wait for the lane are taken after the outcome, in order
(R80, R92; log 39), unless a word was uncorrectable. Without a comparison nothing happens. The model's choices: the comparing
mark stays until the record of the outcome is whole (log 18), and so does the mask after LANE_RECOVERING and MEMORY (log 58),
a re-issue stores DEGRADED as tested now in the lane's Verdict (log 20), a record of RECOVERY tests DEGRADED when it is begun
(log 14) and takes its number then (log 16), words are read in ascending order and none after an uncorrectable one (log 41),
the DENY message of a conflict joins before the SIGHTING message (log 19), the result words of commands that waited are
written within the row (log 4), outcomes without a value keep the Detail Value (log 12), and nothing happens without a
comparison (log 2). The words are read with no other request of place 4 or before it waiting at the arbiter (place 5, where
commands wait), none twice, and none of them by an earlier choice. -/
def Obligations.RecoveryComparisonDecides : Prop :=
  (∀ (s : State) (n : Lane), (s.lane n).comparing = false → s.Yields (.recoveryComparison n) s)
  ∧ (∀ (s : State) (n : Lane) (landed : Image), (s.lane n).comparing = true → (s.lane n).appending = false →
    (∀ j ∈ s.status.records, j.lane = n → j.next = .answeredInRecovery) → (s.lane n).waiting = [] →
    (s.lane n).got = [] → s.PathFree (.comparison n) 4 → (s.lane n).landed = some landed →
    let l := s.lane n
    let i : Instr := .recoveryComparison n
    let img : Image := Vector.ofFn (fun i : Fin 16 => s.memory.word (s.laneAddress n (4 * i.val)))
    let flags := (l.verdict.map (·.flags)).getD FareFlags.none
    ((∀ i : Fin 16, s.memory.health (s.laneAddress n (4 * i.val)) = .clean) →
      (l.composed = some img → ∃ t, exec i s = .next t ∧ s.Commits n true s t)
      ∧ (l.composed ≠ some img → landed = img → l.reissues < s.cfg.maximumReissues →
        let degraded := decide (s.line.membership ≠ .joined) || s.banks.fallback
        s.Yields i (State.begun
          { s with lanes := s.lanes.set n { l with
              reissues := l.reissues + 1, verdict := l.verdict.map (fun v => { v with degraded := degraded }) } }
          { s.answering n .accept with
            reissues := l.reissues + 1, flags := flags, recovery := true, fare := (l.verdict.map (·.fare)).getD 0
            serial := some (cardSerial landed), counter := some (cardCounter landed)
            balance := some (l.composed.getD (Vector.replicate 16 0))[4] } .reissued))
      ∧ (l.composed ≠ some img → landed = img → s.cfg.maximumReissues ≤ l.reissues →
        s.Yields i (State.appends
          { s with lanes := s.lanes.set n { l with comparing := false, timer := .stopped } } n
          (s.entryOf n .notChargedReissuesSpent false l.pendingSeq) (.rescreen n)))
      ∧ (l.composed ≠ some img → landed ≠ img → cardSerial img = cardSerial landed →
        s.Yields i (s.appends n (s.entryOf n .uncertain true l.pendingSeq) (.inconsistent n img)))
      ∧ (l.composed ≠ some img → landed ≠ img → cardSerial img ≠ cardSerial landed →
        s.Yields i (s.begun
          { s.answering n .laneRecovering with
            serial := some (cardSerial img), counter := some (cardCounter img), balance := some img[4] }
          .staysInRecovery)))
    ∧ (s.unit = .ready → (∃ i : Fin 16, s.memory.health (s.laneAddress n (4 * i.val)) = .uncorrectable) →
      ∃ t, exec i s = .next t ∧ s.SameBytes t
        ∧ ({ s.begun (s.answering n (.unreadable .memory)) .staysInRecovery with
              memory := t.memory, budget := t.budget, faultRecord := t.faultRecord
              status := { s.status with notices := t.status.notices, records := t.status.records } }).Mirrored t
        ∧ t.status.records = (s.begun (s.answering n (.unreadable .memory)) .staysInRecovery).status.records
        ∧ t.faultRecord.first ≠ none))
  ∧ ∀ (s : State) (n : Lane), (s.lane n).comparing = true → (s.lane n).appending = false →
    (∀ j ∈ s.status.records, j.lane = n → j.next = .answeredInRecovery) →
    (∀ i : Fin 16, s.memory.health (s.laneAddress n (4 * i.val)) = .clean) → (s.lane n).got = [] →
    s.PathFree (.comparison n) 5 → s.arbiter.requests.Nodup →
    ∃ u t, exec (.recoveryComparison n) (s.unawaited n) = .next u ∧ exec (.recoveryComparison n) s = .next t
      ∧ (s.resultsWritten (s.waitingTaken n u)).Mirrored t

/-! ### The journal (06) -/

/-- JOURNAL_APPEND_COMPLETE (R109, R110, R113) with no command waiting for the lane: the words of the entry that are not
written yet are written, Next Sequence rises by one, an entry against a reservation takes one of its lane's two, JOURNAL_HIGH
is set from the high-water mark on, and the requester's step follows: PROCEED's release with the Pending Sequence (R84), the
return to IDLE (R79), the credit (R89, R104, R126), the hand-over of a journaled refusal (R27), fresh screening (R95), or the
record of an inconsistent card (R96). The slot of the command that asked completes DONE. Then the requests that wait are
taken in the order they came (R109): a reservation or a rewrite begins; a return lowers the Reservation Total (R111); an
append against a reservation begins, and one into free space where there is any, and else is counted Unrecorded (R112). The
commands that waited for the lane are taken after the step, in order, and before the next request (R80; log 39). The model's
choices: the INCONSISTENT record tests DEGRADED now (log 14), a record takes its number when it is begun (log 16), words 1 to
6 of an entry are written in ascending order (log 43), a rewrite carries what holds when it is taken up (log 21) and, with no
bank ACTIVE, the former bank (log 55), result words are written within the row (log 4), DONE leaves the Detail Value as it
was (log 12), and a lane's Reservation is 0 before its return is served (log 42). The words are written with no other request
of place 2 or before it waiting at the arbiter (place 5, where a command completes), and none twice. -/
def Obligations.AppendCompletes : Prop :=
  (∀ s : State,
    let taking (j : JournalJob) (rest : List JournalRequest) : State :=
      { s with journal := { s.journal with job := some j, queue := rest } }
    let room := min (s.regionSize .journal / 32 - 1 - (s.journal.next - 1 - s.journal.released) - s.journal.reservationTotal)
      (4294967295 - s.journal.next - s.journal.reservationTotal)
    (s.journal.queue = [] → s.nextRequest = { s with journal := { s.journal with job := none, queue := [] } })
    ∧ (∀ n rest, s.journal.queue = .reserve n :: rest → s.nextRequest = taking (.reserve n) rest)
    ∧ (∀ k rest, s.journal.queue = .giveBack k :: rest →
        s.nextRequest = State.nextRequest { s with journal := { s.journal with
          reservationTotal := s.journal.reservationTotal - k, queue := rest } })
    ∧ (∀ d next rest, s.journal.queue = .append d next :: rest → (d.reserved ≠ none ∨ 1 ≤ room) →
        s.nextRequest = taking (.append s.journal.next (d.words s.journal.next) 0 d.reserved next) rest)
    ∧ (∀ d next rest, s.journal.queue = .append d next :: rest → d.reserved = none → room = 0 →
        s.nextRequest = State.nextRequest { s with journal := { s.journal with
          unrecorded := min 65535 (s.journal.unrecorded + 1), queue := rest } })
    ∧ (∀ rest, s.journal.queue = .rewrite false :: rest →
        s.nextRequest = taking (.rewrite (unitRecordWords s.journal.released s.journal.activeBank s.journal.activeVersion)
          0 false) rest)
    ∧ (∀ k q rest, s.journal.queue = .rewrite true :: rest → s.journal.release = some (k, q) →
        s.nextRequest = taking (.rewrite (unitRecordWords q s.journal.activeBank s.journal.activeVersion) 0 true) rest))
  ∧ (∀ (s : State) (seq : Nat) (words : Vector Word 8) (written : Nat) (reserved : Option Lane) (next : AfterAppend),
    s.journal.job = some (.append seq words written reserved next) → written < 8 →
    s.memory.wf = true → (∀ n, next.lane = some n → (s.lane n).waiting = []) →
    let a := s.regionBase .journal + 32 + 32 * (seq % (s.regionSize .journal / 32 - 1))
    let asking : Option SlotId := match next with | .release _ k => some k | .toIdle _ k => k | _ => none
    s.PathFree .journal (if asking = none then 2 else 5) → s.arbiter.requests.Nodup →
    (∀ k, asking = some k → (s.slot k).result = none ∧ (s.slotAddress k 6 + 4 ≤ a ∨ a + 32 ≤ s.slotAddress k 6)) →
    ∃ t, exec .journalAppendComplete s = .next t
      ∧ (∀ i : Fin 8, written ≤ i.val → t.memory.word (a + 4 * i.val) = words[i.val]
          ∧ t.memory.health (a + 4 * i.val) = .clean)
      ∧ (∀ b, (b < a + 4 * written ∨ a + 32 ≤ b) →
          (∀ k, asking = some k → b < s.slotAddress k 6 ∨ s.slotAddress k 6 + 4 ≤ b) →
          t.memory.byte b = s.memory.byte b)
      ∧ (asking = none → t.slots = s.slots)
      ∧ (∀ k, asking = some k →
          t.slot k = { s.slot k with busy := false, reading := none, command := none }
          ∧ (∀ j, j ≠ k → t.slot j = s.slot j)
          ∧ t.memory.word (s.slotAddress k 6) = resultWord (s.slot k).lastTaken .done .none)
      ∧ (7 * (s.regionSize .journal / 32 - 1) / 8 ≤ s.journal.next - s.journal.released → s.Notified t [.journalHigh])
      ∧ (s.journal.next - s.journal.released < 7 * (s.regionSize .journal / 32 - 1) / 8 →
          t.status.notices = s.status.notices)
      ∧ (let counted : State :=
           { s with
             memory := t.memory, slots := t.slots, status := { s.status with notices := t.status.notices }
             lanes := match reserved with
               | some n => s.lanes.set n { s.lane n with reservation := (s.lane n).reservation - 1 }
               | none => s.lanes
             journal := { s.journal with
               next := s.journal.next + 1
               reservationTotal := match reserved with
                 | some _ => s.journal.reservationTotal - 1
                 | none => s.journal.reservationTotal } }
         (next = .nothing → counted.nextRequest.Mirrored t)
         ∧ (∀ n k, next = .release n k →
             (State.nextRequest { counted with lanes := counted.lanes.set n { counted.lane n with
                 state := .released, timer := .writeTimeout, appending := false, pendingSeq := some seq } }).Mirrored t)
         ∧ (∀ n k, next = .toIdle n k → (counted.idled n).nextRequest.Mirrored t)
         ∧ (∀ n grant, next = .credit n grant →
             State.Mirrored (State.nextRequest { counted.idled n with gates := s.gates.set n { s.gate n with
               credits := (s.gate n).credits ++ [⟨seq, grant⟩]
               state := if (s.gate n).state = .closed then .opened else (s.gate n).state
               headTimer := if (s.gate n).state = .closed then true else (s.gate n).headTimer } }) t)
         ∧ (∀ n r d, next = .handOver n → s.screening.run = some r → r.stage = .refusing → r.lane = n →
             r.bankDamaged = false → r.decision = some d → d ≠ .accept →
             (State.nextRequest (State.begun
               { counted with
                 screening := { s.screening with run := none }
                 lanes := counted.lanes.set n { counted.lane n with reservation := 0 }
                 journal := counted.returned n }
               { number := 0, lane := n, reissues := (s.lane n).reissues, decision := d
                 flags := if d = .insufficient then (r.fare.map (·.flags)).getD FareFlags.none else FareFlags.none
                 degraded := r.degraded, recovery := false
                 fare := if d = .insufficient then (r.fare.map (·.fare)).getD 0 else 0
                 serial := (s.lane n).landed.map cardSerial, counter := (s.lane n).landed.map cardCounter
                 balance := (s.lane n).landed.map (fun img => img[4]), time := r.now } .idle)).Mirrored t)
         ∧ (∀ n, next = .rescreen n →
             let active : Option BankId :=
               if s.banks.a.state = some .active then some .a else if s.banks.b.state = some .active then some .b
               else none
             (State.nextRequest { counted with
                 screening := { s.screening with queue := s.screening.queue ++ [n] }
                 banks := (s.banks.unpinned (s.lane n).pinned).pinnedOn active
                 journal := counted.returned n
                 lanes := counted.lanes.set n { counted.lane n with
                   reservation := 0, state := .screening, pinned := active, composed := none, verdict := none, pendingSeq := none
                   reissues := 0, timer := .stopped, resetRequested := false, appending := false } }).Mirrored t)
         ∧ (∀ n img, next = .inconsistent n img →
             (State.nextRequest (State.begun
               { counted with lanes := counted.lanes.set n { counted.lane n with
                 appending := false, pendingSeq := none } }
               { s.answering n (.unreadable .inconsistent) with
                 serial := some (cardSerial img), counter := some (cardCounter img), balance := some img[4] }
               .idle)).Mirrored t)))
  ∧ ∀ (s : State) (n : Lane) (seq : Nat) (words : Vector Word 8) (written : Nat) (reserved : Option Lane)
    (next : AfterAppend), s.journal.job = some (.append seq words written reserved next) → next.lane = some n →
    s.journal.queue = [] → s.PathFree .journal 5 → s.arbiter.requests.Nodup →
    ∃ u t, exec .journalAppendComplete (s.unawaited n) = .next u ∧ exec .journalAppendComplete s = .next t
      ∧ (s.resultsWritten (State.nextRequest
          (s.waitingTaken n { u with journal := { u.journal with job := s.journal.job } }))).Mirrored t

/-- UNIT_RECORD_REWRITE_COMPLETE (R114, R115): the words of the Unit Record that are not written yet are written, its Marks
last; a JOURNAL_RELEASE then takes effect, Released Sequence becoming q, and its slot completes DONE; another rewrite changes
nothing else. Then the requests that wait are taken in order (R109), as AppendCompletes states. The model's choices: the
words before each Mark are written in ascending order (log 43), a rewrite carries what held when it was taken up (log 21)
and, with no bank ACTIVE, the former bank (log 55), the result word is written within the row (log 4), and DONE leaves the
Detail Value as it was (log 12). The words are written with no other request of place 2 or before it waiting at the arbiter
(place 5, for a JOURNAL_RELEASE), and none twice. -/
def Obligations.RewriteCompletes : Prop :=
  ∀ (s : State) (words : Vector Word 8) (written : Nat) (releasing : Bool),
    s.journal.job = some (.rewrite words written releasing) → written < 8 →
    s.memory.wf = true → s.PathFree .journal (if releasing = true then 5 else 2) →
    s.arbiter.requests.Nodup →
    let a := s.regionBase .journal
    (releasing = false →
      ∃ t, exec .unitRecordRewriteComplete s = .next t
        ∧ (State.nextRequest { s with memory := t.memory }).Mirrored t
        ∧ (∀ i : Fin 8, written ≤ i.val → t.memory.word (a + 4 * i.val) = words[i.val])
        ∧ s.SameBytesBut t (a + 4 * written) (32 - 4 * written))
    ∧ ∀ (k : SlotId) (q : Nat), releasing = true → s.journal.release = some (k, q) → (s.slot k).result = none →
      (s.slotAddress k 6 + 4 ≤ a ∨ a + 32 ≤ s.slotAddress k 6) →
      ∃ t, exec .unitRecordRewriteComplete s = .next t
        ∧ (State.nextRequest { s with
              memory := t.memory, slots := t.slots
              journal := { s.journal with released := q, release := none } }).Mirrored t
        ∧ (∀ i : Fin 8, written ≤ i.val → t.memory.word (a + 4 * i.val) = words[i.val])
        ∧ t.slot k = { s.slot k with busy := false, reading := none, command := none }
        ∧ (∀ j, j ≠ k → t.slot j = s.slot j)
        ∧ t.memory.word (s.slotAddress k 6) = resultWord (s.slot k).lastTaken .done .none
        ∧ ∀ b, (b < a + 4 * written ∨ a + 32 ≤ b) → (b < s.slotAddress k 6 ∨ s.slotAddress k 6 + 4 ≤ b) →
          t.memory.byte b = s.memory.byte b

/-! ### The banks (03) -/

/-- BANK_VALIDATION_END (R48 to R50). The tests in order, the first that fails giving the detail: VERSION for a Version of 0,
DENY_COUNT above the bank's limit, CHECK, DENY_ORDER with the entry's index, BAND_COUNT, BAND_ORDER and BAND_FACTOR with the
band's, PRODUCT_KIND and PRODUCT_FACTOR with the row's as Detail Value (R178), and MEMORY at an uncorrectable word met
before: the command completes BAD_TABLE, no validation is in progress, and the bank is STAGING, or, for MEMORY, DAMAGED with
the BANK notice and the run pinned to it marked (R52); no journal entry. A validation that finds no failure, as it does when
every test passes, makes the bank ACTIVE with the Version read and the bank that was ACTIVE VALID, ends the fallback,
requests the Unit Record and a BANK_SWITCH entry, sets the BANK notice and completes DONE. The model's choices: the Version
kept where its word is uncorrectable (log 22), no read after an uncorrectable word (log 41), no word of the Status Area past
the slot's Detail Value written before the result word (log 48), an outcome without a value keeping the Detail Value (log
12), the result word written within the row (log 4), and the rewrite requested before the entry (log 40). The words are read
with no other request of place 6 or before it waiting at the arbiter, and none of them by an earlier choice, and no other
result word waits. -/
def Obligations.BankValidationEnds : Prop :=
  ∀ (s : State) (x : BankId) (k : SlotId), s.banks.validation = some (x, k) → s.memory.wf = true →
    s.banks.got = [] → s.PathFree .bankControl 6 → s.Sound → (∀ j, (s.slot j).result = none) →
    (s.bank x).state = some .validating →
    let failing (detail : Detail) (value : Option Word) (state : BankState) (version : Word) : Prop :=
      ∃ t, exec .bankValidationEnd s = .next t
        ∧ ({ s with
              memory := t.memory, slots := t.slots, faultRecord := t.faultRecord, budget := t.budget, banks := t.banks
              screening := t.screening, status := { s.status with notices := t.status.notices } }).Mirrored t
        ∧ t.banks.validation = none ∧ t.banks.got = [] ∧ t.banks.fallback = s.banks.fallback
        ∧ t.banks.due = s.banks.due
        ∧ t.bank x = { state := some state, pins := (s.bank x).pins, version := version }
        ∧ (∀ y, y ≠ x → t.bank y = s.bank y)
        ∧ t.slot k = { s.slot k with
            busy := false, reading := none, command := none, detailValue := value.getD (s.slot k).detailValue }
        ∧ (∀ j, j ≠ k → t.slot j = s.slot j)
        ∧ t.memory.word (s.slotAddress k 6) = resultWord (s.slot k).lastTaken .badTable detail
        ∧ (∀ v, value = some v → t.memory.word (s.statusAddress (208 + k.val)) = v)
        ∧ (∀ b, (b < s.slotAddress k 6 ∨ s.slotAddress k 6 + 4 ≤ b) →
            (value = none ∨ b < s.statusAddress 0 ∨ s.statusAddress (209 + k.val) ≤ b) →
            t.memory.byte b = s.memory.byte b)
        ∧ (t.noticed .bank = true ↔ s.noticed .bank = true ∨ state = .damaged)
        ∧ (state ≠ .damaged → t.screening = s.screening)
        ∧ (∀ r, state = .damaged → s.screening.run = some r → t.screening = { s.screening with
            run := some (if (s.lane r.lane).pinned = some x then { r with bankDamaged := true } else r) })
    let failed (detail : Detail) (state : BankState) (version : Word) : Prop := failing detail none state version
    let v := s.bankAddress x 0
    let c := s.bankAddress x 4
    (s.memory.health v = .uncorrectable → s.unit = .ready → failed .memory .damaged (s.bank x).version)
    ∧ (s.memory.health v = .clean → s.memory.word v = 0 → failed .version .staging 0)
    ∧ (s.memory.health v = .clean → s.memory.word v ≠ 0 → s.memory.health c = .clean →
        (s.regionSize (bankKind x) - 1024) / 16 < (s.memory.word c).toNat →
        failed .denyCount .staging (s.memory.word v))
    ∧ (s.memory.health v = .clean → s.memory.word v ≠ 0 → s.memory.health c = .uncorrectable → s.unit = .ready →
        failed .memory .damaged (s.memory.word v))
    ∧ (let word (o : Nat) : Word := s.memory.word (s.bankAddress x o)
       let count := (word 4).toNat
       let readable (o : Nat) : Prop := s.memory.health (s.bankAddress x o) ≠ .uncorrectable
       let covered : Prop := readable 8 ∧ ∀ i, i < 240 + 4 * count → readable (64 + 4 * i)
       let serial (i : Nat) : Serial := word (1028 + 16 * i) ++ word (1024 + 16 * i)
       let bands := (word 576).toNat
       let start (i : Nat) : Nat := bits (word (580 + 4 * i)) 0 16
       let row (i : Nat) : Word := word (612 + 8 * i)
       let first (i : Nat) (bad : Nat → Prop) : Prop := bad i ∧ ∀ j, j < i → ¬bad j
       let check : Prop :=
         crc32 ((List.range (960 + 16 * count)).map (fun i => s.memory.byte (s.bankAddress x (64 + i)))) = word 8
       let denyOrder (i : Nat) : Prop := 0 < i ∧ i < count ∧ (serial i).toNat ≤ (serial (i - 1)).toNat
       let bandOrder (i : Nat) : Prop := 0 < i ∧ i < bands ∧ start i ≤ start (i - 1)
       let bandFactor (i : Nat) : Prop := i < bands ∧ 2000 < bits (word (580 + 4 * i)) 16 16
       let productKind (i : Nat) : Prop := i < 16 ∧ ¬(1 ≤ bits (row i) 0 8 ∧ bits (row i) 0 8 ≤ 3)
       let productFactor (i : Nat) : Prop := i < 16 ∧ 1000 < bits (row i) 16 16
       let ordered : Prop := ∀ i, ¬denyOrder i
       let counted : Prop := 1 ≤ bands ∧ bands ≤ 8
       let rising : Prop := ∀ i, ¬bandOrder i
       let factored : Prop := ∀ i, ¬bandFactor i
       let kinds : Prop := ∀ i, ¬productKind i
       let at_ (detail : Detail) (i : Nat) : Prop :=
         s.StatusApart → failing detail (some (BitVec.ofNat 32 i)) .staging (word 0)
       s.unit = .ready → readable 0 → readable 4 → word 0 ≠ 0 → count ≤ (s.regionSize (bankKind x) - 1024) / 16 →
         (¬covered → failed .memory .damaged (word 0))
         ∧ (covered →
           (¬check → failed .check .staging (word 0))
           ∧ (∀ i, check → first i denyOrder → at_ .denyOrder i)
           ∧ (check → ordered → ¬counted → failed .bandCount .staging (word 0))
           ∧ (∀ i, check → ordered → counted → first i bandOrder → at_ .bandOrder i)
           ∧ (∀ i, check → ordered → counted → rising → first i bandFactor → at_ .bandFactor i)
           ∧ (∀ i, check → ordered → counted → rising → factored → first i productKind → at_ .productKind i)
           ∧ (∀ i, check → ordered → counted → rising → factored → kinds → first i productFactor →
               at_ .productFactor i)
           ∧ (check → ordered → counted → rising → factored → kinds → (∀ i, ¬productFactor i) →
               (s.validate x).1 = ⟨none, some (word 0)⟩)))
    ∧ ∀ version : Word, (s.validate x).1 = ⟨none, some version⟩ →
      let former : Option BankId :=
        if s.banks.a.state = some .active then some .a else if s.banks.b.state = some .active then some .b else none
      ∃ t, exec .bankValidationEnd s = .next t
        ∧ ({ s with
              memory := t.memory, slots := t.slots, faultRecord := t.faultRecord, budget := t.budget, banks := t.banks
              journal := t.journal, status := { s.status with notices := t.status.notices } }).Mirrored t
        ∧ t.banks.validation = none ∧ t.banks.got = [] ∧ t.banks.fallback = false ∧ t.banks.due = s.banks.due
        ∧ t.bank x = { state := some .active, pins := (s.bank x).pins, version := version }
        ∧ (∀ y, y ≠ x → t.bank y = { s.bank y with
              state := if former = some y then some .valid else (s.bank y).state })
        ∧ t.noticed .bank = true
        ∧ t.journal = ((State.request { s with journal := { s.journal with
                activeBank := some x, activeVersion := version } } (.rewrite false)).request (.append
              { lane := none, time := s.clock, flags := FareFlags.none, degraded := false
                body := .bankSwitch x version (former.map (fun y => (y, (s.bank y).version))), reserved := none }
              .nothing)).journal
        ∧ t.slot k = { s.slot k with busy := false, reading := none, command := none }
        ∧ (∀ j, j ≠ k → t.slot j = s.slot j)
        ∧ t.memory.word (s.slotAddress k 6) = resultWord (s.slot k).lastTaken .done .none
        ∧ s.SameBytesBut t (s.slotAddress k 6) 4

/-- BANK_WRITE (R45, R162 to R165, R171) at a free Processor Port in READY, where no other request waits at the arbiter: a
word that the Region Map refuses (under SERVICE mode, or of an ACTIVE, VALIDATING or DAMAGED bank, or of a VALID bank with
pins) is answered ERROR with its fault; an admitted one lands, and an EMPTY or VALID bank becomes STAGING. The model's
choices are those of ProcessorWordIsJudged (logs 5, 6, 32), and that the row makes its word within it (log 4). -/
def Obligations.BankWriteStagesBank : Prop :=
  ∀ (s : State) (x : BankId) (offset : BitVec 20) (mode : Mode) (enables : BitVec 4) (data : Word), s.ProcessorTurn →
    let a := s.bankAddress x offset.toNat / 4 * 4
    (∀ f, s.judge a (.processor mode) (.write enables data) = .error f →
      s.Yields (.bankWrite x offset mode enables data)
        { s.faulted f .processor (some a) (some .write) (some mode) with
          processor := s.processor.answered (.failed none) })
    ∧ (s.judge a (.processor mode) (.write enables data) = .ok (.bank x) → s.memory.wf = true →
        s.memory.health a = .clean → s.PathIdle →
      mode = .maint
      ∧ ∃ t, exec (.bankWrite x offset mode enables data) s = .next t
        ∧ ({ s with
              memory := t.memory, processor := s.processor.answered (.done none), banks := t.banks
              arbiter := s.processorServed enables }).Mirrored t
        ∧ t.memory.word a = mergeBytes enables (s.memory.word a) data ∧ s.SameBytesBut t a 4
        ∧ t.bank x = { s.bank x with state := some .staging }
        ∧ (∀ y, y ≠ x → t.bank y = s.bank y) ∧ t.banks.validation = s.banks.validation ∧ t.banks.got = s.banks.got
        ∧ t.banks.fallback = s.banks.fallback ∧ t.banks.due = s.banks.due)

/-! ### The gates (07) -/

/-- BEAM_CHANGE (R124, R125, R128 to R132) at a present lane in READY, from the Beam State that the inputs show to another: a
change that does not end in CLEAR moves the Beam State alone, the first blocked beam being the Entry Beam and BOTH the
crossing, and stops the alarm hold; one that ends in CLEAR closes the path: A, BOTH, B is a forward passage, B, BOTH, A a
reverse one. A forward passage takes the head credit of an OPEN gate, and raises a TAILGATE alarm at a CLOSED or ALARM one; a
reverse one raises a WRONG_WAY alarm at each of the three; FREE and EMERGENCY ignore both; a path that is no passage lets a
deferred expiry take the head credit. Before READY the beams are followed and no passage is handed over; while RESET_N is
asserted the Beam State is what the inputs show, with no path begun in CLEAR and an UNKNOWN one otherwise; and from the end
of LOADING the inputs of an absent lane are not followed (R122), their levels alone being taken. -/
def Obligations.BeamsMovePassages : Prop :=
  ∀ (s : State) (n : Lane) (beam : Beam) (blocked : Bool),
    let show_ (a b : Bool) : BeamState := if a then (if b then .ab else .a) else if b then .b else .clear
    let g := s.gate n
    let i : Instr := .beamChange n beam blocked
    let inputA := if beam = .a then blocked else g.inputA
    let inputB := if beam = .b then blocked else g.inputB
    let x := show_ inputA inputB
    let follows : Prop := g.beams = show_ g.inputA g.inputB ∧ x ≠ g.beams
    let entered : Gate := { g with inputA := inputA, inputB := inputB }
    let cleared : Gate := { entered with
      beams := .clear, entryBeam := .absent, crossed := false
      alarmTimer := if g.state = .alarm then true else g.alarmTimer }
    let gates (h : Gate) : State := { s with gates := s.gates.set n h }
    let requested (h : Gate) (body : EntryBody) : State :=
      State.request (gates h) (.append { lane := some n, time := s.clock, flags := FareFlags.none, degraded := false
                                         body := body, reserved := none } .nothing)
    let onCredits (h : Gate) : Gate :=
      { h with state := if h.credits = [] then .closed else .opened, headTimer := decide (h.credits ≠ [])
               expiryPending := false, alarmTimer := false }
    let alarmed (body : EntryBody) : Prop :=
      ∃ t, exec i s = .next t ∧ s.Notified t [.alarm n]
        ∧ ({ requested { cleared with state := .alarm, headTimer := false, expiryPending := false, alarmTimer := true }
               body with
              status := { s.status with notices := t.status.notices } }).Mirrored t
    let head : Option Nat := g.credits.head?.map (·.commitSeq)
    let moved : Gate := { entered with
      beams := x
      entryBeam := if g.beams = .clear then (if x = .a then .a else if x = .b then .b else g.entryBeam)
                   else g.entryBeam
      crossed := if x = .ab then true else if g.beams = .clear then false else g.crossed
      alarmTimer := if g.state = .alarm then false else g.alarmTimer }
    (s.unit = .inReset → s.Yields i (gates { entered with
      beams := x, entryBeam := if x = .clear then .absent else .unknown, crossed := false }))
    ∧ (s.unit = .scanning ∨ s.unit = .ready → s.present n = false → s.Yields i (gates entered))
    ∧ (s.unit = .loading ∨ s.unit = .faulted ∨ (s.unit = .scanning ∧ s.present n = true) → follows →
        (x ≠ .clear → s.Yields i (gates moved)) ∧ (x = .clear → s.Yields i (gates cleared)))
    ∧ (s.unit = .ready → s.present n = true → follows →
    (x ≠ .clear → s.Yields i (gates moved))
    ∧ (x = .clear → g.entryBeam = .a → g.crossed = true → g.beams = .b →
      (g.state = .opened → s.Yields i (gates (onCredits { cleared with credits := g.credits.tail })))
      ∧ (g.state = .closed → alarmed (.tailgate .closed))
      ∧ (g.state = .alarm → alarmed (.tailgate .alarm))
      ∧ (g.state = .free ∨ g.state = .emergency → s.Yields i (gates cleared)))
    ∧ (x = .clear → g.entryBeam = .b → g.crossed = true → g.beams = .a →
      (g.state = .opened → alarmed (.wrongWay .opened head))
      ∧ (g.state = .closed → alarmed (.wrongWay .closed head))
      ∧ (g.state = .alarm → alarmed (.wrongWay .alarm head))
      ∧ (g.state = .free ∨ g.state = .emergency → s.Yields i (gates cleared)))
    ∧ (x = .clear → ¬(g.entryBeam = .a ∧ g.crossed = true ∧ g.beams = .b) →
        ¬(g.entryBeam = .b ∧ g.crossed = true ∧ g.beams = .a) →
      (g.expiryPending = false → s.Yields i (gates cleared))
      ∧ ∀ c rest, g.expiryPending = true → g.credits = c :: rest →
        s.Yields i (requested (onCredits { cleared with credits := rest })
          (.unusedPassage (match c.grant, s.clock with
            | some x, some y => min 65535 (y.day * 86400 + y.second - (x.day * 86400 + x.second))
            | _, _ => 0) c.commitSeq))))

/-- HEAD_TIMER_EXPIRY (R130, R139): with the beams clear the head credit lapses with its UNUSED_PASSAGE entry, which names
the seconds it was held, and the gate goes on with the next credit or closes; with a beam blocked the expiry waits for the
path to end. ALARM_HOLD_EXPIRY (R132): the gate leaves ALARM for OPEN, with the head timer started, or CLOSED. That a timer
which does not run brings nothing is the model's choice (log 2). -/
def Obligations.GateTimersExpire : Prop :=
  ∀ (s : State) (n : Lane),
    let g := s.gate n
    let gates (h : Gate) : State := { s with gates := s.gates.set n h }
    let onCredits (h : Gate) : Gate :=
      { h with state := if h.credits = [] then .closed else .opened, headTimer := decide (h.credits ≠ [])
               expiryPending := false, alarmTimer := false }
    (g.headTimer = false → s.Yields (.headTimerExpiry n) s)
    ∧ (g.headTimer = true → g.beams ≠ .clear →
        s.Yields (.headTimerExpiry n) (gates { g with headTimer := false, expiryPending := true }))
    ∧ (∀ c rest, g.headTimer = true → g.beams = .clear → g.credits = c :: rest →
        s.Yields (.headTimerExpiry n) (State.request (gates (onCredits { g with credits := rest }))
          (.append { lane := some n, time := s.clock, flags := FareFlags.none, degraded := false
                     body := .unusedPassage (match c.grant, s.clock with
                       | some x, some y => min 65535 (y.day * 86400 + y.second - (x.day * 86400 + x.second))
                       | _, _ => 0) c.commitSeq
                     reserved := none } .nothing)))
    ∧ (g.alarmTimer = true → s.Yields (.alarmHoldExpiry n) (gates (onCredits g)))
    ∧ (g.alarmTimer = false → s.Yields (.alarmHoldExpiry n) s)

/-- EMERGENCY_ASSERT, EMERGENCY_DEASSERT and EMERGENCY_INPUT_BEFORE_READY (R136 to R138): a level that the input already has
brings nothing, which is the model's choice (log 31); in READY an assertion holds every present gate open with no timer,
keeps its credits, requests an EMERGENCY_START entry and sets the notice; the end puts each present gate on its credits, with
its EMERGENCY_END entry and the notice; in LOADING and FAULTED every gate, and in SCANNING every present one, follows the
input, with no entry and no notice; while RESET_N is asserted only the level is taken. -/
def Obligations.EmergencyMovesGates : Prop :=
  ∀ s : State,
    let untimed (g : Gate) (x : GateState) : Gate :=
      { g with state := x, headTimer := false, expiryPending := false, alarmTimer := false }
    let onCredits (h : Gate) : Gate :=
      { h with state := if h.credits = [] then .closed else .opened, headTimer := decide (h.credits ≠ [])
               expiryPending := false, alarmTimer := false }
    let entry (body : EntryBody) : JournalRequest :=
      .append { lane := none, time := s.clock, flags := FareFlags.none, degraded := false, body := body
                reserved := none } .nothing
    let present (n : Lane) (h : Gate → Gate) : Gate := if s.present n = true then h (s.gate n) else s.gate n
    let each (f : Lane → Gate) : Quad Gate := ⟨f 0, f 1, f 2, f 3⟩
    let byInput (level : Bool) : GateState := if level = true then .emergency else .closed
    (s.emergency = true → s.Yields .emergencyAssert s ∧ s.Yields (.emergencyInputBeforeReady true) s)
    ∧ (s.emergency = false → s.Yields .emergencyDeassert s ∧ s.Yields (.emergencyInputBeforeReady false) s)
    ∧ (s.emergency = false → s.unit = .ready →
      ∃ t, exec .emergencyAssert s = .next t ∧ s.Notified t [.emergency]
        ∧ ({ State.request
              { s with emergency := true, gates := each (fun n => present n (untimed · .emergency)) }
              (entry (.emergencyStart s.cfg.present)) with
            status := { s.status with notices := t.status.notices } }).Mirrored t)
    ∧ (s.emergency = true → s.unit = .ready →
      ∃ t, exec .emergencyDeassert s = .next t ∧ s.Notified t [.emergency]
        ∧ ({ State.request { s with emergency := false, gates := each (fun n => present n onCredits) }
              (entry (.emergencyEnd s.cfg.present)) with
            status := { s.status with notices := t.status.notices } }).Mirrored t)
    ∧ ∀ level, s.emergency ≠ level →
      (s.unit = .inReset → s.Yields (.emergencyInputBeforeReady level) { s with emergency := level })
      ∧ (s.unit = .loading ∨ s.unit = .faulted →
        s.Yields (.emergencyInputBeforeReady level)
          { s with emergency := level
                   gates := each (fun n => untimed (s.gate n) (byInput level)) })
      ∧ (s.unit = .scanning →
        s.Yields (.emergencyInputBeforeReady level)
          { s with emergency := level
                   gates := each (fun n => present n (untimed · (byInput level))) })

/-! ### The neighbor line (08) -/

/-- SLOT_BOUNDARY (R140, R144, R145, R147, R155, R157) of a running clock: the next slot, after slot 15 slot 0 of the next
cycle modulo 256 with every Silence count below 4 raised by one; a LISTEN whose clock a frame has aligned becomes JOINED; in
the unit's own slot a JOINED controller sends a frame of at most four messages from the head of its queue, which are then in
flight, and a controller in CHECK a frame of four CHECK messages, with the next four Indices modulo 65,536, each with the
pattern bytes of its Index counted from the seed, bit 0 of the first inverted under injection where the Index mod 127 is 126,
to be looped back in WRAP mode (R156, R157); in any other slot, and in any other state, nothing is sent. The model's choices:
an earlier frame still on the line is given up at the own slot (log 30), and a stopped clock has no boundary (log 2). -/
def Obligations.SlotBoundaryAdvances : Prop :=
  (∀ s : State, s.line.running = false → s.Yields .slotBoundary s)
  ∧ ∀ s : State, s.line.running = true →
    let last : Prop := s.line.slot = 15
    ∃ t, exec .slotBoundary s = .next t
      ∧ ({ s with line := t.line, status := { s.status with notices := t.status.notices } }).Mirrored t
      ∧ t.line.slot = s.line.slot + 1
      ∧ (last → t.line.cycle = (s.line.cycle + 1) % 256
          ∧ ∀ u : Fin 16, t.line.presence[u] =
              { s.line.presence[u] with silence := min 4 (s.line.presence[u].silence + 1) })
      ∧ (¬last → t.line.cycle = s.line.cycle ∧ t.line.presence = s.line.presence ∧ t.line.cycles = s.line.cycles)
      ∧ (last → s.line.membership = .resync → s.line.cycles ≤ s.cfg.unitId.val →
          t.line.cycles = s.line.cycles + 1)
      ∧ (s.line.joining = true → t.line.membership = .joined ∧ t.line.joining = false
          ∧ (s.line.membership ≠ .joined → t.noticed .line = true))
      ∧ (s.line.joining = false → t.line.membership = s.line.membership)
      ∧ (s.line.slot + 1 ≠ s.cfg.unitId → t.line.sending = s.line.sending ∧ t.line.queue = s.line.queue
          ∧ t.line.sendIndex = s.line.sendIndex)
      ∧ (s.line.slot + 1 = s.cfg.unitId → t.line.membership = .joined →
          t.line.sending = some
            { cycle := t.line.cycle, looped := []
              bytes := frameBytes s.cfg.unitId t.line.cycle
                ((s.line.queue.take 4).map (fun m => m.message.bytes s.cfg.unitId)) }
          ∧ t.line.queue = (s.line.queue.take 4).map (fun m : QueuedMessage => { m with inFlight := true })
              ++ (s.line.queue.drop 4).map (fun m : QueuedMessage => { m with inFlight := false }))
      ∧ (s.line.slot + 1 = s.cfg.unitId → t.line.membership = .check →
          let index (i : Nat) : Nat := (s.line.sendIndex + i) % 65536
          let pattern (j : Nat) : Vector Byte 8 := (patternBytes (generatorRun generatorSeed (64 * j))).1
          let carried (j : Nat) : Vector Byte 8 :=
            if s.line.injection = true ∧ j % 127 = 126 then (pattern j).set 0 ((pattern j)[0] ^^^ 1) else pattern j
          ∃ f, t.line.sending = some f ∧ f.cycle = t.line.cycle
            ∧ (s.line.sendIndex < 65536 → s.line.generator = generatorRun generatorSeed (64 * s.line.sendIndex) →
                f.bytes = frameBytes s.cfg.unitId t.line.cycle
                  ((List.range 4).map (fun i => checkMessageBytes (index i) (carried (index i))))
                ∧ (s.line.mode = some .wrap →
                    f.looped = (List.range 4).map (fun i => .check (index i) (carried (index i))))
                ∧ t.line.sendIndex = index 4
                ∧ t.line.generator = generatorRun generatorSeed (64 * index 4))
            ∧ (f.bytes.getD 2 0).toNat = 4 ∧ f.bytes.length = 69
            ∧ (f.looped = [] ↔ s.line.mode ≠ some .wrap)
            ∧ (s.line.sendIndex + 4 ≤ 65535 → t.line.sendIndex = s.line.sendIndex + 4)
            ∧ ∀ m ∈ t.line.queue, m.inFlight = false)
      ∧ (s.line.slot + 1 = s.cfg.unitId → t.line.membership ≠ .joined → t.line.membership ≠ .check →
          t.line.sending = s.line.sending ∧ t.line.queue = s.line.queue)

/-- FRAME_COMPLETE and COLLISION (R145, R155, R156) with a frame on the line: a complete frame's messages leave the queue,
the others keeping their order, and this unit is heard in the cycle of the frame; a looped frame's CHECK messages reach its
own inbox. A collision cuts the frame off: every message stays, none in flight, and the controller enters RESYNC, its clock
running on unaligned. With no frame on the line neither brings anything. SILENCE_TIMER_EXPIRY (R144, R145): a controller
whose silence timer runs is JOINED in its own slot of cycle 0 with an aligned clock, and sends its frame at once. RESYNC_END
(R147): after unit id + 1 cycle boundaries in RESYNC the controller enters LISTEN with its silence timer. The model's
choices: without a frame, a running timer or enough boundaries none of the four brings anything (log 2); a looped frame meets
no collision (log 30), but a JOINED frame still being completed in CHECK in WRAP mode does (log 46); a looped frame is taken
here, and its messages wait in the inbox (logs 53, 29); LISTEN keeps the slot and the cycle (log 28); the boundaries are
counted to unit id + 1 (log 36). -/
def Obligations.FramesAndLineTimersEnd : Prop :=
  (∀ s : State,
     (s.line.sending = none → s.Yields .frameComplete s ∧ s.Yields .collision s)
     ∧ ∀ f, s.line.sending = some f →
       (∃ t, exec .frameComplete s = .next t
         ∧ ({ s with
               line := { s.line with
                 sending := none, queue := s.line.queue.filter (fun m => !m.inFlight)
                 inbox := s.line.inbox ++ f.looped.map (fun m => (s.cfg.unitId, m))
                 presence := s.line.presence.set s.cfg.unitId.val ⟨some f.cycle, 0⟩ }
               status := { s.status with notices := t.status.notices } }).Mirrored t
         ∧ (4 ≤ (s.line.presence[s.cfg.unitId]).silence → t.noticed .line = true))
       ∧ (f.looped ≠ [] → s.Yields .collision s)
       ∧ (f.looped = [] → ∃ t, exec .collision s = .next t
         ∧ ({ s with
               line := { s.line with
                 sending := none, queue := s.line.queue.map (fun m : QueuedMessage => { m with inFlight := false })
                 membership := .resync, aligned := false, joining := false, misaligned := 0, cycles := 0
                 mode := none }
               status := { s.status with notices := t.status.notices } }).Mirrored t
         ∧ (s.line.membership ≠ .resync → t.noticed .line = true)))
  ∧ (∀ s : State,
       (s.line.silenceTimer = false → s.Yields .silenceTimerExpiry s)
       ∧ (s.line.silenceTimer = true → s.line.membership = .listen → ∃ t, exec .silenceTimerExpiry s = .next t
         ∧ ({ s with
               line := { s.line with
                 membership := .joined, slot := s.cfg.unitId, cycle := 0, aligned := true, silenceTimer := false
                 sending := t.line.sending, queue := t.line.queue }
               status := { s.status with notices := t.status.notices } }).Mirrored t
         ∧ s.Notified t [.line]
         ∧ t.line.sending = some
             { cycle := 0, looped := []
               bytes := frameBytes s.cfg.unitId 0 ((s.line.queue.take 4).map (fun m => m.message.bytes s.cfg.unitId)) }
         ∧ t.line.queue = (s.line.queue.take 4).map (fun m : QueuedMessage => { m with inFlight := true })
             ++ (s.line.queue.drop 4).map (fun m : QueuedMessage => { m with inFlight := false }))
       ∧ (¬(s.line.membership = .resync ∧ s.cfg.unitId.val < s.line.cycles) → s.Yields .resyncEnd s)
       ∧ (s.line.membership = .resync → s.cfg.unitId.val < s.line.cycles → s.line.sending = none →
           ∃ t, exec .resyncEnd s = .next t
           ∧ ({ s with
                 line := { s.line with
                   membership := .listen, running := true, aligned := false, silenceTimer := true, joining := false
                   misaligned := 0, mode := none, queue := s.line.queue.map (fun m : QueuedMessage => { m with inFlight := false }) }
                 status := { s.status with notices := t.status.notices } }).Mirrored t
           ∧ s.Notified t [.line]))

/-- FRAME_RECEIVED (R141, R144, R146, R148, R152, R155): nothing is heard in SILENT and in CHECK in WRAP mode; an invalid
frame is counted, to at most 255, and changes nothing else; a valid one with this unit's own id makes the controller SILENT
and sets DUPLICATE_ID; another refreshes its sender's presence and its messages join the inbox. It aligns a LISTEN clock,
sets an aligned clock again when it began in its sender's slot, and otherwise counts as misaligned, the third in a row
leading to RESYNC. The model's choices: the messages wait in an inbox, which an entry to SILENT empties (log 29), and the
slot in which a frame began comes with the event (log 28). -/
def Obligations.FramesAreTaken : Prop :=
  ∀ (s : State) (beganIn : UnitId) (bytes : List Byte),
    let i : Instr := .frameReceived beganIn bytes
    let hears : Prop := s.line.membership ≠ .silent ∧ (s.line.membership = .check → s.line.mode = some .line)
    (¬hears → s.Yields i s)
    ∧ (hears → frameOfBytes bytes = none →
        s.Yields i { s with line := { s.line with framingErrors := min 255 (s.line.framingErrors + 1) } })
    ∧ ∀ f, hears → frameOfBytes bytes = some f →
      (f.sender = s.cfg.unitId → ∃ t, exec i s = .next t
        ∧ ({ s with line := t.line, status := { s.status with notices := t.status.notices } }).Mirrored t
        ∧ t.line.membership = .silent ∧ t.noticed .duplicateId = true ∧ t.line.running = false
        ∧ t.line.presence = Vector.replicate 16 ⟨none, 4⟩ ∧ t.line.inbox = [] ∧ t.line.sending = none
        ∧ t.line.queue = s.line.queue.map (fun m : QueuedMessage => { m with inFlight := false }))
      ∧ (f.sender ≠ s.cfg.unitId → ∃ t, exec i s = .next t
        ∧ ({ s with line := t.line, status := { s.status with notices := t.status.notices } }).Mirrored t
        ∧ t.line.presence = s.line.presence.set f.sender.val ⟨some f.cycle, 0⟩
        ∧ t.line.inbox = s.line.inbox ++ f.messages.map (fun m => (f.sender, m))
        ∧ t.line.framingErrors = s.line.framingErrors
        ∧ (s.line.membership = .listen → t.line.membership = .listen ∧ t.line.slot = f.sender
            ∧ t.line.cycle = f.cycle ∧ t.line.aligned = true ∧ t.line.silenceTimer = false ∧ t.line.joining = true)
        ∧ (s.line.membership = .resync → t.line.membership = .resync ∧ t.line.slot = s.line.slot
            ∧ t.line.cycle = s.line.cycle)
        ∧ (s.line.membership = .joined ∨ s.line.membership = .check →
          (beganIn = f.sender → t.line.membership = s.line.membership ∧ t.line.slot = f.sender
            ∧ t.line.cycle = f.cycle ∧ t.line.misaligned = 0)
          ∧ (beganIn ≠ f.sender → s.line.misaligned < 2 → t.line.membership = s.line.membership
            ∧ t.line.slot = s.line.slot ∧ t.line.misaligned = s.line.misaligned + 1)
          ∧ (beganIn ≠ f.sender → 2 ≤ s.line.misaligned → t.line.membership = .resync ∧ t.line.aligned = false
            ∧ t.line.misaligned = 0 ∧ t.line.cycles = 0)))

/-- SIGHTING_MESSAGE (R152, R153, R36) at the head of the inbox, while the line is heard: a Serial of 0 is ignored; with no
live entry, or one of a lower Counter, the message's use is set in the Sightings Table, with Origin NEIGHBOR and the service
time now, as R36 says, and no set is made while the Service Clock is UNSET; a higher Counter in the table, or the same use,
changes nothing; an equal Counter with another unit or Balance stays, requests a CLONE entry, and adds the Serial to the
Local Deny List, a full list giving up an entry (R31), with its DENY_ADDED entry, its notice and its DENY message (R153),
which a full queue takes as R151 says. The message leaves the inbox. That the CLONE entry is requested before the DENY_ADDED
entry is the model's choice (log 40), and so is the inbox (log 29). -/
def Obligations.SightingMessageIsApplied : Prop :=
  ∀ (s : State) (sender u : UnitId) (x : Serial) (counter : Nat) (balance : Word)
    (rest : List (UnitId × ReceivedMessage)), s.line.inbox = (sender, .sighting x counter balance u) :: rest →
    let i : Instr := .sightingMessage
    let hears : Prop := s.line.membership ≠ .silent ∧ (s.line.membership = .check → s.line.mode = some .line)
    let taken : State := { s with line := { s.line with inbox := rest } }
    let found (e : Sighting) : Prop := s.sightings.find? (fun e => e.serial == x) = some e
    (¬hears ∨ x = 0 → s.Yields i taken)
    ∧ (hears → x ≠ 0 →
      ((∀ e, found e → s.Live e → e.counter < counter) → ∃ t, exec i s = .next t
        ∧ ({ taken with sightings := t.sightings }).Mirrored t
        ∧ (∀ now, s.clock = some now →
            SightingSet (s.lookedUp x) ⟨x, counter, balance, u, now, .neighbor⟩ t.sightings)
        ∧ (s.clock = none → t.sightings = s.sightings))
      ∧ ∀ e, found e → s.Live e →
        (counter < e.counter ∨ (counter = e.counter ∧ e.unitId = u ∧ e.balance = balance) → s.Yields i taken)
        ∧ (counter = e.counter → (e.unitId ≠ u ∨ e.balance ≠ balance) → ∃ t, exec i s = .next t
          ∧ ({ taken with
                denyList := t.denyList, journal := t.journal
                line := { taken.line with queue := t.line.queue, dropped := t.line.dropped }
                status := { s.status with notices := t.status.notices } }).Mirrored t
          ∧ (let entry : JournalRequest :=
               .append { lane := none, time := s.clock, flags := FareFlags.none, degraded := false
                         body := .clone x counter balance u e.unitId (decide (e.unitId ≠ u))
                           (decide (e.balance ≠ balance)), reserved := none } .nothing
             ((∃ d ∈ s.denyList, d.serial = x) →
                t.denyList = s.denyList ∧ t.journal = (s.request entry).journal ∧ t.line = taken.line
                ∧ t.status.notices = s.status.notices)
             ∧ ((∀ d ∈ s.denyList, d.serial ≠ x) → s.Notified t [.deny]
                ∧ t.denyList = s.denyJoined ⟨x, .own, .clone, s.clock⟩
                ∧ t.journal = ((s.request entry).request (s.denyEntry x .own .clone 0)).journal
                ∧ t.line = taken.line.joined s.cfg.lineEnabled (.deny x .clone)))))

/-- DENY_MESSAGE (R152, R154) and CHECK_MESSAGE (R152, R158) at the head of the inbox. A DENY of a Serial not yet denied
joins the Local Deny List with Origin NEIGHBOR, a full list giving up an entry (R31), with its notice and its DENY_ADDED
entry, and is not sent on; a Serial of 0, or one already denied, changes nothing. A CHECK message, in JOINED and CHECK, acts
on its sender's entry alone: Index 0 marks it unsynchronised; the Index after the last synchronises it and is compared; a
synchronised entry counts what was missing before a higher Index and compares it, and a lower or equal Index ends the
synchronisation. The message leaves the inbox, which is the model's own (log 29). -/
def Obligations.DenyAndCheckMessagesAreApplied : Prop :=
  (∀ (s : State) (sender origin : UnitId) (x : Serial) (reason : DenyReason) (rest : List (UnitId × ReceivedMessage)),
    s.line.inbox = (sender, .deny x reason origin) :: rest →
    let hears : Prop := s.line.membership ≠ .silent ∧ (s.line.membership = .check → s.line.mode = some .line)
    let taken : State := { s with line := { s.line with inbox := rest } }
    ((¬hears ∨ x = 0 ∨ ∃ d ∈ s.denyList, d.serial = x) → s.Yields .denyMessage taken)
    ∧ (hears → x ≠ 0 → (∀ d ∈ s.denyList, d.serial ≠ x) → ∃ t, exec .denyMessage s = .next t
      ∧ ({ taken with
            denyList := t.denyList, journal := t.journal
            status := { s.status with notices := t.status.notices } }).Mirrored t
      ∧ s.Notified t [.deny] ∧ t.denyList = s.denyJoined ⟨x, .neighbor, reason, s.clock⟩
      ∧ t.journal = (s.request (s.denyEntry x .neighbor reason origin)).journal))
  ∧ ∀ (s : State) (sender : UnitId) (j : Nat) (received : Vector Byte 8) (rest : List (UnitId × ReceivedMessage)),
    s.line.inbox = (sender, .check j received) :: rest →
    let e := s.line.results[sender]
    let outcome (r : CheckResult) : State :=
      { s with line := { s.line with inbox := rest, results := s.line.results.set sender.val r } }
    let heard : Prop := s.line.membership = .joined
      ∨ (s.line.membership = .check ∧ (s.line.mode = some .line ∨ sender = s.cfg.unitId))
    (¬heard → s.Yields .checkMessage { s with line := { s.line with inbox := rest } })
    ∧ (heard → j = 0 → s.Yields .checkMessage (outcome { e with synced := false, lastIndex := some 0 }))
    ∧ (∀ last, heard → 0 < j → e.synced = false → e.lastIndex = some last → j ≠ last + 1 →
        s.Yields .checkMessage (outcome { e with lastIndex := some j }))
    ∧ (heard → 0 < j → e.synced = false → e.lastIndex = none →
        s.Yields .checkMessage (outcome { e with lastIndex := some j }))
    ∧ (∀ last, heard → 0 < j → e.synced = true → e.lastIndex = some last → j ≤ last →
        s.Yields .checkMessage (outcome { e with synced := false, lastIndex := some j }))
    ∧ ∀ last, heard → 0 < j → e.lastIndex = some last →
      ((e.synced = true ∧ last < j) ∨ (e.synced = false ∧ j = last + 1)) →
      let compared : CheckResult :=
        { e with
          synced := true, lastIndex := some j, checked := min 65535 (e.checked + 1)
          missing := if e.synced = true then min 255 (e.missing + (j - last - 1)) else e.missing }
      (received = patternOf j → s.Yields .checkMessage (outcome compared))
      ∧ ∀ k : Fin 8, received[k] ≠ (patternOf j)[k] → (∀ m : Fin 8, m < k → received[m] = (patternOf j)[m]) →
        s.Yields .checkMessage (outcome { compared with
          mismatches := min 255 (e.mismatches + 1)
          first := some (e.first.getD ⟨j, k.val, (patternOf j)[k], received[k]⟩) })

/-! ### The Status Area and the records (10, 12) -/

/-- STATUS_WORD_WRITE (R184): the values of the Change Count that are due are written first, the newest of them last; then
the lowest stale word is written with the value its state holds now and leaves the set; when it was the last, the Change
Count rises by one and is written after it. With no stale word the due values alone are written. No other byte of memory
changes, and nothing that the words mirror does. Words that become stale join the set, each once; when the set was empty the
Change Count rises by one, and the new value is due behind those that are still to be written, so that an even value not yet
written is not lost. The words are written with no other request of place 5 or before it waiting at the arbiter; a Detail
Value behind which a result word stands is one that the command's own row writes (R178). That the row makes these writes
together is the model's choice (log 4), and so are the bits of a mirrored field that has no value (logs 27, 57). -/
def Obligations.StatusWordIsWritten : Prop :=
  (∀ (s : State) (i : Nat) (rest : List Nat) (count : Word), s.status.stale = i :: rest → 0 < i → i < 1024 →
    s.status.changeCount = some count → s.memory.wf = true → s.PathFree .statusArea 5 →
    (∀ k : SlotId, i = 208 + k.val → (s.slot k).result = none) →
    let base := s.regionBase .status
    ∃ t, exec .statusWordWrite s = .next t
      ∧ ({ s with memory := t.memory }).Mirrored t ∧ t.status.stale = rest ∧ t.status.due = []
      ∧ t.memory.word (base + 4 * i) = s.mirrorWord i
      ∧ t.memory.health (base + 4 * i) = .clean
      ∧ (∀ b, (b < base ∨ base + 4 ≤ b) → (b < base + 4 * i ∨ base + 4 * i + 4 ≤ b) →
          t.memory.byte b = s.memory.byte b)
      ∧ (rest ≠ [] → t.status.changeCount = some count
          ∧ (∀ v, s.status.due.getLast? = some v → t.memory.word base = v)
          ∧ (s.status.due = [] → t.memory.word base = s.memory.word base))
      ∧ (rest = [] → t.status.changeCount = some (count + 1) ∧ t.memory.word base = count + 1))
  ∧ (∀ s : State, s.status.stale = [] → s.memory.wf = true → s.PathFree .statusArea 5 →
    let base := s.regionBase .status
    ∃ t, exec .statusWordWrite s = .next t
      ∧ ({ s with memory := t.memory }).Mirrored t ∧ t.status.stale = [] ∧ t.status.due = []
      ∧ t.status.changeCount = s.status.changeCount
      ∧ (∀ v, s.status.due.getLast? = some v → t.memory.word base = v ∧ t.memory.health base = .clean)
      ∧ s.SameBytesBut t base 4
      ∧ (s.status.due = [] → t.memory = s.memory))
  ∧ ∀ (s : State) (words : List Nat),
    let t := s.makeStale words
    t = { s with status := { s.status with
            stale := t.status.stale, changeCount := t.status.changeCount, due := t.status.due } }
    ∧ (∀ i, i ∈ t.status.stale ↔ i ∈ words ∨ i ∈ s.status.stale)
    ∧ (s.status.stale.Pairwise (· < ·) → t.status.stale.Pairwise (· < ·))
    ∧ (words = [] ∨ s.status.stale ≠ [] →
        t.status.changeCount = s.status.changeCount ∧ t.status.due = s.status.due)
    ∧ ∀ count, words ≠ [] → s.status.stale = [] → s.status.changeCount = some count →
        t.status.changeCount = some (count + 1) ∧ t.status.due = s.status.due ++ [count + 1]
        ∧ t.hasWord .statusArea = true

/-- The records that the part writes are read back as they were written: a frame of up to four messages with its CRC-16
(R141, R142), a valid journal entry (R105, R107), each copy of the Unit Record (R114), and the echo, outcome and detail of a
result word (R178). That a copy with the Released Sequence 4,294,967,295, which is outside R106's range, is valid too is
DEDUCED (log 52). -/
def Obligations.RecordsAreReadBack : Prop :=
  (∀ (u : UnitId) (cycle : Nat) (l : List TransmitMessage), cycle < 256 → l.length ≤ 4 →
    (∀ x counter balance, TransmitMessage.sighting x counter balance ∈ l → counter < 65536) →
    frameOfBytes (frameBytes u cycle (l.map (TransmitMessage.bytes u))) =
      some ⟨u, cycle, l.map (fun m => match m with
        | .sighting x counter balance => .sighting x counter balance u
        | .deny x reason => .deny x reason u)⟩)
  ∧ (∀ (d : EntryDraft) (seq : Nat), 0 < seq → seq < 4294967296 →
      validEntry (d.words seq) seq = true ∧ entryKind (d.words seq) = d.body.code)
  ∧ (∀ (released : Nat) (bank : Option BankId) (version : Word), released < 4294967296 →
      unitRecordOfCopy (some (unitRecordCopy released bank version).toList) = some ⟨released, bank, version⟩)
  ∧ ∀ (echo : Nat) (outcome : CommandOutcome) (detail : Detail), echo < 65536 →
    let w := resultWord echo outcome detail
    w.toNat % 65536 = echo ∧ w.toNat / 65536 % 256 = outcome.code ∧ w.toNat / 16777216 = detail.number
end

