-- ==== Sys2Proof/Laws/State.lean ====
section
/-! SUPPORT. What each named update of State leaves and changes, field by field: true by rfl or by the cases
of a lane, a bank or a slot, and tagged for the simplifier. -/

namespace Sys2Proof.Machine

variable (s t : State)

/-! ### One value for each lane -/

@[simp] theorem Quad.get_all {α : Type} (x : α) (n : Lane) : (Quad.all x).get n = x := by
  fin_cases n <;> rfl

@[simp] theorem Quad.get_set_self {α : Type} (q : Quad α) (n : Lane) (x : α) : (q.set n x).get n = x := by
  fin_cases n <;> rfl

theorem Quad.get_set_other {α : Type} (q : Quad α) {n m : Lane} (x : α) (h : m ≠ n) :
    (q.set n x).get m = q.get m := by
  revert h; fin_cases n <;> fin_cases m <;> intro h <;> first | rfl | exact absurd rfl h

@[simp] theorem Quad.set_get {α : Type} (q : Quad α) (n : Lane) : q.set n (q.get n) = q := by
  fin_cases n <;> rfl

@[simp] theorem Quad.set_set {α : Type} (q : Quad α) (n : Lane) (x y : α) : (q.set n x).set n y = q.set n y := by
  fin_cases n <;> rfl

/-- Two registers of the four lanes are equal when every lane's value is. -/
theorem Quad.ext_get {α : Type} {p q : Quad α} (h : ∀ n, p.get n = q.get n) : p = q := by
  cases p; cases q
  have h0 := h 0; have h1 := h 1; have h2 := h 2; have h3 := h 3
  simp only [Quad.get] at h0 h1 h2 h3
  simp [h0, h1, h2, h3]


/-! ### State.setLane -/

@[simp] theorem State.setLane_pending (n : Lane) (x : LaneContext) : (s.setLane n x).pending = s.pending := rfl
@[simp] theorem State.setLane_freeDraws (n : Lane) (x : LaneContext) : (s.setLane n x).freeDraws = s.freeDraws := rfl
@[simp] theorem State.setLane_startUp (n : Lane) (x : LaneContext) : (s.setLane n x).startUp = s.startUp := rfl
@[simp] theorem State.setLane_cfg (n : Lane) (x : LaneContext) : (s.setLane n x).cfg = s.cfg := rfl
@[simp] theorem State.setLane_emergency (n : Lane) (x : LaneContext) : (s.setLane n x).emergency = s.emergency := rfl
@[simp] theorem State.setLane_memory (n : Lane) (x : LaneContext) : (s.setLane n x).memory = s.memory := rfl
@[simp] theorem State.setLane_processor (n : Lane) (x : LaneContext) : (s.setLane n x).processor = s.processor := rfl
@[simp] theorem State.setLane_reader (n : Lane) (x : LaneContext) : (s.setLane n x).reader = s.reader := rfl
@[simp] theorem State.setLane_arbiter (n : Lane) (x : LaneContext) : (s.setLane n x).arbiter = s.arbiter := rfl
@[simp] theorem State.setLane_budget (n : Lane) (x : LaneContext) : (s.setLane n x).budget = s.budget := rfl
@[simp] theorem State.setLane_faultRecord (n : Lane) (x : LaneContext) :
    (s.setLane n x).faultRecord = s.faultRecord := rfl
@[simp] theorem State.setLane_lanes (n : Lane) (x : LaneContext) : (s.setLane n x).lanes = s.lanes.set n x := rfl
@[simp] theorem State.setLane_verdictCount (n : Lane) (x : LaneContext) :
    (s.setLane n x).verdictCount = s.verdictCount := rfl
@[simp] theorem State.setLane_screening (n : Lane) (x : LaneContext) : (s.setLane n x).screening = s.screening := rfl
@[simp] theorem State.setLane_fareUnit (n : Lane) (x : LaneContext) : (s.setLane n x).fareUnit = s.fareUnit := rfl
@[simp] theorem State.setLane_denyList (n : Lane) (x : LaneContext) : (s.setLane n x).denyList = s.denyList := rfl
@[simp] theorem State.setLane_sightings (n : Lane) (x : LaneContext) : (s.setLane n x).sightings = s.sightings := rfl
@[simp] theorem State.setLane_journal (n : Lane) (x : LaneContext) : (s.setLane n x).journal = s.journal := rfl
@[simp] theorem State.setLane_banks (n : Lane) (x : LaneContext) : (s.setLane n x).banks = s.banks := rfl
@[simp] theorem State.setLane_gates (n : Lane) (x : LaneContext) : (s.setLane n x).gates = s.gates := rfl
@[simp] theorem State.setLane_line (n : Lane) (x : LaneContext) : (s.setLane n x).line = s.line := rfl
@[simp] theorem State.setLane_slots (n : Lane) (x : LaneContext) : (s.setLane n x).slots = s.slots := rfl
@[simp] theorem State.setLane_status (n : Lane) (x : LaneContext) : (s.setLane n x).status = s.status := rfl
@[simp] theorem State.setLane_clock (n : Lane) (x : LaneContext) : (s.setLane n x).clock = s.clock := rfl

/-! ### State.setGate -/

@[simp] theorem State.setGate_pending (n : Lane) (x : Gate) : (s.setGate n x).pending = s.pending := rfl
@[simp] theorem State.setGate_freeDraws (n : Lane) (x : Gate) : (s.setGate n x).freeDraws = s.freeDraws := rfl
@[simp] theorem State.setGate_startUp (n : Lane) (x : Gate) : (s.setGate n x).startUp = s.startUp := rfl
@[simp] theorem State.setGate_cfg (n : Lane) (x : Gate) : (s.setGate n x).cfg = s.cfg := rfl
@[simp] theorem State.setGate_emergency (n : Lane) (x : Gate) : (s.setGate n x).emergency = s.emergency := rfl
@[simp] theorem State.setGate_memory (n : Lane) (x : Gate) : (s.setGate n x).memory = s.memory := rfl
@[simp] theorem State.setGate_processor (n : Lane) (x : Gate) : (s.setGate n x).processor = s.processor := rfl
@[simp] theorem State.setGate_reader (n : Lane) (x : Gate) : (s.setGate n x).reader = s.reader := rfl
@[simp] theorem State.setGate_arbiter (n : Lane) (x : Gate) : (s.setGate n x).arbiter = s.arbiter := rfl
@[simp] theorem State.setGate_budget (n : Lane) (x : Gate) : (s.setGate n x).budget = s.budget := rfl
@[simp] theorem State.setGate_faultRecord (n : Lane) (x : Gate) : (s.setGate n x).faultRecord = s.faultRecord := rfl
@[simp] theorem State.setGate_lanes (n : Lane) (x : Gate) : (s.setGate n x).lanes = s.lanes := rfl
@[simp] theorem State.setGate_verdictCount (n : Lane) (x : Gate) :
    (s.setGate n x).verdictCount = s.verdictCount := rfl
@[simp] theorem State.setGate_screening (n : Lane) (x : Gate) : (s.setGate n x).screening = s.screening := rfl
@[simp] theorem State.setGate_fareUnit (n : Lane) (x : Gate) : (s.setGate n x).fareUnit = s.fareUnit := rfl
@[simp] theorem State.setGate_denyList (n : Lane) (x : Gate) : (s.setGate n x).denyList = s.denyList := rfl
@[simp] theorem State.setGate_sightings (n : Lane) (x : Gate) : (s.setGate n x).sightings = s.sightings := rfl
@[simp] theorem State.setGate_journal (n : Lane) (x : Gate) : (s.setGate n x).journal = s.journal := rfl
@[simp] theorem State.setGate_banks (n : Lane) (x : Gate) : (s.setGate n x).banks = s.banks := rfl
@[simp] theorem State.setGate_gates (n : Lane) (x : Gate) : (s.setGate n x).gates = s.gates.set n x := rfl
@[simp] theorem State.setGate_line (n : Lane) (x : Gate) : (s.setGate n x).line = s.line := rfl
@[simp] theorem State.setGate_slots (n : Lane) (x : Gate) : (s.setGate n x).slots = s.slots := rfl
@[simp] theorem State.setGate_status (n : Lane) (x : Gate) : (s.setGate n x).status = s.status := rfl
@[simp] theorem State.setGate_clock (n : Lane) (x : Gate) : (s.setGate n x).clock = s.clock := rfl

/-! ### State.setSlot -/

@[simp] theorem State.setSlot_pending (k : SlotId) (x : CommandSlot) : (s.setSlot k x).pending = s.pending := rfl
@[simp] theorem State.setSlot_freeDraws (k : SlotId) (x : CommandSlot) :
    (s.setSlot k x).freeDraws = s.freeDraws := rfl
@[simp] theorem State.setSlot_startUp (k : SlotId) (x : CommandSlot) : (s.setSlot k x).startUp = s.startUp := rfl
@[simp] theorem State.setSlot_cfg (k : SlotId) (x : CommandSlot) : (s.setSlot k x).cfg = s.cfg := rfl
@[simp] theorem State.setSlot_emergency (k : SlotId) (x : CommandSlot) :
    (s.setSlot k x).emergency = s.emergency := rfl
@[simp] theorem State.setSlot_memory (k : SlotId) (x : CommandSlot) : (s.setSlot k x).memory = s.memory := rfl
@[simp] theorem State.setSlot_processor (k : SlotId) (x : CommandSlot) :
    (s.setSlot k x).processor = s.processor := rfl
@[simp] theorem State.setSlot_reader (k : SlotId) (x : CommandSlot) : (s.setSlot k x).reader = s.reader := rfl
@[simp] theorem State.setSlot_arbiter (k : SlotId) (x : CommandSlot) : (s.setSlot k x).arbiter = s.arbiter := rfl
@[simp] theorem State.setSlot_budget (k : SlotId) (x : CommandSlot) : (s.setSlot k x).budget = s.budget := rfl
@[simp] theorem State.setSlot_faultRecord (k : SlotId) (x : CommandSlot) :
    (s.setSlot k x).faultRecord = s.faultRecord := rfl
@[simp] theorem State.setSlot_lanes (k : SlotId) (x : CommandSlot) : (s.setSlot k x).lanes = s.lanes := rfl
@[simp] theorem State.setSlot_verdictCount (k : SlotId) (x : CommandSlot) :
    (s.setSlot k x).verdictCount = s.verdictCount := rfl
@[simp] theorem State.setSlot_screening (k : SlotId) (x : CommandSlot) :
    (s.setSlot k x).screening = s.screening := rfl
@[simp] theorem State.setSlot_fareUnit (k : SlotId) (x : CommandSlot) : (s.setSlot k x).fareUnit = s.fareUnit := rfl
@[simp] theorem State.setSlot_denyList (k : SlotId) (x : CommandSlot) : (s.setSlot k x).denyList = s.denyList := rfl
@[simp] theorem State.setSlot_sightings (k : SlotId) (x : CommandSlot) :
    (s.setSlot k x).sightings = s.sightings := rfl
@[simp] theorem State.setSlot_journal (k : SlotId) (x : CommandSlot) : (s.setSlot k x).journal = s.journal := rfl
@[simp] theorem State.setSlot_banks (k : SlotId) (x : CommandSlot) : (s.setSlot k x).banks = s.banks := rfl
@[simp] theorem State.setSlot_gates (k : SlotId) (x : CommandSlot) : (s.setSlot k x).gates = s.gates := rfl
@[simp] theorem State.setSlot_line (k : SlotId) (x : CommandSlot) : (s.setSlot k x).line = s.line := rfl
@[simp] theorem State.setSlot_slots (k : SlotId) (x : CommandSlot) :
    (s.setSlot k x).slots = s.slots.set k.val x := rfl
@[simp] theorem State.setSlot_status (k : SlotId) (x : CommandSlot) : (s.setSlot k x).status = s.status := rfl
@[simp] theorem State.setSlot_clock (k : SlotId) (x : CommandSlot) : (s.setSlot k x).clock = s.clock := rfl

/-! ### State.setMemory -/

@[simp] theorem State.setMemory_pending (m : Memory) : (s.setMemory m).pending = s.pending := rfl
@[simp] theorem State.setMemory_freeDraws (m : Memory) : (s.setMemory m).freeDraws = s.freeDraws := rfl
@[simp] theorem State.setMemory_startUp (m : Memory) : (s.setMemory m).startUp = s.startUp := rfl
@[simp] theorem State.setMemory_cfg (m : Memory) : (s.setMemory m).cfg = s.cfg := rfl
@[simp] theorem State.setMemory_emergency (m : Memory) : (s.setMemory m).emergency = s.emergency := rfl
@[simp] theorem State.setMemory_memory (m : Memory) : (s.setMemory m).memory = m := rfl
@[simp] theorem State.setMemory_processor (m : Memory) : (s.setMemory m).processor = s.processor := rfl
@[simp] theorem State.setMemory_reader (m : Memory) : (s.setMemory m).reader = s.reader := rfl
@[simp] theorem State.setMemory_arbiter (m : Memory) : (s.setMemory m).arbiter = s.arbiter := rfl
@[simp] theorem State.setMemory_budget (m : Memory) : (s.setMemory m).budget = s.budget := rfl
@[simp] theorem State.setMemory_faultRecord (m : Memory) : (s.setMemory m).faultRecord = s.faultRecord := rfl
@[simp] theorem State.setMemory_lanes (m : Memory) : (s.setMemory m).lanes = s.lanes := rfl
@[simp] theorem State.setMemory_verdictCount (m : Memory) : (s.setMemory m).verdictCount = s.verdictCount := rfl
@[simp] theorem State.setMemory_screening (m : Memory) : (s.setMemory m).screening = s.screening := rfl
@[simp] theorem State.setMemory_fareUnit (m : Memory) : (s.setMemory m).fareUnit = s.fareUnit := rfl
@[simp] theorem State.setMemory_denyList (m : Memory) : (s.setMemory m).denyList = s.denyList := rfl
@[simp] theorem State.setMemory_sightings (m : Memory) : (s.setMemory m).sightings = s.sightings := rfl
@[simp] theorem State.setMemory_journal (m : Memory) : (s.setMemory m).journal = s.journal := rfl
@[simp] theorem State.setMemory_banks (m : Memory) : (s.setMemory m).banks = s.banks := rfl
@[simp] theorem State.setMemory_gates (m : Memory) : (s.setMemory m).gates = s.gates := rfl
@[simp] theorem State.setMemory_line (m : Memory) : (s.setMemory m).line = s.line := rfl
@[simp] theorem State.setMemory_slots (m : Memory) : (s.setMemory m).slots = s.slots := rfl
@[simp] theorem State.setMemory_status (m : Memory) : (s.setMemory m).status = s.status := rfl
@[simp] theorem State.setMemory_clock (m : Memory) : (s.setMemory m).clock = s.clock := rfl

/-! ### State.setJournal -/

@[simp] theorem State.setJournal_pending (j : Journal) : (s.setJournal j).pending = s.pending := rfl
@[simp] theorem State.setJournal_freeDraws (j : Journal) : (s.setJournal j).freeDraws = s.freeDraws := rfl
@[simp] theorem State.setJournal_startUp (j : Journal) : (s.setJournal j).startUp = s.startUp := rfl
@[simp] theorem State.setJournal_cfg (j : Journal) : (s.setJournal j).cfg = s.cfg := rfl
@[simp] theorem State.setJournal_emergency (j : Journal) : (s.setJournal j).emergency = s.emergency := rfl
@[simp] theorem State.setJournal_memory (j : Journal) : (s.setJournal j).memory = s.memory := rfl
@[simp] theorem State.setJournal_processor (j : Journal) : (s.setJournal j).processor = s.processor := rfl
@[simp] theorem State.setJournal_reader (j : Journal) : (s.setJournal j).reader = s.reader := rfl
@[simp] theorem State.setJournal_arbiter (j : Journal) : (s.setJournal j).arbiter = s.arbiter := rfl
@[simp] theorem State.setJournal_budget (j : Journal) : (s.setJournal j).budget = s.budget := rfl
@[simp] theorem State.setJournal_faultRecord (j : Journal) : (s.setJournal j).faultRecord = s.faultRecord := rfl
@[simp] theorem State.setJournal_lanes (j : Journal) : (s.setJournal j).lanes = s.lanes := rfl
@[simp] theorem State.setJournal_verdictCount (j : Journal) : (s.setJournal j).verdictCount = s.verdictCount := rfl
@[simp] theorem State.setJournal_screening (j : Journal) : (s.setJournal j).screening = s.screening := rfl
@[simp] theorem State.setJournal_fareUnit (j : Journal) : (s.setJournal j).fareUnit = s.fareUnit := rfl
@[simp] theorem State.setJournal_denyList (j : Journal) : (s.setJournal j).denyList = s.denyList := rfl
@[simp] theorem State.setJournal_sightings (j : Journal) : (s.setJournal j).sightings = s.sightings := rfl
@[simp] theorem State.setJournal_journal (j : Journal) : (s.setJournal j).journal = j := rfl
@[simp] theorem State.setJournal_banks (j : Journal) : (s.setJournal j).banks = s.banks := rfl
@[simp] theorem State.setJournal_gates (j : Journal) : (s.setJournal j).gates = s.gates := rfl
@[simp] theorem State.setJournal_line (j : Journal) : (s.setJournal j).line = s.line := rfl
@[simp] theorem State.setJournal_slots (j : Journal) : (s.setJournal j).slots = s.slots := rfl
@[simp] theorem State.setJournal_status (j : Journal) : (s.setJournal j).status = s.status := rfl
@[simp] theorem State.setJournal_clock (j : Journal) : (s.setJournal j).clock = s.clock := rfl

/-! ### State.setLine -/

@[simp] theorem State.setLine_pending (l : Line) : (s.setLine l).pending = s.pending := rfl
@[simp] theorem State.setLine_freeDraws (l : Line) : (s.setLine l).freeDraws = s.freeDraws := rfl
@[simp] theorem State.setLine_startUp (l : Line) : (s.setLine l).startUp = s.startUp := rfl
@[simp] theorem State.setLine_cfg (l : Line) : (s.setLine l).cfg = s.cfg := rfl
@[simp] theorem State.setLine_emergency (l : Line) : (s.setLine l).emergency = s.emergency := rfl
@[simp] theorem State.setLine_memory (l : Line) : (s.setLine l).memory = s.memory := rfl
@[simp] theorem State.setLine_processor (l : Line) : (s.setLine l).processor = s.processor := rfl
@[simp] theorem State.setLine_reader (l : Line) : (s.setLine l).reader = s.reader := rfl
@[simp] theorem State.setLine_arbiter (l : Line) : (s.setLine l).arbiter = s.arbiter := rfl
@[simp] theorem State.setLine_budget (l : Line) : (s.setLine l).budget = s.budget := rfl
@[simp] theorem State.setLine_faultRecord (l : Line) : (s.setLine l).faultRecord = s.faultRecord := rfl
@[simp] theorem State.setLine_lanes (l : Line) : (s.setLine l).lanes = s.lanes := rfl
@[simp] theorem State.setLine_verdictCount (l : Line) : (s.setLine l).verdictCount = s.verdictCount := rfl
@[simp] theorem State.setLine_screening (l : Line) : (s.setLine l).screening = s.screening := rfl
@[simp] theorem State.setLine_fareUnit (l : Line) : (s.setLine l).fareUnit = s.fareUnit := rfl
@[simp] theorem State.setLine_denyList (l : Line) : (s.setLine l).denyList = s.denyList := rfl
@[simp] theorem State.setLine_sightings (l : Line) : (s.setLine l).sightings = s.sightings := rfl
@[simp] theorem State.setLine_journal (l : Line) : (s.setLine l).journal = s.journal := rfl
@[simp] theorem State.setLine_banks (l : Line) : (s.setLine l).banks = s.banks := rfl
@[simp] theorem State.setLine_gates (l : Line) : (s.setLine l).gates = s.gates := rfl
@[simp] theorem State.setLine_line (l : Line) : (s.setLine l).line = l := rfl
@[simp] theorem State.setLine_slots (l : Line) : (s.setLine l).slots = s.slots := rfl
@[simp] theorem State.setLine_status (l : Line) : (s.setLine l).status = s.status := rfl
@[simp] theorem State.setLine_clock (l : Line) : (s.setLine l).clock = s.clock := rfl

/-! ### State.setStatus -/

@[simp] theorem State.setStatus_pending (w : StatusWriter) : (s.setStatus w).pending = s.pending := rfl
@[simp] theorem State.setStatus_freeDraws (w : StatusWriter) : (s.setStatus w).freeDraws = s.freeDraws := rfl
@[simp] theorem State.setStatus_startUp (w : StatusWriter) : (s.setStatus w).startUp = s.startUp := rfl
@[simp] theorem State.setStatus_cfg (w : StatusWriter) : (s.setStatus w).cfg = s.cfg := rfl
@[simp] theorem State.setStatus_emergency (w : StatusWriter) : (s.setStatus w).emergency = s.emergency := rfl
@[simp] theorem State.setStatus_memory (w : StatusWriter) : (s.setStatus w).memory = s.memory := rfl
@[simp] theorem State.setStatus_processor (w : StatusWriter) : (s.setStatus w).processor = s.processor := rfl
@[simp] theorem State.setStatus_reader (w : StatusWriter) : (s.setStatus w).reader = s.reader := rfl
@[simp] theorem State.setStatus_arbiter (w : StatusWriter) : (s.setStatus w).arbiter = s.arbiter := rfl
@[simp] theorem State.setStatus_budget (w : StatusWriter) : (s.setStatus w).budget = s.budget := rfl
@[simp] theorem State.setStatus_faultRecord (w : StatusWriter) : (s.setStatus w).faultRecord = s.faultRecord := rfl
@[simp] theorem State.setStatus_lanes (w : StatusWriter) : (s.setStatus w).lanes = s.lanes := rfl
@[simp] theorem State.setStatus_verdictCount (w : StatusWriter) : (s.setStatus w).verdictCount = s.verdictCount := rfl
@[simp] theorem State.setStatus_screening (w : StatusWriter) : (s.setStatus w).screening = s.screening := rfl
@[simp] theorem State.setStatus_fareUnit (w : StatusWriter) : (s.setStatus w).fareUnit = s.fareUnit := rfl
@[simp] theorem State.setStatus_denyList (w : StatusWriter) : (s.setStatus w).denyList = s.denyList := rfl
@[simp] theorem State.setStatus_sightings (w : StatusWriter) : (s.setStatus w).sightings = s.sightings := rfl
@[simp] theorem State.setStatus_journal (w : StatusWriter) : (s.setStatus w).journal = s.journal := rfl
@[simp] theorem State.setStatus_banks (w : StatusWriter) : (s.setStatus w).banks = s.banks := rfl
@[simp] theorem State.setStatus_gates (w : StatusWriter) : (s.setStatus w).gates = s.gates := rfl
@[simp] theorem State.setStatus_line (w : StatusWriter) : (s.setStatus w).line = s.line := rfl
@[simp] theorem State.setStatus_slots (w : StatusWriter) : (s.setStatus w).slots = s.slots := rfl
@[simp] theorem State.setStatus_status (w : StatusWriter) : (s.setStatus w).status = w := rfl
@[simp] theorem State.setStatus_clock (w : StatusWriter) : (s.setStatus w).clock = s.clock := rfl

/-! ### State.setScreening -/

@[simp] theorem State.setScreening_pending (e : Screening) : (s.setScreening e).pending = s.pending := rfl
@[simp] theorem State.setScreening_freeDraws (e : Screening) : (s.setScreening e).freeDraws = s.freeDraws := rfl
@[simp] theorem State.setScreening_startUp (e : Screening) : (s.setScreening e).startUp = s.startUp := rfl
@[simp] theorem State.setScreening_cfg (e : Screening) : (s.setScreening e).cfg = s.cfg := rfl
@[simp] theorem State.setScreening_emergency (e : Screening) : (s.setScreening e).emergency = s.emergency := rfl
@[simp] theorem State.setScreening_memory (e : Screening) : (s.setScreening e).memory = s.memory := rfl
@[simp] theorem State.setScreening_processor (e : Screening) : (s.setScreening e).processor = s.processor := rfl
@[simp] theorem State.setScreening_reader (e : Screening) : (s.setScreening e).reader = s.reader := rfl
@[simp] theorem State.setScreening_arbiter (e : Screening) : (s.setScreening e).arbiter = s.arbiter := rfl
@[simp] theorem State.setScreening_budget (e : Screening) : (s.setScreening e).budget = s.budget := rfl
@[simp] theorem State.setScreening_faultRecord (e : Screening) : (s.setScreening e).faultRecord = s.faultRecord := rfl
@[simp] theorem State.setScreening_lanes (e : Screening) : (s.setScreening e).lanes = s.lanes := rfl
@[simp] theorem State.setScreening_verdictCount (e : Screening) :
    (s.setScreening e).verdictCount = s.verdictCount := rfl
@[simp] theorem State.setScreening_screening (e : Screening) : (s.setScreening e).screening = e := rfl
@[simp] theorem State.setScreening_fareUnit (e : Screening) : (s.setScreening e).fareUnit = s.fareUnit := rfl
@[simp] theorem State.setScreening_denyList (e : Screening) : (s.setScreening e).denyList = s.denyList := rfl
@[simp] theorem State.setScreening_sightings (e : Screening) : (s.setScreening e).sightings = s.sightings := rfl
@[simp] theorem State.setScreening_journal (e : Screening) : (s.setScreening e).journal = s.journal := rfl
@[simp] theorem State.setScreening_banks (e : Screening) : (s.setScreening e).banks = s.banks := rfl
@[simp] theorem State.setScreening_gates (e : Screening) : (s.setScreening e).gates = s.gates := rfl
@[simp] theorem State.setScreening_line (e : Screening) : (s.setScreening e).line = s.line := rfl
@[simp] theorem State.setScreening_slots (e : Screening) : (s.setScreening e).slots = s.slots := rfl
@[simp] theorem State.setScreening_status (e : Screening) : (s.setScreening e).status = s.status := rfl
@[simp] theorem State.setScreening_clock (e : Screening) : (s.setScreening e).clock = s.clock := rfl

/-! ### State.setBank -/

@[simp] theorem State.setBank_pending (z : BankId) (x : Bank) :
    (s.setBank z x).pending = s.pending := by cases z <;> rfl
@[simp] theorem State.setBank_freeDraws (z : BankId) (x : Bank) :
    (s.setBank z x).freeDraws = s.freeDraws := by cases z <;> rfl
@[simp] theorem State.setBank_startUp (z : BankId) (x : Bank) :
    (s.setBank z x).startUp = s.startUp := by cases z <;> rfl
@[simp] theorem State.setBank_cfg (z : BankId) (x : Bank) : (s.setBank z x).cfg = s.cfg := by cases z <;> rfl
@[simp] theorem State.setBank_emergency (z : BankId) (x : Bank) :
    (s.setBank z x).emergency = s.emergency := by cases z <;> rfl
@[simp] theorem State.setBank_memory (z : BankId) (x : Bank) : (s.setBank z x).memory = s.memory := by cases z <;> rfl
@[simp] theorem State.setBank_processor (z : BankId) (x : Bank) :
    (s.setBank z x).processor = s.processor := by cases z <;> rfl
@[simp] theorem State.setBank_reader (z : BankId) (x : Bank) : (s.setBank z x).reader = s.reader := by cases z <;> rfl
@[simp] theorem State.setBank_arbiter (z : BankId) (x : Bank) :
    (s.setBank z x).arbiter = s.arbiter := by cases z <;> rfl
@[simp] theorem State.setBank_budget (z : BankId) (x : Bank) : (s.setBank z x).budget = s.budget := by cases z <;> rfl
@[simp] theorem State.setBank_faultRecord (z : BankId) (x : Bank) :
    (s.setBank z x).faultRecord = s.faultRecord := by cases z <;> rfl
@[simp] theorem State.setBank_lanes (z : BankId) (x : Bank) : (s.setBank z x).lanes = s.lanes := by cases z <;> rfl
@[simp] theorem State.setBank_verdictCount (z : BankId) (x : Bank) :
    (s.setBank z x).verdictCount = s.verdictCount := by cases z <;> rfl
@[simp] theorem State.setBank_screening (z : BankId) (x : Bank) :
    (s.setBank z x).screening = s.screening := by cases z <;> rfl
@[simp] theorem State.setBank_fareUnit (z : BankId) (x : Bank) :
    (s.setBank z x).fareUnit = s.fareUnit := by cases z <;> rfl
@[simp] theorem State.setBank_denyList (z : BankId) (x : Bank) :
    (s.setBank z x).denyList = s.denyList := by cases z <;> rfl
@[simp] theorem State.setBank_sightings (z : BankId) (x : Bank) :
    (s.setBank z x).sightings = s.sightings := by cases z <;> rfl
@[simp] theorem State.setBank_journal (z : BankId) (x : Bank) :
    (s.setBank z x).journal = s.journal := by cases z <;> rfl
@[simp] theorem State.setBank_gates (z : BankId) (x : Bank) : (s.setBank z x).gates = s.gates := by cases z <;> rfl
@[simp] theorem State.setBank_line (z : BankId) (x : Bank) : (s.setBank z x).line = s.line := by cases z <;> rfl
@[simp] theorem State.setBank_slots (z : BankId) (x : Bank) : (s.setBank z x).slots = s.slots := by cases z <;> rfl
@[simp] theorem State.setBank_status (z : BankId) (x : Bank) : (s.setBank z x).status = s.status := by cases z <;> rfl
@[simp] theorem State.setBank_clock (z : BankId) (x : Bank) : (s.setBank z x).clock = s.clock := by cases z <;> rfl

@[simp] theorem State.setBank_validation (z : BankId) (x : Bank) :
    (s.setBank z x).banks.validation = s.banks.validation := by cases z <;> rfl
@[simp] theorem State.setBank_fallback (z : BankId) (x : Bank) :
    (s.setBank z x).banks.fallback = s.banks.fallback := by cases z <;> rfl
@[simp] theorem State.setBank_due (z : BankId) (x : Bank) : (s.setBank z x).banks.due = s.banks.due := by
  cases z <;> rfl
@[simp] theorem State.bank_setBank_self (z : BankId) (x : Bank) : (s.setBank z x).bank z = x := by cases z <;> rfl
@[simp] theorem State.bank_setBank_other (z : BankId) (x : Bank) : (s.setBank z x).bank z.other = s.bank z.other := by
  cases z <;> rfl
@[simp] theorem BankId.other_other (z : BankId) : z.other.other = z := by cases z <;> rfl

/-! ### The requests at the arbiter: State.offer, State.retract and State.enrol -/

@[simp] theorem State.offer_pending (x : Block) : (s.offer x).pending = s.pending := by unfold State.offer; split <;> rfl
@[simp] theorem State.offer_freeDraws (x : Block) : (s.offer x).freeDraws = s.freeDraws := by unfold State.offer; split <;> rfl
@[simp] theorem State.offer_startUp (x : Block) : (s.offer x).startUp = s.startUp := by unfold State.offer; split <;> rfl
@[simp] theorem State.offer_cfg (x : Block) : (s.offer x).cfg = s.cfg := by unfold State.offer; split <;> rfl
@[simp] theorem State.offer_emergency (x : Block) : (s.offer x).emergency = s.emergency := by unfold State.offer; split <;> rfl
@[simp] theorem State.offer_memory (x : Block) : (s.offer x).memory = s.memory := by unfold State.offer; split <;> rfl
@[simp] theorem State.offer_processor (x : Block) : (s.offer x).processor = s.processor := by unfold State.offer; split <;> rfl
@[simp] theorem State.offer_reader (x : Block) : (s.offer x).reader = s.reader := by unfold State.offer; split <;> rfl
@[simp] theorem State.offer_budget (x : Block) : (s.offer x).budget = s.budget := by unfold State.offer; split <;> rfl
@[simp] theorem State.offer_faultRecord (x : Block) : (s.offer x).faultRecord = s.faultRecord := by unfold State.offer; split <;> rfl
@[simp] theorem State.offer_lanes (x : Block) : (s.offer x).lanes = s.lanes := by unfold State.offer; split <;> rfl
@[simp] theorem State.offer_verdictCount (x : Block) : (s.offer x).verdictCount = s.verdictCount := by unfold State.offer; split <;> rfl
@[simp] theorem State.offer_screening (x : Block) : (s.offer x).screening = s.screening := by unfold State.offer; split <;> rfl
@[simp] theorem State.offer_fareUnit (x : Block) : (s.offer x).fareUnit = s.fareUnit := by unfold State.offer; split <;> rfl
@[simp] theorem State.offer_denyList (x : Block) : (s.offer x).denyList = s.denyList := by unfold State.offer; split <;> rfl
@[simp] theorem State.offer_sightings (x : Block) : (s.offer x).sightings = s.sightings := by unfold State.offer; split <;> rfl
@[simp] theorem State.offer_journal (x : Block) : (s.offer x).journal = s.journal := by unfold State.offer; split <;> rfl
@[simp] theorem State.offer_banks (x : Block) : (s.offer x).banks = s.banks := by unfold State.offer; split <;> rfl
@[simp] theorem State.offer_gates (x : Block) : (s.offer x).gates = s.gates := by unfold State.offer; split <;> rfl
@[simp] theorem State.offer_line (x : Block) : (s.offer x).line = s.line := by unfold State.offer; split <;> rfl
@[simp] theorem State.offer_slots (x : Block) : (s.offer x).slots = s.slots := by unfold State.offer; split <;> rfl
@[simp] theorem State.offer_status (x : Block) : (s.offer x).status = s.status := by unfold State.offer; split <;> rfl
@[simp] theorem State.offer_clock (x : Block) : (s.offer x).clock = s.clock := by unfold State.offer; split <;> rfl
@[simp] theorem State.offer_losses (x : Block) : (s.offer x).arbiter.losses = s.arbiter.losses := by
  unfold State.offer; split <;> rfl

@[simp] theorem State.retract_pending (x : Block) : (s.retract x).pending = s.pending := rfl
@[simp] theorem State.retract_freeDraws (x : Block) : (s.retract x).freeDraws = s.freeDraws := rfl
@[simp] theorem State.retract_startUp (x : Block) : (s.retract x).startUp = s.startUp := rfl
@[simp] theorem State.retract_cfg (x : Block) : (s.retract x).cfg = s.cfg := rfl
@[simp] theorem State.retract_emergency (x : Block) : (s.retract x).emergency = s.emergency := rfl
@[simp] theorem State.retract_memory (x : Block) : (s.retract x).memory = s.memory := rfl
@[simp] theorem State.retract_processor (x : Block) : (s.retract x).processor = s.processor := rfl
@[simp] theorem State.retract_reader (x : Block) : (s.retract x).reader = s.reader := rfl
@[simp] theorem State.retract_budget (x : Block) : (s.retract x).budget = s.budget := rfl
@[simp] theorem State.retract_faultRecord (x : Block) : (s.retract x).faultRecord = s.faultRecord := rfl
@[simp] theorem State.retract_lanes (x : Block) : (s.retract x).lanes = s.lanes := rfl
@[simp] theorem State.retract_verdictCount (x : Block) : (s.retract x).verdictCount = s.verdictCount := rfl
@[simp] theorem State.retract_screening (x : Block) : (s.retract x).screening = s.screening := rfl
@[simp] theorem State.retract_fareUnit (x : Block) : (s.retract x).fareUnit = s.fareUnit := rfl
@[simp] theorem State.retract_denyList (x : Block) : (s.retract x).denyList = s.denyList := rfl
@[simp] theorem State.retract_sightings (x : Block) : (s.retract x).sightings = s.sightings := rfl
@[simp] theorem State.retract_journal (x : Block) : (s.retract x).journal = s.journal := rfl
@[simp] theorem State.retract_banks (x : Block) : (s.retract x).banks = s.banks := rfl
@[simp] theorem State.retract_gates (x : Block) : (s.retract x).gates = s.gates := rfl
@[simp] theorem State.retract_line (x : Block) : (s.retract x).line = s.line := rfl
@[simp] theorem State.retract_slots (x : Block) : (s.retract x).slots = s.slots := rfl
@[simp] theorem State.retract_status (x : Block) : (s.retract x).status = s.status := rfl
@[simp] theorem State.retract_clock (x : Block) : (s.retract x).clock = s.clock := rfl
@[simp] theorem State.retract_losses (x : Block) : (s.retract x).arbiter.losses = s.arbiter.losses := rfl
@[simp] theorem State.retract_requests (x : Block) :
    (s.retract x).arbiter.requests = s.arbiter.requests.erase x := rfl

@[simp] theorem State.enrol_pending : s.enrol.pending = s.pending := rfl
@[simp] theorem State.enrol_freeDraws : s.enrol.freeDraws = s.freeDraws := rfl
@[simp] theorem State.enrol_startUp : s.enrol.startUp = s.startUp := rfl
@[simp] theorem State.enrol_cfg : s.enrol.cfg = s.cfg := rfl
@[simp] theorem State.enrol_emergency : s.enrol.emergency = s.emergency := rfl
@[simp] theorem State.enrol_memory : s.enrol.memory = s.memory := rfl
@[simp] theorem State.enrol_processor : s.enrol.processor = s.processor := rfl
@[simp] theorem State.enrol_reader : s.enrol.reader = s.reader := rfl
@[simp] theorem State.enrol_budget : s.enrol.budget = s.budget := rfl
@[simp] theorem State.enrol_faultRecord : s.enrol.faultRecord = s.faultRecord := rfl
@[simp] theorem State.enrol_lanes : s.enrol.lanes = s.lanes := rfl
@[simp] theorem State.enrol_verdictCount : s.enrol.verdictCount = s.verdictCount := rfl
@[simp] theorem State.enrol_screening : s.enrol.screening = s.screening := rfl
@[simp] theorem State.enrol_fareUnit : s.enrol.fareUnit = s.fareUnit := rfl
@[simp] theorem State.enrol_denyList : s.enrol.denyList = s.denyList := rfl
@[simp] theorem State.enrol_sightings : s.enrol.sightings = s.sightings := rfl
@[simp] theorem State.enrol_journal : s.enrol.journal = s.journal := rfl
@[simp] theorem State.enrol_banks : s.enrol.banks = s.banks := rfl
@[simp] theorem State.enrol_gates : s.enrol.gates = s.gates := rfl
@[simp] theorem State.enrol_line : s.enrol.line = s.line := rfl
@[simp] theorem State.enrol_slots : s.enrol.slots = s.slots := rfl
@[simp] theorem State.enrol_status : s.enrol.status = s.status := rfl
@[simp] theorem State.enrol_clock : s.enrol.clock = s.clock := rfl
@[simp] theorem State.enrol_losses : s.enrol.arbiter.losses = s.arbiter.losses := rfl

/-! ### Reading a lane, a gate, a slot and a bank after an update -/

@[simp] theorem State.lane_setLane_self (n : Lane) (x : LaneContext) : (s.setLane n x).lane n = x :=
  Quad.get_set_self _ _ _
theorem State.lane_setLane_other {n m : Lane} (x : LaneContext) (h : m ≠ n) : (s.setLane n x).lane m = s.lane m :=
  Quad.get_set_other _ _ h
@[simp] theorem State.gate_setGate_self (n : Lane) (x : Gate) : (s.setGate n x).gate n = x := Quad.get_set_self _ _ _
theorem State.gate_setGate_other {n m : Lane} (x : Gate) (h : m ≠ n) : (s.setGate n x).gate m = s.gate m :=
  Quad.get_set_other _ _ h
@[simp] theorem State.slot_setSlot_self (k : SlotId) (x : CommandSlot) : (s.setSlot k x).slot k = x := by
  simp [State.slot, State.setSlot]
theorem State.slot_setSlot_other {k j : SlotId} (x : CommandSlot) (h : j ≠ k) :
    (s.setSlot k x).slot j = s.slot j := by
  have : k.val ≠ j.val := fun e => h (Fin.ext e.symm)
  simp [State.slot, State.setSlot, this]
@[simp] theorem State.setLane_lane (n : Lane) : s.setLane n (s.lane n) = s := by simp [State.setLane, State.lane]
@[simp] theorem State.setGate_gate (n : Lane) : s.setGate n (s.gate n) = s := by simp [State.setGate, State.gate]
@[simp] theorem State.setSlot_setSlot (k : SlotId) (x y : CommandSlot) :
    (s.setSlot k x).setSlot k y = s.setSlot k y := by
  simp [State.setSlot]
@[simp] theorem State.setLane_setLane (n : Lane) (x y : LaneContext) :
    (s.setLane n x).setLane n y = s.setLane n y := by
  simp [State.setLane]
@[simp] theorem State.setGate_setGate (n : Lane) (x y : Gate) : (s.setGate n x).setGate n y = s.setGate n y := by
  simp [State.setGate]

@[simp] theorem State.gate_setLane (n : Lane) (x : LaneContext) (i : Lane) : (s.setLane n x).gate i = s.gate i := rfl
@[simp] theorem State.slot_setLane (n : Lane) (x : LaneContext) (i : SlotId) :
    (s.setLane n x).slot i = s.slot i := rfl
@[simp] theorem State.bank_setLane (n : Lane) (x : LaneContext) (z : BankId) :
    (s.setLane n x).bank z = s.bank z := rfl
@[simp] theorem State.unit_setLane (n : Lane) (x : LaneContext) : (s.setLane n x).unit= s.unit := rfl
@[simp] theorem State.present_setLane (n : Lane) (x : LaneContext) (i : Lane) :
    (s.setLane n x).present i = s.present i := rfl
@[simp] theorem State.region_setLane (n : Lane) (x : LaneContext) (r : RegionKind) :
    (s.setLane n x).region r = s.region r := rfl
@[simp] theorem State.regionBase_setLane (n : Lane) (x : LaneContext) (r : RegionKind) :
    (s.setLane n x).regionBase r = s.regionBase r := rfl
@[simp] theorem State.regionSize_setLane (n : Lane) (x : LaneContext) (r : RegionKind) :
    (s.setLane n x).regionSize r = s.regionSize r := rfl
@[simp] theorem State.lane_setGate (n : Lane) (x : Gate) (i : Lane) : (s.setGate n x).lane i = s.lane i := rfl
@[simp] theorem State.slot_setGate (n : Lane) (x : Gate) (i : SlotId) : (s.setGate n x).slot i = s.slot i := rfl
@[simp] theorem State.bank_setGate (n : Lane) (x : Gate) (z : BankId) : (s.setGate n x).bank z = s.bank z := rfl
@[simp] theorem State.unit_setGate (n : Lane) (x : Gate) : (s.setGate n x).unit= s.unit := rfl
@[simp] theorem State.present_setGate (n : Lane) (x : Gate) (i : Lane) :
    (s.setGate n x).present i = s.present i := rfl
@[simp] theorem State.region_setGate (n : Lane) (x : Gate) (r : RegionKind) :
    (s.setGate n x).region r = s.region r := rfl
@[simp] theorem State.regionBase_setGate (n : Lane) (x : Gate) (r : RegionKind) :
    (s.setGate n x).regionBase r = s.regionBase r := rfl
@[simp] theorem State.regionSize_setGate (n : Lane) (x : Gate) (r : RegionKind) :
    (s.setGate n x).regionSize r = s.regionSize r := rfl
@[simp] theorem State.lane_setSlot (k : SlotId) (x : CommandSlot) (i : Lane) :
    (s.setSlot k x).lane i = s.lane i := rfl
@[simp] theorem State.gate_setSlot (k : SlotId) (x : CommandSlot) (i : Lane) :
    (s.setSlot k x).gate i = s.gate i := rfl
@[simp] theorem State.bank_setSlot (k : SlotId) (x : CommandSlot) (z : BankId) :
    (s.setSlot k x).bank z = s.bank z := rfl
@[simp] theorem State.unit_setSlot (k : SlotId) (x : CommandSlot) : (s.setSlot k x).unit= s.unit := rfl
@[simp] theorem State.present_setSlot (k : SlotId) (x : CommandSlot) (i : Lane) :
    (s.setSlot k x).present i = s.present i := rfl
@[simp] theorem State.region_setSlot (k : SlotId) (x : CommandSlot) (r : RegionKind) :
    (s.setSlot k x).region r = s.region r := rfl
@[simp] theorem State.regionBase_setSlot (k : SlotId) (x : CommandSlot) (r : RegionKind) :
    (s.setSlot k x).regionBase r = s.regionBase r := rfl
@[simp] theorem State.regionSize_setSlot (k : SlotId) (x : CommandSlot) (r : RegionKind) :
    (s.setSlot k x).regionSize r = s.regionSize r := rfl
@[simp] theorem State.lane_setMemory (m : Memory) (i : Lane) : (s.setMemory m).lane i = s.lane i := rfl
@[simp] theorem State.gate_setMemory (m : Memory) (i : Lane) : (s.setMemory m).gate i = s.gate i := rfl
@[simp] theorem State.slot_setMemory (m : Memory) (i : SlotId) : (s.setMemory m).slot i = s.slot i := rfl
@[simp] theorem State.bank_setMemory (m : Memory) (z : BankId) : (s.setMemory m).bank z = s.bank z := rfl
@[simp] theorem State.unit_setMemory (m : Memory) : (s.setMemory m).unit= s.unit := rfl
@[simp] theorem State.present_setMemory (m : Memory) (i : Lane) : (s.setMemory m).present i = s.present i := rfl
@[simp] theorem State.region_setMemory (m : Memory) (r : RegionKind) : (s.setMemory m).region r = s.region r := rfl
@[simp] theorem State.regionBase_setMemory (m : Memory) (r : RegionKind) :
    (s.setMemory m).regionBase r = s.regionBase r := rfl
@[simp] theorem State.regionSize_setMemory (m : Memory) (r : RegionKind) :
    (s.setMemory m).regionSize r = s.regionSize r := rfl
@[simp] theorem State.lane_setJournal (j : Journal) (i : Lane) : (s.setJournal j).lane i = s.lane i := rfl
@[simp] theorem State.gate_setJournal (j : Journal) (i : Lane) : (s.setJournal j).gate i = s.gate i := rfl
@[simp] theorem State.slot_setJournal (j : Journal) (i : SlotId) : (s.setJournal j).slot i = s.slot i := rfl
@[simp] theorem State.bank_setJournal (j : Journal) (z : BankId) : (s.setJournal j).bank z = s.bank z := rfl
@[simp] theorem State.unit_setJournal (j : Journal) : (s.setJournal j).unit= s.unit := rfl
@[simp] theorem State.present_setJournal (j : Journal) (i : Lane) : (s.setJournal j).present i = s.present i := rfl
@[simp] theorem State.region_setJournal (j : Journal) (r : RegionKind) : (s.setJournal j).region r = s.region r := rfl
@[simp] theorem State.regionBase_setJournal (j : Journal) (r : RegionKind) :
    (s.setJournal j).regionBase r = s.regionBase r := rfl
@[simp] theorem State.regionSize_setJournal (j : Journal) (r : RegionKind) :
    (s.setJournal j).regionSize r = s.regionSize r := rfl
@[simp] theorem State.lane_setLine (l : Line) (i : Lane) : (s.setLine l).lane i = s.lane i := rfl
@[simp] theorem State.gate_setLine (l : Line) (i : Lane) : (s.setLine l).gate i = s.gate i := rfl
@[simp] theorem State.slot_setLine (l : Line) (i : SlotId) : (s.setLine l).slot i = s.slot i := rfl
@[simp] theorem State.bank_setLine (l : Line) (z : BankId) : (s.setLine l).bank z = s.bank z := rfl
@[simp] theorem State.unit_setLine (l : Line) : (s.setLine l).unit= s.unit := rfl
@[simp] theorem State.present_setLine (l : Line) (i : Lane) : (s.setLine l).present i = s.present i := rfl
@[simp] theorem State.region_setLine (l : Line) (r : RegionKind) : (s.setLine l).region r = s.region r := rfl
@[simp] theorem State.regionBase_setLine (l : Line) (r : RegionKind) :
    (s.setLine l).regionBase r = s.regionBase r := rfl
@[simp] theorem State.regionSize_setLine (l : Line) (r : RegionKind) :
    (s.setLine l).regionSize r = s.regionSize r := rfl
@[simp] theorem State.lane_setStatus (w : StatusWriter) (i : Lane) : (s.setStatus w).lane i = s.lane i := rfl
@[simp] theorem State.gate_setStatus (w : StatusWriter) (i : Lane) : (s.setStatus w).gate i = s.gate i := rfl
@[simp] theorem State.slot_setStatus (w : StatusWriter) (i : SlotId) : (s.setStatus w).slot i = s.slot i := rfl
@[simp] theorem State.bank_setStatus (w : StatusWriter) (z : BankId) : (s.setStatus w).bank z = s.bank z := rfl
@[simp] theorem State.unit_setStatus (w : StatusWriter) : (s.setStatus w).unit= s.unit := rfl
@[simp] theorem State.present_setStatus (w : StatusWriter) (i : Lane) : (s.setStatus w).present i = s.present i := rfl
@[simp] theorem State.region_setStatus (w : StatusWriter) (r : RegionKind) :
    (s.setStatus w).region r = s.region r := rfl
@[simp] theorem State.regionBase_setStatus (w : StatusWriter) (r : RegionKind) :
    (s.setStatus w).regionBase r = s.regionBase r := rfl
@[simp] theorem State.regionSize_setStatus (w : StatusWriter) (r : RegionKind) :
    (s.setStatus w).regionSize r = s.regionSize r := rfl
@[simp] theorem State.lane_setScreening (e : Screening) (i : Lane) : (s.setScreening e).lane i = s.lane i := rfl
@[simp] theorem State.gate_setScreening (e : Screening) (i : Lane) : (s.setScreening e).gate i = s.gate i := rfl
@[simp] theorem State.slot_setScreening (e : Screening) (i : SlotId) : (s.setScreening e).slot i = s.slot i := rfl
@[simp] theorem State.bank_setScreening (e : Screening) (z : BankId) : (s.setScreening e).bank z = s.bank z := rfl
@[simp] theorem State.unit_setScreening (e : Screening) : (s.setScreening e).unit= s.unit := rfl
@[simp] theorem State.present_setScreening (e : Screening) (i : Lane) :
    (s.setScreening e).present i = s.present i := rfl
@[simp] theorem State.region_setScreening (e : Screening) (r : RegionKind) :
    (s.setScreening e).region r = s.region r := rfl
@[simp] theorem State.regionBase_setScreening (e : Screening) (r : RegionKind) :
    (s.setScreening e).regionBase r = s.regionBase r := rfl
@[simp] theorem State.regionSize_setScreening (e : Screening) (r : RegionKind) :
    (s.setScreening e).regionSize r = s.regionSize r := rfl
@[simp] theorem State.lane_setBank (c : BankId) (x : Bank) (i : Lane) :
    (s.setBank c x).lane i = s.lane i := by cases c <;> rfl
@[simp] theorem State.gate_setBank (c : BankId) (x : Bank) (i : Lane) :
    (s.setBank c x).gate i = s.gate i := by cases c <;> rfl
@[simp] theorem State.slot_setBank (c : BankId) (x : Bank) (i : SlotId) :
    (s.setBank c x).slot i = s.slot i := by cases c <;> rfl
@[simp] theorem State.unit_setBank (c : BankId) (x : Bank) : (s.setBank c x).unit = s.unit := by cases c <;> rfl
@[simp] theorem State.present_setBank (c : BankId) (x : Bank) (i : Lane) :
    (s.setBank c x).present i = s.present i := by cases c <;> rfl
@[simp] theorem State.region_setBank (c : BankId) (x : Bank) (r : RegionKind) :
    (s.setBank c x).region r = s.region r := by cases c <;> rfl
@[simp] theorem State.regionBase_setBank (c : BankId) (x : Bank) (r : RegionKind) :
    (s.setBank c x).regionBase r = s.regionBase r := by cases c <;> rfl
@[simp] theorem State.regionSize_setBank (c : BankId) (x : Bank) (r : RegionKind) :
    (s.setBank c x).regionSize r = s.regionSize r := by cases c <;> rfl

/-! ### Notices -/

/-- A notice changes the notice flags alone (R181). -/
theorem State.notify_eq (n : Notice) :
    s.notify n = { s with status := { s.status with
      notices := s.status.notices ||| BitVec.ofNat 18 (2 ^ n.bit) } } := rfl

@[simp] theorem State.notify_pending (n : Notice) : (s.notify n).pending = s.pending := rfl
@[simp] theorem State.notify_freeDraws (n : Notice) : (s.notify n).freeDraws = s.freeDraws := rfl
@[simp] theorem State.notify_startUp (n : Notice) : (s.notify n).startUp = s.startUp := rfl
@[simp] theorem State.notify_cfg (n : Notice) : (s.notify n).cfg = s.cfg := rfl
@[simp] theorem State.notify_emergency (n : Notice) : (s.notify n).emergency = s.emergency := rfl
@[simp] theorem State.notify_memory (n : Notice) : (s.notify n).memory = s.memory := rfl
@[simp] theorem State.notify_processor (n : Notice) : (s.notify n).processor = s.processor := rfl
@[simp] theorem State.notify_reader (n : Notice) : (s.notify n).reader = s.reader := rfl
@[simp] theorem State.notify_arbiter (n : Notice) : (s.notify n).arbiter = s.arbiter := rfl
@[simp] theorem State.notify_budget (n : Notice) : (s.notify n).budget = s.budget := rfl
@[simp] theorem State.notify_faultRecord (n : Notice) : (s.notify n).faultRecord = s.faultRecord := rfl
@[simp] theorem State.notify_lanes (n : Notice) : (s.notify n).lanes = s.lanes := rfl
@[simp] theorem State.notify_verdictCount (n : Notice) : (s.notify n).verdictCount = s.verdictCount := rfl
@[simp] theorem State.notify_screening (n : Notice) : (s.notify n).screening = s.screening := rfl
@[simp] theorem State.notify_fareUnit (n : Notice) : (s.notify n).fareUnit = s.fareUnit := rfl
@[simp] theorem State.notify_denyList (n : Notice) : (s.notify n).denyList = s.denyList := rfl
@[simp] theorem State.notify_sightings (n : Notice) : (s.notify n).sightings = s.sightings := rfl
@[simp] theorem State.notify_journal (n : Notice) : (s.notify n).journal = s.journal := rfl
@[simp] theorem State.notify_banks (n : Notice) : (s.notify n).banks = s.banks := rfl
@[simp] theorem State.notify_gates (n : Notice) : (s.notify n).gates = s.gates := rfl
@[simp] theorem State.notify_line (n : Notice) : (s.notify n).line = s.line := rfl
@[simp] theorem State.notify_slots (n : Notice) : (s.notify n).slots = s.slots := rfl
@[simp] theorem State.notify_clock (n : Notice) : (s.notify n).clock = s.clock := rfl
@[simp] theorem State.notify_stale (n : Notice) : (s.notify n).status.stale = s.status.stale := rfl
@[simp] theorem State.notify_changeCount (n : Notice) : (s.notify n).status.changeCount = s.status.changeCount := rfl
@[simp] theorem State.notify_due (n : Notice) : (s.notify n).status.due = s.status.due := rfl
@[simp] theorem State.notify_records (n : Notice) : (s.notify n).status.records = s.status.records := rfl
@[simp] theorem State.lane_notify (n : Notice) (i : Lane) : (s.notify n).lane i = s.lane i := rfl
@[simp] theorem State.gate_notify (n : Notice) (i : Lane) : (s.notify n).gate i = s.gate i := rfl
@[simp] theorem State.slot_notify (n : Notice) (i : SlotId) : (s.notify n).slot i = s.slot i := rfl
@[simp] theorem State.bank_notify (n : Notice) (z : BankId) : (s.notify n).bank z = s.bank z := rfl
@[simp] theorem State.unit_notify (n : Notice) : (s.notify n).unit = s.unit := rfl
@[simp] theorem State.present_notify (n : Notice) (i : Lane) : (s.notify n).present i = s.present i := rfl
@[simp] theorem State.region_notify (n : Notice) (r : RegionKind) : (s.notify n).region r = s.region r := rfl
@[simp] theorem State.regionBase_notify (n : Notice) (r : RegionKind) :
    (s.notify n).regionBase r = s.regionBase r := rfl
@[simp] theorem State.regionSize_notify (n : Notice) (r : RegionKind) :
    (s.notify n).regionSize r = s.regionSize r := rfl

/-- A notice once given is set. -/
@[simp] theorem State.noticed_notify (n : Notice) : (s.notify n).noticed n = true := by
  cases n with
  | verdict m => fin_cases m <;> simp [State.noticed, State.notify, State.setStatus, Notice.bit]
  | alarm m => fin_cases m <;> simp [State.noticed, State.notify, State.setStatus, Notice.bit]
  | _ => simp [State.noticed, State.notify, State.setStatus, Notice.bit]

end Sys2Proof.Machine
end

