-- ==== Sys2Proof/Laws/Memory.lean ====
section
/-! SUPPORT. The laws of the fare memory: the canonical list of cells, reading after writing, and that every memory
operation keeps the canonical form. -/

namespace Sys2Proof.Machine

/-! ### Cells -/

/-- A canonical list may be read from any lower bound. -/
theorem cellsFrom_mono {n : Nat} {low low' : Nat} {l : List (Nat × BitVec n)} (h : cellsFrom low l = true)
    (hl : low' ≤ low) : cellsFrom low' l = true := by
  cases l with
  | nil => rfl
  | cons p rest =>
    simp only [cellsFrom, Bool.and_eq_true, decide_eq_true_eq] at h ⊢
    exact ⟨⟨by omega, h.1.2⟩, h.2⟩

/-- Below its lower bound a canonical list holds nothing. -/
theorem cellAt_below {n : Nat} {low a : Nat} {l : List (Nat × BitVec n)} (h : cellsFrom low l = true) (ha : a < low) :
    cellAt l a = 0 := by
  induction l generalizing low with
  | nil => rfl
  | cons p rest ih =>
    simp only [cellsFrom, Bool.and_eq_true, decide_eq_true_eq] at h
    have hne : p.1 ≠ a := by omega
    simp only [cellAt, hne, if_false]
    exact ih h.2 (by omega)

/-- Another address reads as before. -/
theorem cellAt_setCell_other {n : Nat} {l : List (Nat × BitVec n)} {a b : Nat} (v : BitVec n) (h : b ≠ a) :
    cellAt (setCell l a v) b = cellAt l b := by
  have h' : ¬ a = b := fun e => h e.symm
  induction l with
  | nil => simp only [setCell]; split <;> simp [cellAt, h']
  | cons p rest ih =>
    obtain ⟨x, y⟩ := p
    simp only [setCell]
    split_ifs with h1 h2 h3 h4
    · rfl
    · simp [cellAt, h']
    · subst h3; simp [cellAt, h']
    · subst h3; simp [cellAt, h']
    · simp only [cellAt, ih]

/-- An address reads as it was written. -/
theorem cellAt_setCell_self {n : Nat} {low : Nat} {l : List (Nat × BitVec n)} {a : Nat} (v : BitVec n)
    (h : cellsFrom low l = true) : cellAt (setCell l a v) a = v := by
  induction l generalizing low with
  | nil => simp only [setCell]; split <;> simp_all [cellAt]
  | cons p rest ih =>
    obtain ⟨x, y⟩ := p
    simp only [cellsFrom, Bool.and_eq_true, decide_eq_true_eq] at h
    simp only [setCell]
    split_ifs with h1 h2 h3 h4
    · have hne : ¬ x = a := by omega
      simp only [cellAt, hne, if_false, h2]
      exact cellAt_below h.2 (by omega)
    · simp [cellAt]
    · subst h3; rw [h4]; exact cellAt_below h.2 (by omega)
    · simp [cellAt]
    · have hne : ¬ x = a := fun e => h3 e.symm
      simp only [cellAt, hne, if_false]
      exact ih h.2

/-- Writing a cell keeps the canonical form. -/
theorem cellsFrom_setCell {n : Nat} {low : Nat} {l : List (Nat × BitVec n)} {a : Nat} (v : BitVec n)
    (h : cellsFrom low l = true) (ha : low ≤ a) : cellsFrom low (setCell l a v) = true := by
  induction l generalizing low with
  | nil => simp only [setCell]; split <;> simp_all [cellsFrom]
  | cons p rest ih =>
    obtain ⟨x, y⟩ := p
    have h0 := h
    simp only [cellsFrom, Bool.and_eq_true, decide_eq_true_eq] at h
    simp only [setCell]
    split_ifs with h1 h2 h3 h4
    · exact h0
    · simp only [cellsFrom, Bool.and_eq_true, decide_eq_true_eq]
      exact ⟨⟨ha, by simpa using h2⟩, ⟨by omega, h.1.2⟩, h.2⟩
    · exact cellsFrom_mono h.2 (by omega)
    · subst h3
      simp only [cellsFrom, Bool.and_eq_true, decide_eq_true_eq]
      exact ⟨⟨ha, by simpa using h4⟩, h.2⟩
    · simp only [cellsFrom, Bool.and_eq_true, decide_eq_true_eq]
      exact ⟨h.1, ih h.2 (by omega)⟩

/-- Two canonical lists that read the same everywhere are the same list. -/
theorem cells_ext {n : Nat} {low : Nat} {l m : List (Nat × BitVec n)} (hl : cellsFrom low l = true)
    (hm : cellsFrom low m = true) (h : ∀ a, cellAt l a = cellAt m a) : l = m := by
  induction l generalizing low m with
  | nil =>
    cases m with
    | nil => rfl
    | cons q rest =>
      have := h q.1
      simp only [cellsFrom, Bool.and_eq_true] at hm
      simp_all [cellAt]
  | cons p rest ih =>
    cases m with
    | nil =>
      have := h p.1
      simp only [cellsFrom, Bool.and_eq_true] at hl
      simp_all [cellAt]
    | cons q rest' =>
      obtain ⟨x, y⟩ := p
      obtain ⟨x', y'⟩ := q
      simp only [cellsFrom, Bool.and_eq_true, decide_eq_true_eq, bne_iff_ne] at hl hm
      have hx : x = x' := by
        rcases Nat.lt_trichotomy x x' with hlt | heq | hlt
        · have := h x
          simp only [cellAt, if_pos, if_neg (by omega : ¬ x' = x)] at this
          exact absurd (this.trans (cellAt_below hm.2 (by omega))) hl.1.2
        · exact heq
        · have := h x'
          simp only [cellAt, if_pos, if_neg (by omega : ¬ x = x')] at this
          exact absurd (this.symm.trans (cellAt_below hl.2 (by omega))) hm.1.2
      subst hx
      have hy : y = y' := by have := h x; simpa [cellAt] using this
      subst hy
      have : rest = rest' := by
        refine ih hl.2 hm.2 (fun a => ?_)
        by_cases ha : x = a
        · subst ha; rw [cellAt_below hl.2 (by omega), cellAt_below hm.2 (by omega)]
        · have := h a; simpa [cellAt, ha] using this
      rw [this]

/-! ### Words and bytes (R191) -/

/-- A bit of a field placed in a word. -/
theorem getLsbD_put (v lo len i : Nat) :
    (put v lo len).getLsbD i =
      (decide (i < 32) && (decide (lo ≤ i) && (decide (i - lo < len) && v.testBit (i - lo)))) := by
  simp only [put, BitVec.getLsbD_ofNat, Nat.testBit_mul_two_pow, Nat.testBit_mod_two_pow]

/-- A bit of a byte of a word. -/
theorem getLsbD_byteOf (w : Word) (i j : Nat) :
    (byteOf w i).getLsbD j = (decide (j < 8) && w.getLsbD (8 * i + j)) := by
  simp only [byteOf, bits, BitVec.getLsbD_ofNat, Nat.testBit_mod_two_pow, Nat.testBit_div_two_pow]
  rw [BitVec.getLsbD, Nat.add_comm]
  simp

/-- A bit of a word built from its bytes. -/
theorem getLsbD_wordOfBytes (b0 b1 b2 b3 : Byte) (i : Nat) :
    (wordOfBytes b0 b1 b2 b3).getLsbD i =
      if i < 8 then b0.getLsbD i else if i < 16 then b1.getLsbD (i - 8)
      else if i < 24 then b2.getLsbD (i - 16) else if i < 32 then b3.getLsbD (i - 24) else false := by
  have no (p : Prop) [Decidable p] (h : ¬ p) : decide p = false := decide_eq_false h
  simp only [wordOfBytes, BitVec.getLsbD_or, getLsbD_put, BitVec.testBit_toNat]
  split_ifs with h1 h2 h3 h4
  · simp [h1, no (8 ≤ i) (by omega), no (16 ≤ i) (by omega), no (24 ≤ i) (by omega), (by omega : i < 32)]
  · simp [h1, (by omega : 8 ≤ i), no (16 ≤ i) (by omega), no (24 ≤ i) (by omega), (by omega : i < 32),
      (by omega : i - 8 < 8)]
  · simp [h1, no (i - 8 < 8) (by omega), (by omega : 16 ≤ i), no (24 ≤ i) (by omega), (by omega : i < 32),
      (by omega : i - 16 < 8)]
  · simp [h1, no (i - 8 < 8) (by omega), no (i - 16 < 8) (by omega), (by omega : 24 ≤ i), h4,
      (by omega : i - 24 < 8)]
  · simp [h4]

/-- A word is its four bytes. -/
@[simp] theorem wordOfBytes_byteOf (w : Word) :
    wordOfBytes (byteOf w 0) (byteOf w 1) (byteOf w 2) (byteOf w 3) = w := by
  apply BitVec.eq_of_getLsbD_eq
  intro i hi
  simp only [getLsbD_wordOfBytes, getLsbD_byteOf]
  split_ifs with h1 h2 h3
  · simp [h1]
  · simp [(by omega : i - 8 < 8), (by omega : 8 + (i - 8) = i)]
  · simp [(by omega : i - 16 < 8), (by omega : 16 + (i - 16) = i)]
  · simp [(by omega : i - 24 < 8), (by omega : 24 + (i - 24) = i)]

/-- With no byte enabled the merged word is the old one, with all four the new one (R171). -/
@[simp] theorem mergeBytes_none (old new : Word) : mergeBytes 0#4 old new = old := by simp [mergeBytes]

@[simp] theorem mergeBytes_all (old new : Word) : mergeBytes 15#4 old new = new := by
  have h0 : (15#4).getLsbD 0 = true := by decide
  have h1 : (15#4).getLsbD 1 = true := by decide
  have h2 : (15#4).getLsbD 2 = true := by decide
  have h3 : (15#4).getLsbD 3 = true := by decide
  simp only [mergeBytes, h0, h1, h2, h3, if_true, wordOfBytes_byteOf]

/-! ### The memory -/

/-- The memory of State.reset has the canonical form. -/
theorem memory_wf_reset : State.reset.memory.wf = true := rfl

variable {m : Memory}

theorem Memory.wf_bytes (h : m.wf = true) : cellsFrom 0 m.bytes = true := by
  simp only [Memory.wf, Bool.and_eq_true] at h; exact h.1

theorem Memory.wf_upsets (h : m.wf = true) : cellsFrom 0 m.upsets = true := by
  simp only [Memory.wf, Bool.and_eq_true] at h; exact h.2

/-- A word write keeps the canonical form. -/
theorem Memory.wf_writeWord (a : Nat) (w : Word) (h : m.wf = true) : (m.writeWord a w).wf = true := by
  simp only [Memory.wf, Memory.writeWord, Bool.and_eq_true]
  have h1 := Memory.wf_bytes h
  exact ⟨cellsFrom_setCell _ (cellsFrom_setCell _ (cellsFrom_setCell _ (cellsFrom_setCell _ h1 (by omega)) (by omega))
    (by omega)) (by omega), cellsFrom_setCell _ (Memory.wf_upsets h) (by omega)⟩

/-- A scrub keeps the canonical form. -/
theorem Memory.wf_scrub (a : Nat) (h : m.wf = true) : (m.scrub a).wf = true := by
  simp only [Memory.wf, Memory.scrub, Bool.and_eq_true]
  exact ⟨Memory.wf_bytes h, cellsFrom_setCell _ (Memory.wf_upsets h) (by omega)⟩

/-- A word write leaves every byte outside the word. -/
theorem Memory.byte_writeWord_other {a b : Nat} (w : Word) (h : b < a ∨ a + 4 ≤ b) :
    (m.writeWord a w).byte b = m.byte b := by
  simp only [Memory.byte, Memory.writeWord]
  rw [cellAt_setCell_other _ (by omega), cellAt_setCell_other _ (by omega), cellAt_setCell_other _ (by omega),
    cellAt_setCell_other _ (by omega)]

/-- A word reads as it was written. -/
@[simp] theorem Memory.word_writeWord_self (a : Nat) (w : Word) (h : m.wf = true) : (m.writeWord a w).word a = w := by
  have h0 := Memory.wf_bytes h
  have h1 := cellsFrom_setCell (byteOf w 0) h0 (Nat.zero_le a)
  have h2 := cellsFrom_setCell (byteOf w 1) h1 (Nat.zero_le (a + 1))
  have h3 := cellsFrom_setCell (byteOf w 2) h2 (Nat.zero_le (a + 2))
  simp only [Memory.word, Memory.byte, Memory.writeWord]
  rw [cellAt_setCell_self _ h3,
    cellAt_setCell_other (a := a + 3) (b := a + 2) _ (by omega), cellAt_setCell_self _ h2,
    cellAt_setCell_other (a := a + 3) (b := a + 1) _ (by omega),
    cellAt_setCell_other (a := a + 2) (b := a + 1) _ (by omega), cellAt_setCell_self _ h1,
    cellAt_setCell_other (a := a + 3) (b := a) _ (by omega), cellAt_setCell_other (a := a + 2) (b := a) _ (by omega),
    cellAt_setCell_other (a := a + 1) (b := a) _ (by omega), cellAt_setCell_self _ h0]
  exact wordOfBytes_byteOf w

/-- A word apart from the one written reads as before. -/
theorem Memory.word_writeWord_other {a b : Nat} (w : Word) (h : b + 4 ≤ a ∨ a + 4 ≤ b) :
    (m.writeWord a w).word b = m.word b := by
  simp only [Memory.word]
  rw [Memory.byte_writeWord_other w (by omega), Memory.byte_writeWord_other w (by omega),
    Memory.byte_writeWord_other w (by omega), Memory.byte_writeWord_other w (by omega)]

/-- A scrub changes no data. -/
@[simp] theorem Memory.byte_scrub (a b : Nat) : (m.scrub a).byte b = m.byte b := rfl

@[simp] theorem Memory.word_scrub (a b : Nat) : (m.scrub a).word b = m.word b := rfl

/-- A word just written, or scrubbed, has no wrong bit. -/
theorem Memory.upset_writeWord_self (a : Nat) (w : Word) (h : m.wf = true) : (m.writeWord a w).upset a = 0 :=
  cellAt_setCell_self _ (Memory.wf_upsets h)

theorem Memory.upset_writeWord_other {a b : Nat} (w : Word) (h : b ≠ a) : (m.writeWord a w).upset b = m.upset b :=
  cellAt_setCell_other _ h

theorem Memory.upset_scrub_self (a : Nat) (h : m.wf = true) : (m.scrub a).upset a = 0 :=
  cellAt_setCell_self _ (Memory.wf_upsets h)

theorem Memory.upset_scrub_other {a b : Nat} (h : b ≠ a) : (m.scrub a).upset b = m.upset b :=
  cellAt_setCell_other _ h

/-- A word without a wrong bit is clean. -/
theorem Memory.health_of_upset {a : Nat} (h : m.upset a = 0) : m.health a = .clean := by
  have hc : (List.range 39).countP (BitVec.getLsbD (0 : BitVec 39)) = 0 := by decide
  simp only [Memory.health, h, hc]

/-- The health of a word apart from the one written is as before. -/
theorem Memory.health_writeWord_other {a b : Nat} (w : Word) (h : b ≠ a) :
    (m.writeWord a w).health b = m.health b := by
  simp only [Memory.health, Memory.upset_writeWord_other w h]

/-- A word just written is clean. -/
theorem Memory.health_writeWord_self (a : Nat) (w : Word) (h : m.wf = true) : (m.writeWord a w).health a = .clean :=
  Memory.health_of_upset (Memory.upset_writeWord_self a w h)

end Sys2Proof.Machine
end

