-- ==== Sys2Proof/Laws/Ops.lean ====
section
/-! SUPPORT. One law for each shared operation, saying once everything it can do: reads and writes of memory, faults and
corrections, the end of an event, requests to the Journal Writer, and the completion of a command. -/

namespace Sys2Proof.Machine

/-! ### The end of an event (R184) -/

/-- Words that become stale change the Status Writer alone (R184). -/
theorem makeStale_frame (s : State) (l : List Nat) : s.makeStale l = { s with status := (s.makeStale l).status } := by
  simp only [State.makeStale]
  split <;> rfl

/-- The end of an event changes the Status Writer alone (R184). -/
theorem note_frame (s t : State) : s.note t = { t with status := (s.note t).status } := by
  simp only [State.note]
  split
  · exact makeStale_frame t _
  · rfl

@[simp] theorem makeStale_memory (s : State) (l : List Nat) : (s.makeStale l).memory = s.memory := by rw [makeStale_frame]
@[simp] theorem note_memory (s t : State) : (s.note t).memory = t.memory := by rw [note_frame]
@[simp] theorem note_slots (s t : State) : (s.note t).slots = t.slots := by rw [note_frame]
@[simp] theorem note_slot (s t : State) (k : SlotId) : (s.note t).slot k = t.slot k := by rw [note_frame]; rfl
@[simp] theorem note_processor (s t : State) : (s.note t).processor = t.processor := by rw [note_frame]
@[simp] theorem note_reader (s t : State) : (s.note t).reader = t.reader := by rw [note_frame]
@[simp] theorem note_arbiter (s t : State) : (s.note t).arbiter = t.arbiter := by rw [note_frame]

/-- Words that become stale change the Status Writer's bookkeeping alone (R184). -/
theorem makeStale_mirrored (s : State) (l : List Nat) : s.Mirrored (s.makeStale l) := by
  simp only [State.makeStale, State.Mirrored]
  split <;> rfl

/-- The end of an event changes the Status Writer's bookkeeping alone (R184). -/
theorem note_mirrored (s t : State) : t.Mirrored (s.note t) := by
  simp only [State.note]
  split
  · exact makeStale_mirrored t _
  · rfl

/-- An event that changes no mirrored word makes none stale (R184). -/
theorem note_same {s t : State} (h : ∀ i, s.mirrorWord i = t.mirrorWord i) : s.note t = t := by
  simp [State.note, h, State.makeStale]

/-- What an event makes stale depends on the words mirrored before it alone (R184). -/
theorem note_congr {r s : State} (t : State) (h : ∀ i, r.mirrorWord i = s.mirrorWord i) : r.note t = s.note t := by
  simp [State.note, h]

/-- Outside SCANNING and READY nothing is mirrored (R184, R185). -/
theorem note_unmirrored (s : State) {t : State} (h : t.unit ≠ .scanning) (h' : t.unit ≠ .ready) : s.note t = t := by
  simp [State.note, State.mirrors, h, h']

/-- Requests alone come and go (R166). -/
theorem enrol_mirrored (s : State) : s.Mirrored s.enrol := rfl

theorem offer_mirrored (s : State) (x : Block) : s.Mirrored (s.offer x) := by
  unfold State.offer; split <;> rfl

theorem retract_mirrored (s : State) (x : Block) : s.Mirrored (s.retract x) := rfl

theorem State.Mirrored.trans {r s t : State} (h : r.Mirrored s) (h' : s.Mirrored t) : r.Mirrored t := by
  unfold State.Mirrored at *
  rw [h] at h'
  exact h'

/-- The end of a row changes the bookkeeping of the Status Writer and of the Memory Arbiter alone (R166, R184). -/
theorem settle_mirrored (s t : State) : t.Mirrored (s.settle t) := (note_mirrored s t).trans (enrol_mirrored _)

/-- A block that is not new at the arbiter keeps its turn; a new one comes last (R166). -/
theorem offer_requests (s : State) (x : Block) :
    (s.offer x).arbiter.requests =
      if x ∈ s.arbiter.requests then s.arbiter.requests else s.arbiter.requests ++ [x] := by
  unfold State.offer
  by_cases h : x ∈ s.arbiter.requests <;> simp [h]

theorem State.Mirrored.refl (s : State) : s.Mirrored s := rfl

variable {s t u : State}

theorem State.Mirrored.memory (h : u.Mirrored t) : t.memory = u.memory := by rw [h]
theorem State.Mirrored.notices (h : u.Mirrored t) : t.status.notices = u.status.notices := by rw [h]
theorem State.Mirrored.records (h : u.Mirrored t) : t.status.records = u.status.records := by rw [h]
theorem State.Mirrored.slots (h : u.Mirrored t) : t.slots = u.slots := by rw [h]
theorem State.Mirrored.processor (h : u.Mirrored t) : t.processor = u.processor := by rw [h]
theorem State.Mirrored.pending (h : u.Mirrored t) : t.pending = u.pending := by rw [h]
theorem State.Mirrored.startUp (h : u.Mirrored t) : t.startUp = u.startUp := by rw [h]
theorem State.Mirrored.lanes (h : u.Mirrored t) : t.lanes = u.lanes := by rw [h]
theorem State.Mirrored.gates (h : u.Mirrored t) : t.gates = u.gates := by rw [h]
theorem State.Mirrored.banks (h : u.Mirrored t) : t.banks = u.banks := by rw [h]
theorem State.Mirrored.line (h : u.Mirrored t) : t.line = u.line := by rw [h]
theorem State.Mirrored.journal (h : u.Mirrored t) : t.journal = u.journal := by rw [h]
theorem State.Mirrored.screening (h : u.Mirrored t) : t.screening = u.screening := by rw [h]
theorem State.Mirrored.reader (h : u.Mirrored t) : t.reader = u.reader := by rw [h]
theorem State.Mirrored.losses (h : u.Mirrored t) : t.arbiter.losses = u.arbiter.losses := by rw [h]

/-! ### Faults and corrections (R169, R172) -/

/-- A reported fault changes the Fault Record and sets the FAULT notice, and nothing else (R172). -/
theorem reportFault_eq (kind : PathFault) (source : FaultSource) (a : Option Nat) (d : Option AccessDirection)
    (m : Option Mode) (h : s.unit ≠ .faulted) :
    s.reportFault kind source a d m =
      ({ s with faultRecord := s.faultRecord.after ⟨kind, source, a, d, m, s.clock⟩ }).notify .fault := by
  cases hf : s.faultRecord.first <;> simp [State.reportFault, FaultRecord.after, saturate, h, hf]

/-- In FAULTED no fault is reported (R188). -/
theorem reportFault_faulted (kind : PathFault) (source : FaultSource) (a : Option Nat) (d : Option AccessDirection)
    (m : Option Mode) (h : s.unit = .faulted) : s.reportFault kind source a d m = s := by
  simp [State.reportFault, h]

/-- What a fault may change: the Fault Record and the notice flags. -/
theorem reportFault_frame (kind : PathFault) (source : FaultSource) (a : Option Nat) (d : Option AccessDirection)
    (m : Option Mode) :
    s.reportFault kind source a d m =
      { s with faultRecord := (s.reportFault kind source a d m).faultRecord
               status := { s.status with notices := (s.reportFault kind source a d m).status.notices } } := by
  simp only [State.reportFault]; split <;> rfl

/-- What a correction may change: the budget and the notice flags (R169). -/
theorem spendCorrection_frame :
    s.spendCorrection =
      { s with budget := s.spendCorrection.budget
               status := { s.status with notices := s.spendCorrection.status.notices } } := by
  simp only [State.spendCorrection]; split
  · rfl
  · split <;> rfl

@[simp] theorem spendCorrection_memory : s.spendCorrection.memory = s.memory := by rw [spendCorrection_frame]

@[simp] theorem reportFault_memory (kind : PathFault) (source : FaultSource) (a : Option Nat)
    (d : Option AccessDirection) (m : Option Mode) : (s.reportFault kind source a d m).memory = s.memory := by
  rw [reportFault_frame]

/-! ### Reads (R168, R170) -/

/-- What a read may leave behind: scrubs, a smaller budget, faults and notices; never a changed byte. -/
def State.ReadLeaves (s t : State) : Prop :=
  t = { s with memory := { s.memory with upsets := t.memory.upsets }, budget := t.budget, faultRecord := t.faultRecord
               status := { s.status with notices := t.status.notices } }

theorem State.ReadLeaves.refl (s : State) : s.ReadLeaves s := rfl

theorem State.ReadLeaves.trans {r : State} (h : r.ReadLeaves s) (h' : s.ReadLeaves t) : r.ReadLeaves t := by
  unfold State.ReadLeaves at *
  rw [h] at h'
  exact h'

theorem State.ReadLeaves.sameBytes (h : s.ReadLeaves t) : s.SameBytes t := by
  intro a; rw [h]; rfl

/-- A read of one word leaves at most a scrub, a correction spent, or a fault (R168, R170). -/
theorem readWord_leaves (a : Nat) : s.ReadLeaves (s.readWord a).2 := by
  unfold State.readWord State.ReadLeaves
  split
  · rfl
  · simp only []
    rw [spendCorrection_frame]
    rfl
  · simp only []
    rw [reportFault_frame]

/-- A clean word is read without any effect. -/
theorem readWord_clean {a : Nat} (h : s.memory.health a = .clean) : s.readWord a = (some (s.memory.word a), s) := by
  simp [State.readWord, h]

/-- What a read delivers and leaves does not depend on the requests that wait at the arbiter. -/
theorem readWord_arbiter (x : Arbiter) (a : Nat) :
    ({ s with arbiter := x } : State).readWord a =
      ((s.readWord a).1, { (s.readWord a).2 with arbiter := x }) := by
  unfold State.readWord
  cases s.memory.health a
  · rfl
  · by_cases hu : s.startUp.unit = .faulted <;> by_cases hb : s.budget - 1 = 0 <;>
      simp only [State.setMemory, State.spendCorrection, State.unit, hu, hb, if_true, if_false] <;> rfl
  · by_cases hu : s.startUp.unit = .faulted <;> simp only [State.reportFault, State.unit, hu, if_true, if_false] <;> rfl

theorem readThrough_arbiter {α : Type} (x : Arbiter) (p : Reads α) :
    ({ s with arbiter := x } : State).readThrough p =
      ((s.readThrough p).1, { (s.readThrough p).2 with arbiter := x }) := by
  induction p generalizing s with
  | done r => rfl
  | read b a next ih => simp only [State.readThrough, readWord_arbiter, ih]

/-- Reads leave what single reads leave. -/
theorem readThrough_leaves {α : Type} (p : Reads α) : s.ReadLeaves (s.readThrough p).2 := by
  induction p generalizing s with
  | done r => exact State.ReadLeaves.refl s
  | read b a next ih => exact (readWord_leaves a).trans (ih _)

/-- The reads of two purposes, one after the other. -/
theorem readThrough_bind {α β : Type} (p : Reads α) (f : α → Reads β) :
    s.readThrough (p.bind f) = (s.readThrough p).2.readThrough (f (s.readThrough p).1) := by
  induction p generalizing s with
  | done r => rfl
  | read b a next ih => exact ih _

/-- Clean words are read without any effect. -/
theorem readWordsAfter_clean (b : Block) (before : List Word) {l : List Nat}
    (h : ∀ a ∈ l, s.memory.health a = .clean) :
    s.readThrough (Reads.wordsAfter b before l) = (some (before.reverse ++ l.map s.memory.word), s) := by
  induction l generalizing before with
  | nil => simp [Reads.wordsAfter, State.readThrough]
  | cons a rest ih =>
    rw [Reads.wordsAfter, State.readThrough, readWord_clean (h a (by simp))]
    simp only []
    rw [ih (s.memory.word a :: before) (fun c hc => h c (by simp [hc]))]
    simp

/-- Clean words are read without any effect. -/
theorem readWords_clean (b : Block) {l : List Nat} (h : ∀ a ∈ l, s.memory.health a = .clean) :
    s.readThrough (Reads.words b l) = (some (l.map s.memory.word), s) := readWordsAfter_clean b [] h

/-- Clean words are read without any effect, every one of them. -/
theorem readEach_clean (b : Block) (before : Fetched) {l : List Nat} (h : ∀ a ∈ l, s.memory.health a = .clean) :
    s.readThrough (Reads.each b before l) = (before.reverse ++ l.map (fun a => some (s.memory.word a)), s) := by
  induction l generalizing before with
  | nil => simp [Reads.each, State.readThrough]
  | cons a rest ih =>
    rw [Reads.each, State.readThrough, readWord_clean (h a (by simp))]
    simp only []
    rw [ih (some (s.memory.word a) :: before) (fun c hc => h c (by simp [hc]))]
    simp

/-- A read keeps the memory's canonical form. -/
theorem readWord_wf (a : Nat) (h : s.memory.wf = true) : (s.readWord a).2.memory.wf = true := by
  unfold State.readWord
  split
  · exact h
  · simpa using Memory.wf_scrub a h
  · simpa using h

/-- Reads keep the memory's canonical form. -/
theorem readThrough_wf {α : Type} (p : Reads α) (h : s.memory.wf = true) : (s.readThrough p).2.memory.wf = true := by
  induction p generalizing s with
  | done r => exact h
  | read b a next ih => exact ih _ (readWord_wf a h)

/-! ### Writes (R171) -/

@[simp] theorem writeWord_memory (a : Nat) (w : Word) : (s.writeWord a w).memory = s.memory.writeWord a w := rfl

/-- Internal writes change memory alone. -/
theorem writeWords_frame (a : Nat) (l : List Word) :
    s.writeWords a l = { s with memory := (s.writeWords a l).memory } := by
  induction l generalizing s a with
  | nil => rfl
  | cons w rest ih => rw [State.writeWords, ih]; rfl

theorem writeWords_wf (a : Nat) (l : List Word) (h : s.memory.wf = true) : (s.writeWords a l).memory.wf = true := by
  induction l generalizing s a with
  | nil => exact h
  | cons w rest ih => exact ih _ (Memory.wf_writeWord a w h)

/-- Internal writes of consecutive words leave every byte outside them. -/
theorem writeWords_bytes (a : Nat) (l : List Word) : s.SameBytesBut (s.writeWords a l) a (4 * l.length) := by
  induction l generalizing s a with
  | nil => intro b _; rfl
  | cons w rest ih =>
    intro b hb
    simp only [List.length_cons] at hb
    rw [State.writeWords, ih (a + 4) b (by omega), writeWord_memory, Memory.byte_writeWord_other w (by omega)]

/-- Consecutive words read as they were written. -/
theorem writeWords_words (a : Nat) (l : List Word) (h : s.memory.wf = true) (i : Nat) (hi : i < l.length) :
    (s.writeWords a l).memory.word (a + 4 * i) = l[i] := by
  induction l generalizing s a i with
  | nil => simp at hi
  | cons w rest ih =>
    have hw := Memory.wf_writeWord a w h
    cases i with
    | zero =>
      have hb := writeWords_bytes (s := s.writeWord a w) (a + 4) rest
      have : (s.writeWords a (w :: rest)).memory.word a = (s.writeWord a w).memory.word a := by
        simp only [State.writeWords, Memory.word]
        rw [hb _ (by omega), hb _ (by omega), hb _ (by omega), hb _ (by omega)]
      simpa using this.trans (Memory.word_writeWord_self a w h)
    | succ j =>
      have := ih (s := s.writeWord a w) (a + 4) hw j (by simpa using hi)
      simpa [State.writeWords, Nat.mul_add, Nat.add_assoc, Nat.add_comm 4] using this

/-- A port's write keeps the memory's canonical form. -/
theorem portWrite_wf (a : Nat) (e : BitVec 4) (d : Word) (x : FaultSource) (m : Option Mode) (h : s.memory.wf = true) :
    (s.portWrite a e d x m).2.memory.wf = true := by
  unfold State.portWrite
  split_ifs
  · exact h
  · exact Memory.wf_writeWord _ _ h
  · split
    · exact Memory.wf_writeWord _ _ h
    · simpa using Memory.wf_writeWord _ _ h
    · simpa using h

/-- A port's read keeps the memory's canonical form. -/
theorem portRead_wf (a : Nat) (x : FaultSource) (m : Option Mode) (h : s.memory.wf = true) :
    (s.portRead a x m).2.memory.wf = true := by
  unfold State.portRead
  split
  · exact h
  · simpa using Memory.wf_scrub a h
  · simpa using h

/-- An admitted write to a clean word, with any byte enables, leaves the merged word (R171). -/
theorem portWrite_clean {a : Nat} (e : BitVec 4) (d : Word) (x : FaultSource) (m : Option Mode)
    (h : s.memory.health a = .clean) :
    s.portWrite a e d x m = (true, if e = 0 then s else s.writeWord a (mergeBytes e (s.memory.word a) d)) := by
  unfold State.portWrite
  split_ifs with h1 h2
  · rfl
  · subst h2; simp
  · simp [h]

/-! ### The Journal Writer (R109, R112) -/

/-- Serving requests changes the journal alone. -/
theorem serveFrom_frame (l : List JournalRequest) : s.serveFrom l = { s with journal := (s.serveFrom l).journal } := by
  induction l generalizing s with
  | nil => rfl
  | cons r rest ih =>
    unfold State.serveFrom
    split
    · rfl
    · rw [ih]; rfl

/-- A request changes the journal alone. -/
theorem request_frame (r : JournalRequest) : s.request r = { s with journal := (s.request r).journal } := by
  unfold State.request
  split
  · rfl
  · exact serveFrom_frame _

/-- What a request makes of the journal depends on the journal and the configuration alone. -/
theorem serveFrom_congr {l : List JournalRequest} (hj : t.journal = s.journal) (hc : t.cfg = s.cfg) :
    (t.serveFrom l).journal = (s.serveFrom l).journal := by
  induction l generalizing s t with
  | nil => simp [State.serveFrom, State.setJournal, hj]
  | cons r rest ih =>
    have hs : t.serve r = s.serve r := by
      cases r <;> simp [State.serve, State.freeSpace, State.ringRoom, State.sequenceRoom, State.capacity,
        State.occupancy, State.regionSize, State.region, State.recordWords, hj, hc]
    unfold State.serveFrom
    rw [hs]
    split
    · simp [State.setJournal, hj]
    · exact ih (by simp [State.setJournal, hj]) (by simp [State.setJournal, hc])

/-- Two states with one journal and one configuration make the same of a request. -/
theorem request_congr {r : JournalRequest} (hj : t.journal = s.journal) (hc : t.cfg = s.cfg) :
    (t.request r).journal = (s.request r).journal := by
  unfold State.request
  rw [hj]
  split
  · simp [State.setJournal]
  · exact serveFrom_congr hj hc

/-- A return of nothing is no request, and any other is one (R79, R111): the lane's Reservation is 0 at once. -/
theorem giveBack_eq (n : Lane) :
    s.giveBack n = { s with
      lanes := s.lanes.set n { s.lane n with reservation := 0 }, journal := s.returned n } := by
  unfold State.giveBack State.returned
  split_ifs
  · rfl
  · have h := request_frame (s := s.setLane n { s.lane n with reservation := 0 }) (.giveBack (s.lane n).reservation)
    rw [request_congr (s := s) (by rfl) (by rfl)] at h
    exact h

@[simp] theorem request_memory (r : JournalRequest) : (s.request r).memory = s.memory := by rw [request_frame]

@[simp] theorem serveFrom_memory (l : List JournalRequest) : (s.serveFrom l).memory = s.memory := by
  rw [serveFrom_frame]

/-! ### The Status Writer's writes (R184) -/

/-- What the Status Writer's writes to the first `n` words of its area may change (R184): bytes of those words, and the
bookkeeping of the Status Writer and of the Memory Arbiter. -/
structure State.StatusWrites (s : State) (n : Nat) (t : State) : Prop where
  frame : ({ s with memory := t.memory }).Mirrored t
  bytes : ∀ b, (b < s.statusAddress 0 ∨ s.statusAddress n ≤ b) → t.memory.byte b = s.memory.byte b
  upsets : ∀ a, (a < s.statusAddress 0 ∨ s.statusAddress n ≤ a) → t.memory.upset a = s.memory.upset a
  form : s.memory.wf = true → t.memory.wf = true

variable {n : Nat}

theorem State.StatusWrites.refl (s : State) (n : Nat) : s.StatusWrites n s :=
  ⟨rfl, fun _ _ => rfl, fun _ _ => rfl, id⟩

theorem State.StatusWrites.address (h : s.StatusWrites n t) (i : Nat) : t.statusAddress i = s.statusAddress i := by
  rw [h.frame]; rfl

theorem State.StatusWrites.mirror (h : s.StatusWrites n t) (i : Nat) : t.mirrorWord i = s.mirrorWord i := by
  rw [h.frame]; rfl

theorem State.StatusWrites.trans {r : State} (h : r.StatusWrites n s) (h' : s.StatusWrites n t) :
    r.StatusWrites n t := by
  refine ⟨?_, fun b hb => ?_, fun a ha => ?_, h'.form ∘ h.form⟩
  · have h1 := h.frame
    have h2 := h'.frame
    unfold State.Mirrored at *
    rw [h1] at h2
    exact h2
  · rw [h'.bytes b (by rwa [h.address, h.address]), h.bytes b hb]
  · rw [h'.upsets a (by rwa [h.address, h.address]), h.upsets a ha]

theorem State.Mirrored.statusWrites (h : s.Mirrored t) : s.StatusWrites n t := by
  have hm := h.memory
  refine ⟨?_, fun _ _ => by rw [hm], fun _ _ => by rw [hm], fun hw => by rw [hm]; exact hw⟩
  rw [hm]
  exact h

/-- The write of one word of the area, with a change of the bookkeeping. -/
theorem writeStatus_writes (i : Nat) (w : Word) (hi : i < n) (stale : List Nat) (count : Option (BitVec 32))
    (due : List Word) :
    s.StatusWrites n ((s.writeWord (s.statusAddress i) w).setStatus
      { s.status with stale := stale, changeCount := count, due := due }) := by
  refine ⟨rfl, fun b hb => ?_, fun a ha => ?_, fun hw => Memory.wf_writeWord _ _ hw⟩
  · exact Memory.byte_writeWord_other _ (by simp only [State.statusAddress] at *; omega)
  · exact Memory.upset_writeWord_other _ (by simp only [State.statusAddress] at *; omega)

/-- A Change Count that is due is written to word 0 alone (R184). -/
theorem writeCount_writes (s : State) (hn : 0 < n) : s.StatusWrites n s.writeCount := by
  unfold State.writeCount
  split
  · exact State.StatusWrites.refl s n
  · exact writeStatus_writes 0 _ hn _ _ _

theorem mem_insertStale (i : Nat) (l : List Nat) : i ∈ insertStale i l := by
  induction l with
  | nil => simp [insertStale]
  | cons j rest ih => unfold insertStale; split_ifs <;> simp_all

theorem mem_insertStale_of_mem {i : Nat} (j : Nat) {l : List Nat} (h : i ∈ l) : i ∈ insertStale j l := by
  induction l with
  | nil => cases h
  | cons k rest ih => unfold insertStale; split_ifs <;> simp_all <;> tauto

theorem mem_mergeStale {i : Nat} {l stale : List Nat} (h : i ∈ l ∨ i ∈ stale) : i ∈ mergeStale l stale := by
  induction l generalizing stale with
  | nil => simpa [mergeStale] using h
  | cons j rest ih =>
    refine ih ?_
    rcases h with h | h
    · rcases List.mem_cons.mp h with rfl | h
      · exact Or.inr (mem_insertStale _ _)
      · exact Or.inl h
    · exact Or.inr (mem_insertStale_of_mem j h)

/-- Words that become stale, and those that were, are stale (R184). -/
theorem mem_makeStale {i : Nat} {l : List Nat} (h : i ∈ l ∨ i ∈ s.status.stale) : i ∈ (s.makeStale l).status.stale := by
  unfold State.makeStale
  split
  · simpa using h
  · rename_i hs
    exact mem_mergeStale (by rw [hs] at h; exact h)
  · exact mem_mergeStale h

/-- The stale set stays rising (R184). -/
theorem insertStale_rising {i : Nat} {l : List Nat} (h : l.Pairwise (· < ·)) : (insertStale i l).Pairwise (· < ·) := by
  have hm (j : Nat) (l : List Nat) (hj : j ∈ insertStale i l) : j = i ∨ j ∈ l := by
    induction l with
    | nil => simpa [insertStale] using hj
    | cons k rest ih =>
      unfold insertStale at hj
      split_ifs at hj <;> simp_all
      tauto
  induction l with
  | nil => simp [insertStale]
  | cons j rest ih =>
    have hj := List.pairwise_cons.mp h
    unfold insertStale
    split_ifs with h1 h2
    · refine List.pairwise_cons.mpr ⟨fun k hk => ?_, h⟩
      rcases List.mem_cons.mp hk with rfl | hk
      · exact h1
      · exact Nat.lt_trans h1 (hj.1 k hk)
    · exact h
    · refine List.pairwise_cons.mpr ⟨fun k hk => ?_, ih hj.2⟩
      rcases hm k rest hk with rfl | hk
      · omega
      · exact hj.1 k hk

theorem mergeStale_rising {l stale : List Nat} (h : stale.Pairwise (· < ·)) :
    (mergeStale l stale).Pairwise (· < ·) := by
  induction l generalizing stale with
  | nil => exact h
  | cons i rest ih => exact ih (insertStale_rising h)

theorem makeStale_rising {l : List Nat} (h : s.status.stale.Pairwise (· < ·)) :
    (s.makeStale l).status.stale.Pairwise (· < ·) := by
  unfold State.makeStale
  split
  · exact h
  · exact mergeStale_rising List.Pairwise.nil
  · exact mergeStale_rising h

/-- A word that is stale stays so, and one whose state an event changed is, at the end of an event (R184). -/
theorem mem_note {r : State} {i : Nat} (h : i ∈ s.status.stale) : i ∈ (r.note s).status.stale := by
  unfold State.note
  split
  · exact mem_makeStale (Or.inr h)
  · exact h

theorem note_rising {r : State} (h : s.status.stale.Pairwise (· < ·)) : (r.note s).status.stale.Pairwise (· < ·) := by
  unfold State.note
  split
  · exact makeStale_rising h
  · exact h

end Sys2Proof.Machine
end

