-- ==== Sys2Proof/Laws/Arbiter.lean ====
section
/-! SUPPORT. The Memory Arbiter (R166, R167): a word that nothing goes before is made at once, so that the words of a row are
then what its reads and writes are without the arbiter; and the result words of a row (R178). -/

namespace Sys2Proof.Machine

variable {s t : State} {x : Block} {p : Nat} {k : SlotId}

/-! ### One word -/

theorem State.PathFree.mono (h : s.PathFree x p) {q : Nat} (hq : q ≤ p) : s.PathFree x q :=
  ⟨h.reader, h.processor, fun y hy => (h.others y hy).imp_right (by omega)⟩

theorem State.PathIdle.free (h : s.PathIdle) (x : Block) (p : Nat) : s.PathFree x p :=
  ⟨h.reader, h.processor, fun y hy => by rw [h.blocks] at hy; cases hy⟩

/-- Where nothing goes before block `x`'s word, the next choice takes it (R167). -/
theorem isNext_free (h : s.PathFree x x.requester.place) (hx : x ∈ s.arbiter.requests) : s.isNext x = true := by
  have hother : ∀ y ∈ s.arbiter.requests, y = x ∨ x.requester.place < y.requester.place := h.others
  have hplace : ∀ y ∈ s.arbiter.requests, y.requester = x.requester → y = x := fun y hy he =>
    (hother y hy).resolve_right (by rw [he]; omega)
  have hwaits (r : Requester) (hr : r.place < x.requester.place) : s.waits r = false := by
    have hnone : ∀ y ∈ s.arbiter.requests, (y.requester == r) = false := by
      intro y hy
      rw [beq_eq_false_iff_ne]
      rintro rfl
      rcases hother y hy with rfl | h' <;> omega
    have hany : (s.arbiter.requests.any fun b => b.requester == r) = false := by
      simpa [List.any_eq_false] using hnone
    cases r
    · exact h.reader
    all_goals first | exact hany | exact h.processor
  have hself : s.waits x.requester = true := by
    have hany : (s.arbiter.requests.any fun b => b.requester == x.requester) = true :=
      List.any_eq_true.mpr ⟨x, hx, by simp⟩
    cases x <;> exact hany
  have hchoice : s.choice = some x.requester := by
    unfold State.choice
    rw [h.processor, if_neg (by simp)]
    unfold requesters
    cases x <;> simp only [Block.requester, Requester.place] at hwaits hself ⊢ <;>
      simp [List.find?, hwaits .reader, hwaits .journal, hwaits .composer, hwaits .screening, hwaits .status,
        hwaits .bankControl, hself]
  have hoffered : s.offered x.requester = some x := by
    unfold State.offered
    cases hf : s.arbiter.requests.find? (fun b => b.requester == x.requester) with
    | none => exact absurd (List.find?_eq_none.mp hf x hx) (by simp)
    | some y =>
      have hy := List.mem_of_find?_eq_some hf
      have := List.find?_some hf
      rw [hplace y hy (by simpa using this)]
  simp [State.isNext, hchoice, hoffered]

theorem waitTurn_next {n : Nat} (h : s.isNext x = true) : State.waitTurn n x s = s := by
  cases n with
  | zero => rfl
  | succ n => simp [State.waitTurn, h]

/-- A block's own request, made and taken back, leaves the requests as they were. -/
theorem retract_offer : (s.offer x).retract x = s.retract x := by
  unfold State.offer
  split
  · rfl
  · rename_i h
    have h : x ∉ s.arbiter.requests := by simpa using h
    simp [State.retract, List.erase_append_right _ h, List.erase_of_not_mem h]

/-- Where nothing goes before block `x`'s word, it is chosen at once, and no loss is counted (R167). -/
theorem turn_free (h : s.PathFree x x.requester.place) : s.turn x = s.retract x := by
  have ho : (s.offer x).PathFree x x.requester.place := by
    have hm := offer_mirrored s x
    refine ⟨by rw [hm.reader]; exact h.reader, by rw [hm.processor]; exact h.processor, fun y hy => ?_⟩
    rw [offer_requests] at hy
    split at hy
    · exact h.others y hy
    · rcases List.mem_append.mp hy with hy | hy
      · exact h.others y hy
      · exact Or.inl (by simpa using hy)
  have hx : x ∈ (s.offer x).arbiter.requests := by rw [offer_requests]; split <;> simp_all
  have hp : x.requester ≠ .processor := by cases x <;> simp [Block.requester]
  have hc : (s.offer x).countLoss x.requester = s.offer x := by
    simp only [State.countLoss, if_neg hp, ho.processor, Bool.false_eq_true, if_false]
  unfold State.turn
  rw [waitTurn_next (isNext_free ho hx), hc, retract_offer]

theorem State.PathFree.retract (h : s.PathFree x p) (y : Block) : (s.retract y).PathFree x p :=
  ⟨h.reader, h.processor, fun z hz => h.others z (List.mem_of_mem_erase hz)⟩

theorem retract_idle (h : s.PathIdle) (x : Block) : s.retract x = s := by
  simp only [State.retract, h.blocks, List.erase_nil]
  rw [← h.blocks]

/-! ### The reads and the writes of a row -/

/-- Every read of `p` is one of block `x`. -/
inductive Reads.By {α : Type} (x : Block) : Reads α → Prop
  | done (r : α) : Reads.By x (.done r)
  | read (a : Nat) (next : Option Word → Reads α) (h : ∀ w, Reads.By x (next w)) : Reads.By x (.read x a next)

theorem Reads.By.words (b : Block) (before : List Word) (l : List Nat) :
    Reads.By b (Reads.wordsAfter b before l) := by
  induction l generalizing before with
  | nil => exact .done _
  | cons a rest ih => exact .read a _ (fun w => by cases w with
    | none => exact .done _
    | some w => exact ih (w :: before))

theorem Reads.By.each (b : Block) (before : Fetched) (l : List Nat) : Reads.By b (Reads.each b before l) := by
  induction l generalizing before with
  | nil => exact .done _
  | cons a rest ih => exact .read a _ (fun w => ih (w :: before))

theorem Reads.By.bind {α β : Type} {p : Reads α} {f : α → Reads β} (hp : Reads.By x p) (hf : ∀ r, Reads.By x (f r)) :
    Reads.By x (p.bind f) := by
  induction hp with
  | done r => exact hf r
  | read a next _ ih => exact .read a _ ih

/-- A read leaves the ports and the requests as they are. -/
theorem State.PathFree.reads (h : s.PathFree x p) (h' : s.ReadLeaves t) : t.PathFree x p := by
  rw [h']; exact ⟨h.reader, h.processor, h.others⟩

/-- The reads of a row, where nothing goes before its block's words, deliver and leave what they do without the arbiter, but
for the requests (R166). -/
theorem perform_free {α : Type} {r : Reads α} (hr : Reads.By x r) (h : s.PathFree x x.requester.place) :
    ∃ l, s.perform r = ((s.readThrough r).1,
        { (s.readThrough r).2 with arbiter := { s.arbiter with requests := l } })
      ∧ ∀ y ∈ l, y ∈ s.arbiter.requests := by
  induction hr generalizing s with
  | done r => exact ⟨s.arbiter.requests, rfl, fun _ => id⟩
  | read a next _ ih =>
    unfold State.perform State.readThrough
    rw [turn_free h]
    have hl := readWord_leaves (s := s.retract x) a
    have he := readWord_arbiter (s := s) { s.arbiter with requests := s.arbiter.requests.erase x } a
    rw [show (s.retract x) = { s with arbiter := { s.arbiter with requests := s.arbiter.requests.erase x } } from rfl] at *
    rw [he] at hl ⊢
    obtain ⟨l, h1, h2⟩ := ih ((s.readWord a).1) ((h.retract x).reads hl)
    refine ⟨l, ?_, fun y hy => List.mem_of_mem_erase (h2 y hy)⟩
    simp only [] at h1 ⊢
    rw [h1, readThrough_arbiter]

/-- Where no request waits at all, the reads of a row are those without the arbiter. -/
theorem perform_idle {α : Type} (r : Reads α) (h : s.PathIdle) : s.perform r = s.readThrough r := by
  induction r generalizing s with
  | done r => rfl
  | read b a next ih =>
    unfold State.perform State.readThrough
    rw [turn_free (h.free b _), retract_idle h]
    have hl := readWord_leaves (s := s) a
    have hi : (s.readWord a).2.PathIdle :=
      ⟨by rw [hl]; exact h.reader, by rw [hl]; exact h.processor, by rw [hl]; exact h.blocks⟩
    exact ih (s.readWord a).1 hi

/-- The reads of a row whose block alone has its request at the arbiter, and makes the first of them. -/
theorem perform_own {α : Type} {a : Nat} {next : Option Word → Reads α} (hr : s.reader.taken = false)
    (hp : s.processor.taken = false) (hx : s.arbiter.requests = [x]) :
    s.perform (.read x a next) = (s.retract x).readThrough (.read x a next) := by
  have hf : s.PathFree x x.requester.place := ⟨hr, hp, fun y hy => Or.inl (by rw [hx] at hy; simpa using hy)⟩
  have hi : (s.retract x).PathIdle := ⟨hr, hp, by simp [State.retract, hx]⟩
  have hl := readWord_leaves (s := s.retract x) a
  have hi' : ((s.retract x).readWord a).2.PathIdle :=
    ⟨by rw [hl]; exact hi.reader, by rw [hl]; exact hi.processor, by rw [hl]; exact hi.blocks⟩
  rw [State.perform, turn_free hf, State.readThrough]
  exact perform_idle _ hi'

/-- The cells of a list of words, written in order. -/
def putAll (m : Memory) (l : List (Nat × Word)) : Memory := l.foldl (fun m c => m.writeWord c.1 c.2) m

/-- The writes of a row, where nothing goes before its block's words, change memory as they do without the arbiter, and the
requests (R166). -/
theorem putWords_free (l : List (Nat × Word)) (h : s.PathFree x x.requester.place) :
    ({ s with memory := putAll s.memory l }).Mirrored (State.putWords x l s) := by
  induction l generalizing s with
  | nil => exact State.Mirrored.refl s
  | cons c rest ih =>
    rw [State.putWords, turn_free h]
    have hp : ((s.retract x).writeWord c.1 c.2).PathFree x x.requester.place :=
      ⟨h.reader, h.processor, fun z hz => h.others z (List.mem_of_mem_erase hz)⟩
    exact (retract_mirrored { s with memory := putAll s.memory (c :: rest) } x).trans (ih hp)

/-! ### Commands that complete in a row (R178) -/

/-- Completing a command without a Detail Value: its result word is to be written, by a request of the Command Taker. -/
theorem complete_none (k : SlotId) (outcome : CommandOutcome) (detail : Detail) :
    s.complete k outcome detail = (s.placeResult k outcome detail false).offer (.commandSlot k) := rfl

/-- A command that completes has its result word to write, and no other slot changes (R178). -/
theorem complete_slots (k : SlotId) (outcome : CommandOutcome) (detail : Detail) (v : Option Word) :
    ((s.complete k outcome detail v).slot k).result.isSome = true
    ∧ ∀ j, j ≠ k → (s.complete k outcome detail v).slot j = s.slot j := by
  have hplace (u : State) (b : Bool) (x : Block) :
      (((u.placeResult k outcome detail b).offer x).slot k).result.isSome = true
      ∧ ∀ j, j ≠ k → ((u.placeResult k outcome detail b).offer x).slot j = u.slot j := by
    constructor
    · simp [State.slot, State.placeResult, State.setSlot]
    · intro j hj
      have : k.val ≠ j.val := fun e => hj (Fin.ext e.symm)
      simp [State.slot, State.placeResult, State.setSlot, this]
  have hdetail (w : Word) : ∀ j, j ≠ k → (s.placeDetail k w).slot j = s.slot j := by
    intro j hj
    have hne : k.val ≠ j.val := fun e => hj (Fin.ext e.symm)
    unfold State.placeDetail
    simp only []
    split
    · rw [makeStale_frame]; simp [State.slot, State.setSlot, hne]
    · simp [State.slot, State.setSlot, hne]
  unfold State.complete
  cases v with
  | none => exact hplace s false (.commandSlot k)
  | some w =>
    simp only []
    split
    · exact ⟨(hplace _ _ _).1, fun j hj => ((hplace _ _ _).2 j hj).trans (hdetail w j hj)⟩
    · exact ⟨(hplace _ _ _).1, fun j hj => ((hplace _ _ _).2 j hj).trans (hdetail w j hj)⟩

theorem showDetail_done {n : Nat} {w : Word} (h : (s.slot k).result = some ⟨w, false⟩) : s.showDetail n k = s := by
  cases n with
  | zero => rfl
  | succ n => simp [State.showDetail, h]

/-- A slot without a result word has none to deliver. -/
theorem deliver_none (h : (s.slot k).result = none) : s.deliver k = s := by
  have : ∀ n, State.showDetail n k s = s := fun n => by cases n <;> simp [State.showDetail, h]
  simp [State.deliver, this, h]

/-- Where slot `k` alone has come to hold a result word, that of slot `k` alone is written at the end of a row (R178). -/
theorem deliverAll_one (hk : (t.slot k).result.isSome = true) (hs : (s.slot k).result = none)
    (ho : ∀ j, j ≠ k → (t.slot j).result.isSome = true → (s.slot j).result.isSome = true)
    (hd : ((t.deliver k).slot k).result = none) : s.deliverAll t = t.deliver k := by
  have hall : ∀ j ∈ s.completed t, j = k := by
    intro j hj
    have hj := (List.mem_filter.mp hj).2
    simp only [Bool.and_eq_true, Option.isNone_iff_eq_none] at hj
    by_contra hne
    have := ho j hne hj.1
    rw [hj.2] at this; cases this
  have hmem : k ∈ s.completed t := by
    refine List.mem_filter.mpr ⟨List.mem_append_right _ ?_, by simp [hk, hs]⟩
    fin_cases k <;> decide
  have hstay : ∀ l : List SlotId, (∀ j ∈ l, j = k) → l.foldl State.deliver (t.deliver k) = t.deliver k := by
    intro l hl
    induction l with
    | nil => rfl
    | cons j rest ih =>
      obtain rfl := hl j (by simp)
      rw [List.foldl_cons, deliver_none hd]
      exact ih fun i hi => hl i (by simp [hi])
  unfold State.deliverAll
  cases hl : s.completed t with
  | nil => rw [hl] at hmem; cases hmem
  | cons j rest =>
    rw [hl] at hall
    obtain rfl := hall j (by simp)
    exact hstay rest fun i hi => hall i (by simp [hi])

/-- Where no slot has come to hold a result word, the end of a row writes none (R178). -/
theorem deliverAll_none (ho : ∀ j, (t.slot j).result.isSome = true → (s.slot j).result.isSome = true) :
    s.deliverAll t = t := by
  have : s.completed t = [] := by
    refine List.filter_eq_nil_iff.mpr fun j _ hj => ?_
    simp only [Bool.and_eq_true, Option.isNone_iff_eq_none] at hj
    have := ho j hj.1
    rw [hj.2] at this; cases this
  simp [State.deliverAll, this]

/-- The result word that waits for nothing is written, and the slot is free (R178). -/
theorem deliver_plain {w : Word} (h : (s.slot k).result = some ⟨w, false⟩)
    (hp : s.PathFree (.commandSlot k) 5) :
    s.deliver k = { s with
      memory := s.memory.writeWord (s.slotAddress k 6) w
      slots := s.slots.set k.val { s.slot k with busy := false, result := none }
      arbiter := { s.arbiter with requests := s.arbiter.requests.erase (.commandSlot k) } } := by
  unfold State.deliver
  simp only [showDetail_done h, h, Option.isSome_some, if_true]
  rw [turn_free hp]
  have h' : ((s.retract (.commandSlot k)).slot k).result = some ⟨w, false⟩ := h
  simp only [State.writeResult, h']
  rfl

theorem State.StatusWrites.setSlot {n : Nat} (h : s.StatusWrites n t) (k : SlotId) (y : CommandSlot) :
    (s.setSlot k y).StatusWrites n (t.setSlot k y) := by
  have hf := h.frame
  refine ⟨?_, h.bytes, h.upsets, h.form⟩
  unfold State.Mirrored at *
  rw [hf]
  rfl

theorem State.PathFree.status {n : Nat} (h : s.PathFree x p) (h' : s.StatusWrites n t)
    (hr : ∀ y ∈ t.arbiter.requests, y ∈ s.arbiter.requests) : t.PathFree x p :=
  ⟨by rw [h'.frame]; exact h.reader, by rw [h'.frame]; exact h.processor, fun y hy => h.others y (hr y hy)⟩

/-- A stale word whose slot has no result word waiting is written, and nothing else happens with it (R184). -/
theorem detailWritten_none {i : Nat} (h : ∀ k : SlotId, i = 208 + k.val → (s.slot k).result = none) :
    s.detailWritten i = s := by
  unfold State.detailWritten
  split_ifs with hi
  · simp only [h ⟨i - 208, by omega⟩ (by simp; omega)]
  · rfl

/-- The write of a stale word, and what follows when it was the last (R184). -/
theorem writeStale_eq (i : Nat) (rest : List Nat) :
    s.writeStale i rest =
      let v := ((s.writeWord (s.statusAddress i) (s.mirrorWord i)).setStatus { s.status with stale := rest }).detailWritten i
      if rest = [] then v.setStatus (raiseCount v.status) else v := by
  cases rest <;> rfl

/-- The Status Writer writes on until the Detail Value of slot `k` is written: words of its area up to that one alone, and the
slot's result word then waits for nothing (R178, R184). -/
theorem showDetail_writes {n : Nat} {w : Word} (hn : s.status.due.length + s.status.stale.length ≤ n)
    (hres : (s.slot k).result = some ⟨w, true⟩) (hothers : ∀ j, j ≠ k → (s.slot j).result = none)
    (hstale : 208 + k.val ∈ s.status.stale) (hrise : s.status.stale.Pairwise (· < ·)) (hw : s.memory.wf = true)
    (hp : s.PathFree .statusArea 5) (hd : s.arbiter.requests.Nodup) :
    (s.setSlot k { s.slot k with result := some ⟨w, false⟩ }).StatusWrites (209 + k.val) (s.showDetail n k)
    ∧ (s.showDetail n k).memory.word (s.statusAddress (208 + k.val)) = s.mirrorWord (208 + k.val)
    ∧ (s.showDetail n k).PathFree (.commandSlot k) 5 := by
  induction n generalizing s with
  | zero =>
    have : s.status.stale = [] := List.length_eq_zero_iff.mp (by omega)
    rw [this] at hstale; cases hstale
  | succ n ih =>
    rw [State.showDetail]
    simp only [hres, if_true]
    rw [turn_free hp]
    have hs1 : s.StatusWrites (209 + k.val) (s.retract .statusArea) := (retract_mirrored s _).statusWrites
    cases hdue : s.status.due with
    | cons v rest =>
      have hop : (s.retract .statusArea).statusOperation = (s.retract .statusArea).writeCount := by
        simp [State.statusOperation, hdue]
      rw [hop]
      have hs2 := hs1.trans (writeCount_writes (s.retract .statusArea) (by omega : 0 < 209 + k.val))
      have he : (s.retract .statusArea).writeCount = ((s.retract .statusArea).writeWord (s.statusAddress 0) v).setStatus
          { s.status with due := rest } := by
        have : (s.retract .statusArea).status.due = v :: rest := hdue
        simp only [State.writeCount, this]; rfl
      generalize (s.retract .statusArea).writeCount = t at hs2 he
      have hslot : ∀ j, t.slot j = s.slot j := fun j => by rw [he]; rfl
      have hreq : ∀ y ∈ t.arbiter.requests, y ∈ s.arbiter.requests := fun y hy => by
        rw [he] at hy; exact List.mem_of_mem_erase hy
      obtain ⟨h1, h2, h3⟩ := ih (s := t) (by
        rw [he]; simp only [hdue, List.length_cons] at hn; simpa [State.setStatus] using (by omega : _ ≤ n))
        (by rw [hslot]; exact hres) (fun j hj => by rw [hslot]; exact hothers j hj)
        (by rw [he]; exact hstale) (by rw [he]; exact hrise) (hs2.form hw) (hp.status hs2 hreq)
        (by rw [he]; exact hd.erase _)
      rw [hslot] at h1
      exact ⟨(hs2.setSlot k _).trans h1, by rw [hs2.address, hs2.mirror] at h2; exact h2, h3⟩
    | nil =>
      cases hst : s.status.stale with
      | nil => rw [hst] at hstale; cases hstale
      | cons i rest =>
        have hop : (s.retract .statusArea).statusOperation = (s.retract .statusArea).writeStale i rest := by
          simp [State.statusOperation, hdue, hst]
        rw [hop]
        rw [hst] at hstale hrise
        have hord := List.pairwise_cons.mp hrise
        have hi : i < 209 + k.val := by
          rcases List.mem_cons.mp hstale with h | h
          · omega
          · have := hord.1 _ h; omega
        generalize hv : ((s.retract .statusArea).writeWord (s.statusAddress i) (s.mirrorWord i)).setStatus
          { s.status with stale := rest } = v
        have hws : (s.retract .statusArea).writeStale i rest =
            if rest = [] then (v.detailWritten i).setStatus (raiseCount (v.detailWritten i).status)
            else v.detailWritten i := by
          rw [← hv]; exact writeStale_eq i rest
        have hsv : s.StatusWrites (209 + k.val) v := by
          rw [← hv]; exact hs1.trans (writeStatus_writes (s := s.retract .statusArea) i _ hi _ _ _)
        have hslot : ∀ j, v.slot j = s.slot j := fun j => by rw [← hv]; rfl
        have hreq : v.arbiter.requests = s.arbiter.requests.erase .statusArea := by rw [← hv]; rfl
        by_cases hik : i = 208 + k.val
        · have hdw : v.detailWritten i =
              (v.setSlot k { s.slot k with result := some ⟨w, false⟩ }).offer (.commandSlot k) := by
            unfold State.detailWritten
            have hk : (⟨i - 208, by omega⟩ : SlotId) = k := Fin.ext (by simp; omega)
            rw [dif_pos (by omega)]
            simp only [hk, hslot, hres, if_true]
          have hsd : (s.setSlot k { s.slot k with result := some ⟨w, false⟩ }).StatusWrites (209 + k.val)
              ((s.retract .statusArea).writeStale i rest) := by
            have h1 := (hsv.setSlot k { s.slot k with result := some ⟨w, false⟩ }).trans
              (offer_mirrored _ (.commandSlot k)).statusWrites
            rw [hws, hdw]
            split
            · exact h1.trans (State.Mirrored.statusWrites rfl)
            · exact h1
          have hmem : ((s.retract .statusArea).writeStale i rest).memory =
              s.memory.writeWord (s.statusAddress i) (s.mirrorWord i) := by
            have : ((v.setSlot k { s.slot k with result := some ⟨w, false⟩ }).offer (.commandSlot k)).memory =
                s.memory.writeWord (s.statusAddress i) (s.mirrorWord i) := by
              rw [(offer_mirrored _ _).memory, ← hv]; rfl
            rw [hws, hdw]
            split <;> exact this
          have hdone : (((s.retract .statusArea).writeStale i rest).slot k).result = some ⟨w, false⟩ := by
            have hf := hsd.frame.slots
            simp only [State.slot, hf]
            simp [State.setSlot]
          rw [showDetail_done hdone]
          refine ⟨hsd, ?_, ?_⟩
          · rw [hmem, ← hik, Memory.word_writeWord_self _ _ hw]
          · have hall : ∀ y ∈ ((s.retract .statusArea).writeStale i rest).arbiter.requests,
                y = .commandSlot k ∨ 5 < y.requester.place := by
              have h1 : ∀ y ∈ (v.detailWritten i).arbiter.requests, y = .commandSlot k ∨ 5 < y.requester.place := by
                intro y hy
                rw [hdw, offer_requests] at hy
                have hv' : ∀ y ∈ v.arbiter.requests, y = .commandSlot k ∨ 5 < y.requester.place := fun z hz => by
                  rw [hreq] at hz
                  refine Or.inr ((hp.others z (List.mem_of_mem_erase hz)).resolve_left ?_)
                  rintro rfl
                  exact hd.not_mem_erase hz
                split at hy
                · exact hv' y hy
                · rcases List.mem_append.mp hy with hy | hy
                  · exact hv' y hy
                  · exact Or.inl (by simpa using hy)
              rw [hws]
              split <;> exact h1
            have hf := hsd.frame
            exact ⟨by rw [hf.reader]; exact hp.reader, by rw [hf.processor]; exact hp.processor, hall⟩
        · have hrest : 208 + k.val ∈ rest := by
            rcases List.mem_cons.mp hstale with h | h
            · omega
            · exact h
          have hdw : v.detailWritten i = v := detailWritten_none fun j hj => by
            rw [hslot]
            exact hothers j (by rintro rfl; exact hik hj)
          have he : (s.retract .statusArea).writeStale i rest = v := by
            rw [hws, hdw]
            rw [if_neg (by rintro rfl; cases hrest)]
          rw [he]
          obtain ⟨h1, h2, h3⟩ := ih (s := v)
            (by rw [← hv]; simp only [hdue, hst, List.length_nil, List.length_cons] at hn
                simp only [State.setStatus, hdue, List.length_nil]; omega)
            (by rw [hslot]; exact hres) (fun j hj => by rw [hslot]; exact hothers j hj)
            (by rw [← hv]; exact hrest) (by rw [← hv]; exact hord.2) (hsv.form hw)
            (hp.status hsv (fun y hy => by rw [hreq] at hy; exact List.mem_of_mem_erase hy))
            (by rw [hreq]; exact hd.erase _)
          rw [hslot] at h1
          exact ⟨(hsv.setSlot k _).trans h1, by rw [hsv.address, hsv.mirror] at h2; exact h2, h3⟩

/-- The result word of slot `k` that stands behind its Detail Value: words of the Status Area up to that one, and then the
result word, are written, and the slot is free (R178). -/
theorem deliver_shown {w : Word} (hres : (s.slot k).result = some ⟨w, true⟩)
    (hothers : ∀ j, j ≠ k → (s.slot j).result = none) (hstale : 208 + k.val ∈ s.status.stale)
    (hrise : s.status.stale.Pairwise (· < ·)) (hw : s.memory.wf = true) (hp : s.PathFree .statusArea 5)
    (hd : s.arbiter.requests.Nodup) :
    ∃ u, (s.setSlot k { s.slot k with result := some ⟨w, false⟩ }).StatusWrites (209 + k.val) u
      ∧ u.memory.word (s.statusAddress (208 + k.val)) = s.mirrorWord (208 + k.val)
      ∧ ({ u with
          memory := u.memory.writeWord (s.slotAddress k 6) w
          slots := s.slots.set k.val { s.slot k with busy := false, result := none } }).Mirrored (s.deliver k) := by
  obtain ⟨h1, h2, h3⟩ := showDetail_writes (Nat.le_refl _) hres hothers hstale hrise hw hp hd
  refine ⟨_, h1, h2, ?_⟩
  unfold State.deliver
  generalize s.showDetail _ k = u at h1 h2 h3
  have hf := h1.frame
  have hslot : u.slot k = { s.slot k with result := some ⟨w, false⟩ } := by
    simp only [State.slot, hf.slots]
    simp [State.setSlot]
  have haddr : u.slotAddress k 6 = s.slotAddress k 6 := by rw [hf]; rfl
  simp only [hslot, Option.isSome_some, if_true]
  rw [turn_free h3]
  have h' : (u.retract (.commandSlot k)).slot k = { s.slot k with result := some ⟨w, false⟩ } := hslot
  simp only [State.writeResult, h']
  have hr : (u.retract (.commandSlot k)).slotAddress k 6 = s.slotAddress k 6 := haddr
  rw [hr]
  have hslots : u.slots = s.slots.set k.val { s.slot k with result := some ⟨w, false⟩ } := hf.slots
  unfold State.Mirrored
  simp [State.setSlot, State.slot, State.writeWord, State.setMemory, State.retract, hslots]

/-! ### A command that completes with a Detail Value (R178) -/

/-- The word of the Status Area that mirrors slot `k`'s Detail Value (12.6). -/
theorem mirrorWord_detail (s : State) (k : SlotId) : s.mirrorWord (208 + k.val) = (s.slot k).detailValue := by
  have hk := k.isLt
  unfold State.mirrorWord
  iterate 10 rw [if_neg (by omega)]
  rw [dif_neg (by omega), dif_pos (by omega)]
  simp only [Nat.add_sub_cancel_left]
  rfl

/-- The end of the row in which a command has completed with a Detail Value, where nothing goes before its words: words of the
Status Area up to the slot's own, which shows the value, and then the result word, are written, and the slot is free (R178,
R184). `r` is the state before the event. -/
theorem deliver_value (r : State) (outcome : CommandOutcome) (detail : Detail) (v : Word)
    (hr : s.reader.taken = false) (hp : s.processor.taken = false)
    (hq : ∀ y ∈ s.arbiter.requests, 5 < y.requester.place) (hd : s.arbiter.requests.Nodup)
    (hrise : s.status.stale.Pairwise (· < ·)) (ho : ∀ j, j ≠ k → (s.slot j).result = none) (hw : s.memory.wf = true)
    (hm : s.mirrors = true) :
    let w := resultWord (s.slot k).lastTaken outcome detail
    ∃ u, (s.setSlot k { s.slot k with
            busy := true, reading := none, command := none, result := some ⟨w, false⟩, detailValue := v }).StatusWrites
          (209 + k.val) u
      ∧ u.memory.word (s.statusAddress (208 + k.val)) = v
      ∧ ({ u with
          memory := u.memory.writeWord (s.slotAddress k 6) w
          slots := s.slots.set k.val { s.slot k with
            busy := false, reading := none, command := none, result := none, detailValue := v } }).Mirrored
          ((r.note (s.complete k outcome detail (some v))).deliver k) := by
  intro w
  generalize ht : s.placeDetail k v = t
  have hmir : (s.setSlot k { s.slot k with detailValue := v }).Mirrored t := by
    rw [← ht]
    unfold State.placeDetail
    simp only []
    split
    · exact makeStale_mirrored _ _
    · exact State.Mirrored.refl _
  have htslot : t.slot k = { s.slot k with detailValue := v } := by
    simp only [State.slot, hmir.slots]; simp [State.setSlot]
  have htslots (x : CommandSlot) : t.slots.set k.val x = s.slots.set k.val x := by
    rw [hmir.slots]; simp [State.setSlot]
  have htother : ∀ j, j ≠ k → t.slot j = s.slot j := fun j hj => by
    have : k.val ≠ j.val := fun e => hj (Fin.ext e.symm)
    simp only [State.slot, hmir.slots]; simp [State.setSlot, this]
  have htreq : t.arbiter = s.arbiter := by
    rw [← ht]
    unfold State.placeDetail
    simp only []
    split
    · rw [makeStale_frame]; rfl
    · rfl
  have htrise : t.status.stale.Pairwise (· < ·) := by
    rw [← ht]
    unfold State.placeDetail
    simp only []
    split
    · exact makeStale_rising hrise
    · exact hrise
  have htm : t.mirrors = true := by
    have : t.startUp = s.startUp := hmir.startUp
    simpa [State.mirrors, State.unit, this] using hm
  have htw : t.memory.wf = true := by rw [hmir.memory]; exact hw
  have haddr : ∀ i, t.statusAddress i = s.statusAddress i := fun i => by
    rw [show t = _ from hmir]; rfl
  have hresult : resultWord (t.slot k).lastTaken outcome detail = w := by rw [htslot]
  have hcomplete : s.complete k outcome detail (some v) =
      if t.detailDue k then (t.placeResult k outcome detail true).offer .statusArea
      else (t.placeResult k outcome detail false).offer (.commandSlot k) := by
    unfold State.complete
    simp only [ht, Option.isSome_some, Bool.true_and]
  have hplaced (b : Bool) : t.placeResult k outcome detail b = t.setSlot k { s.slot k with
      busy := true, reading := none, command := none, result := some ⟨w, b⟩, detailValue := v } := by
    simp only [State.placeResult, htslot]
    rfl
  have hmirrored (b : Bool) (x : Block) : (s.setSlot k { s.slot k with
      busy := true, reading := none, command := none, result := some ⟨w, b⟩, detailValue := v }).Mirrored
      (r.note ((t.placeResult k outcome detail b).offer x)) := by
    rw [hplaced]
    refine State.Mirrored.trans ?_ ((offer_mirrored _ x).trans (note_mirrored r _))
    unfold State.Mirrored at hmir ⊢
    simp only [State.setSlot, htslots]
    rw [hmir]
    rfl
  have hnote (b : Bool) (x : Block) :
      (r.note ((t.placeResult k outcome detail b).offer x)).slot k =
        { s.slot k with busy := true, reading := none, command := none, result := some ⟨w, b⟩, detailValue := v } := by
    rw [note_slot, hplaced]
    simp only [State.slot, (offer_mirrored _ x).slots]
    simp [State.setSlot]
  have hreq (b : Bool) (x : Block) (hx : x ∉ s.arbiter.requests) :
      (r.note ((t.placeResult k outcome detail b).offer x)).arbiter.requests = s.arbiter.requests ++ [x] := by
    rw [note_arbiter, offer_requests, hplaced]
    have : (t.setSlot k { s.slot k with
      busy := true, reading := none, command := none, result := some ⟨w, b⟩, detailValue := v }).arbiter.requests =
        s.arbiter.requests := by rw [← htreq]; rfl
    rw [this, if_neg hx]
  have hfree (b : Bool) (x : Block) (hx : x.requester.place = 5) :
      (r.note ((t.placeResult k outcome detail b).offer x)).PathFree x 5 := by
    have hf := hmirrored b x
    refine ⟨by rw [hf.reader]; exact hr, by rw [hf.processor]; exact hp, fun y hy => ?_⟩
    rw [hreq b x (fun h => by have := hq x h; omega)] at hy
    rcases List.mem_append.mp hy with hy | hy
    · exact Or.inr (hq y hy)
    · exact Or.inl (by simpa using hy)
  rw [hcomplete]
  by_cases hdue : t.detailDue k = true
  · rw [if_pos hdue]
    have hf := hmirrored true .statusArea
    have hs := hnote true .statusArea
    have hstale : 208 + k.val ∈ (r.note ((t.placeResult k outcome detail true).offer .statusArea)).status.stale := by
      refine mem_note ?_
      have : 208 + k.val ∈ t.status.stale := by simpa [State.detailDue] using hdue
      rw [hplaced]
      unfold State.offer
      split <;> exact this
    have hrise' : (r.note ((t.placeResult k outcome detail true).offer .statusArea)).status.stale.Pairwise (· < ·) := by
      refine note_rising ?_
      rw [hplaced]
      unfold State.offer
      split <;> exact htrise
    have hq' := hreq true .statusArea (fun h => by have := hq _ h; simp [Block.requester, Requester.place] at this)
    have hfree' := hfree true .statusArea rfl
    generalize r.note ((t.placeResult k outcome detail true).offer .statusArea) = y at hf hs hstale hrise' hq' hfree' ⊢
    have hyother : ∀ j, j ≠ k → (y.slot j).result = none := fun j hj => by
      have : k.val ≠ j.val := fun e => hj (Fin.ext e.symm)
      have h := ho j hj
      simp only [State.slot] at h
      simp only [State.slot, hf.slots, State.setSlot]
      simpa [this] using h
    have hnodup : y.arbiter.requests.Nodup := by
      rw [hq']
      refine List.nodup_append.mpr ⟨hd, by simp, ?_⟩
      intro a ha b hb
      rw [List.mem_singleton] at hb
      rintro rfl
      have := hq _ ha
      rw [hb] at this
      simp [Block.requester, Requester.place] at this
    obtain ⟨u, h1, h2, h3⟩ := deliver_shown (s := y) (k := k) (w := w) (by rw [hs]) hyother hstale hrise'
      (by rw [hf.memory]; exact hw) hfree' hnodup
    have hya : ∀ i, y.statusAddress i = s.statusAddress i := fun i => by rw [show y = _ from hf]; rfl
    have hys : y.slotAddress k 6 = s.slotAddress k 6 := by rw [show y = _ from hf]; rfl
    have hyslots (x : CommandSlot) : y.slots.set k.val x = s.slots.set k.val x := by
      rw [hf.slots]; simp [State.setSlot]
    rw [hya, mirrorWord_detail, hs] at h2
    rw [hys, hs, hyslots] at h3
    refine ⟨u, ?_, h2, h3⟩
    refine State.StatusWrites.trans (s := y.setSlot k { y.slot k with result := some ⟨w, false⟩ }) ?_ h1
    refine State.Mirrored.statusWrites ?_
    rw [hs]
    unfold State.Mirrored at hf ⊢
    simp only [State.setSlot, hyslots]
    rw [hf]
    rfl
  · rw [if_neg hdue]
    have hf := hmirrored false (.commandSlot k)
    have hs := hnote false (.commandSlot k)
    have hfree' := hfree false (.commandSlot k) rfl
    generalize r.note ((t.placeResult k outcome detail false).offer (.commandSlot k)) = y at hf hs hfree' ⊢
    have hplain := deliver_plain (s := y) (k := k) (w := w) (by rw [hs]) hfree'
    have hys : y.slotAddress k 6 = s.slotAddress k 6 := by rw [show y = _ from hf]; rfl
    have hyslots (x : CommandSlot) : y.slots.set k.val x = s.slots.set k.val x := by
      rw [hf.slots]; simp [State.setSlot]
    rw [hs, hys, hyslots] at hplain
    refine ⟨y, hf.statusWrites, ?_, ?_⟩
    · have hv : t.mirrorWord (208 + k.val) = v := by rw [mirrorWord_detail, htslot]
      have hyt : y.memory = t.memory := hf.memory.trans hmir.memory.symm
      rw [hyt, ← hv, ← haddr]
      by_contra hne
      have hstale : 208 + k.val ∈ t.status.stale := by
        have hun : (s.setSlot k { s.slot k with detailValue := v }).unshown (208 + k.val) = true := by
          have hmw : t.mirrorWord (208 + k.val) =
              (s.setSlot k { s.slot k with detailValue := v }).mirrorWord (208 + k.val) := by
            rw [show t = _ from hmir]; rfl
          rw [hmir.memory, haddr, hmw] at hne
          simp only [State.unshown, bne_iff_ne]
          exact hne
        rw [← ht]
        unfold State.placeDetail
        simp only []
        rw [if_pos (by simpa [State.mirrors] using hm)]
        refine mem_makeStale (Or.inl ?_)
        simp only [mirroredWords, List.mem_filter, List.mem_map, List.mem_range]
        exact ⟨⟨207 + k.val, by omega, by omega⟩, hun⟩
      exact hdue (by simpa [State.detailDue] using hstale)
    · rw [hplain]
      rfl

end Sys2Proof.Machine
end

