-- ==== Sys2Proof/Laws/Commands.lean ====
section
/-! SUPPORT. Taking a command (R175 to R178): what a go-write does before the command's own rule, and what its completion
leaves. The statements about command rows are reached through these. -/

namespace Sys2Proof.Machine

variable {s : State} {g : GoWrite}

/-- A word with no wrong bit has the upset mask 0. -/
theorem Memory.upset_of_clean {m : Memory} {a : Nat} (h : m.health a = .clean) : m.upset a = 0 := by
  unfold Memory.health at h
  have hc : (List.range 39).countP (m.upset a).getLsbD = 0 := by
    rcases hn : (List.range 39).countP (m.upset a).getLsbD with _ | _ | n
    · rfl
    · rw [hn] at h; cases h
    · rw [hn] at h; cases h
  rw [List.countP_eq_zero] at hc
  apply BitVec.eq_of_getLsbD_eq
  intro i hi
  have := hc i (by simpa using hi)
  simpa using this

theorem ready_slotAddress (h : s.unit = .ready) (k : SlotId) (i : Nat) :
    s.slotAddress k i = s.regionBase .command + 32 * k.val + 4 * i := by
  simp [State.slotAddress, h]

theorem regionBase_aligned (k : RegionKind) : s.regionBase k % 4 = 0 := by
  unfold State.regionBase; split <;> omega

/-- Memory after the go word is written (R171). -/
def State.goMemory (s : State) (g : GoWrite) : Memory :=
  if g.enables = 0 then s.memory else s.memory.writeWord (s.slotAddress g.slot 7) (s.goWord g)

/-- The state with which a taken command reaches its own rule (R175, R176): the port has answered the go-write. -/
def State.taken (s : State) (g : GoWrite) : State :=
  { s with
    memory := s.goMemory g
    processor := s.processor.answered (.done none)
    arbiter := s.goArbiter g
    slots := s.slots.set g.slot.val
      { busy := true, lastTaken := goSequence (s.goWord g), reading := none
        command := some (s.commandRecord g.slot g.mode), result := none, detailValue := (s.slot g.slot).detailValue } }

/-- `u` with what taking the command of `g` has changed in `s`: memory, the slot, the port and the arbiter. -/
def State.onTaken (u s : State) (g : GoWrite) : State :=
  { u with
    memory := (s.taken g).memory, slots := (s.taken g).slots, processor := (s.taken g).processor
    arbiter := (s.taken g).arbiter }

theorem taken_word (h : s.memory.wf = true) : (s.taken g).memory.word (s.slotAddress g.slot 7) = s.goWord g := by
  simp only [State.taken, State.goMemory, State.goWord]
  split_ifs with he
  · simp [he]
  · exact Memory.word_writeWord_self _ _ h

theorem taken_word_other (a : Nat) (h : a + 4 ≤ s.slotAddress g.slot 7 ∨ s.slotAddress g.slot 7 + 4 ≤ a) :
    (s.taken g).memory.word a = s.memory.word a := by
  simp only [State.taken, State.goMemory]
  split_ifs
  · rfl
  · exact Memory.word_writeWord_other _ h

theorem taken_health_other (a : Nat) (h : a ≠ s.slotAddress g.slot 7) :
    (s.taken g).memory.health a = s.memory.health a := by
  simp only [State.taken, State.goMemory]
  split_ifs
  · rfl
  · exact Memory.health_writeWord_other _ h

/-- The go-write as the port holds it. -/
def State.goPort (s : State) (g : GoWrite) (taken : Bool) (held : Option SlotId) : ProcessorPort :=
  { words := [⟨s.slotAddress g.slot 7, g.mode, .write g.enables g.data⟩], taken := taken, held := held
    answers := s.processor.answers }

/-- The state when a go-write's word has been made and the six reads of its slot begin (R176): the port holds its answer, and
the slot's request is at the arbiter. -/
def State.reading (s : State) (g : GoWrite) : State :=
  { s with
    memory := s.goMemory g
    processor := s.goPort g false (some g.slot)
    arbiter := { s.goArbiter g with requests := [.commandSlot g.slot] }
    slots := s.slots.set g.slot.val
      { s.slot g.slot with busy := true, lastTaken := goSequence (s.goWord g), reading := some ⟨g.mode, []⟩ } }

theorem goAddress (hr : s.CommandReady g) : wordAddress (s.slotAddress g.slot 7) = s.slotAddress g.slot 7 := by
  rw [ready_slotAddress hr.ready, wordAddress]
  have := regionBase_aligned (s := s) .command
  omega

/-- The go-write's word is made, and takes the command (R171, R175, R176). -/
theorem performProcessor_go (hr : s.CommandReady g) {x : Arbiter} {b : Bool} (hx : x.requests = []) :
    State.performProcessor { s with arbiter := x, processor := s.goPort g b none }
      ⟨s.slotAddress g.slot 7, g.mode, .write g.enables g.data⟩ =
    { s.reading g with arbiter := { x with requests := [.commandSlot g.slot] } } := by
  have hadm := hr.admitted
  generalize hs' : ({ s with arbiter := x, processor := s.goPort g b none } : State) = s'
  have hjudge : s'.judge (s.slotAddress g.slot 7) (.processor g.mode) (.write g.enables g.data) =
      .ok (.commandWord g.slot 7) := by rw [← hs']; exact hadm
  have hclean : s'.memory.health (s.slotAddress g.slot 7) = .clean := by rw [← hs']; exact hr.clean
  have hword : s'.memory.word (s.slotAddress g.slot 7) = s.memory.word (s.slotAddress g.slot 7) := by rw [← hs']
  obtain ⟨hq0, hq1⟩ := hr.sequence
  have hport := portWrite_clean (s := s') g.enables g.data .processor (some g.mode) hclean
  have hwritten : (if g.enables = 0 then s' else s'.writeWord (s.slotAddress g.slot 7)
        (mergeBytes g.enables (s'.memory.word (s.slotAddress g.slot 7)) g.data)) = { s' with memory := s.goMemory g } := by
    unfold State.goMemory State.goWord
    split_ifs with he
    · rw [← hs']
    · rw [hword, ← hs']; rfl
  rw [hwritten] at hport
  have hgo : State.writtenWord { s' with memory := s.goMemory g } (s.slotAddress g.slot 7) g.enables =
      (s.goWord g, { s' with memory := s.goMemory g }) := by
    unfold State.writtenWord State.goMemory State.goWord
    split_ifs with he
    · have hc : ({ s' with memory := s.memory } : State).memory.health (s.slotAddress g.slot 7) = .clean := hr.clean
      simp only [State.standing, hc]
      simp [he]
    · simp only [Memory.word_writeWord_self _ _ hr.form]
  have hslot : s'.slot g.slot = s.slot g.slot := by rw [← hs']; rfl
  have hunit : s'.unit = .ready := by rw [← hs']; exact hr.ready
  have htake : State.goWordWritten { s' with memory := s.goMemory g } g.slot
      ⟨s.slotAddress g.slot 7, g.mode, .write g.enables g.data⟩ g.enables =
      { s.reading g with
        processor := s.goPort g b (some g.slot)
        arbiter := { x with requests := [.commandSlot g.slot] } } := by
    unfold State.goWordWritten
    rw [hgo]
    have h1 : State.slot { s' with memory := s.goMemory g } g.slot = s.slot g.slot := hslot
    simp only [h1, hq0, hq1, hr.free, false_or, Bool.false_eq_true, if_false]
    have hu : State.unit { s' with memory := s.goMemory g } = .ready := hunit
    unfold State.takeCommand
    simp only [hu, h1]
    unfold State.offer
    rw [← hs']
    simp [State.setSlot, State.reading, State.slot, State.goPort, hx]
  unfold State.performProcessor State.processorWrite
  simp only [hjudge, hport, State.processorWritten, if_true]
  rw [htake]
  rfl

/-- Up to the six reads, nothing that the Status Area mirrors has changed. -/
theorem reading_mirror (i : Nat) : (s.reading g).mirrorWord i = s.mirrorWord i := by
  have hslot (j : Nat) (hj : j < 8) :
      ((s.reading g).slots[j]'hj).detailValue = (s.slots[j]'hj).detailValue := by
    simp only [State.reading, State.slot]
    by_cases h : g.slot.val = j
    · subst h; simp
    · simp [h]
  unfold State.mirrorWord
  simp only [hslot]
  rfl

/-- A go-write in READY, at a path on which nothing waits: its word is made at once (R167, R175). -/
theorem makeWord_go (hr : s.CommandReady g) :
    s.makeWord (processorWord (s.slotAddress g.slot 7) g.mode (.write g.enables g.data)) = s.reading g := by
  obtain ⟨htaken, hheld⟩ := hr.sound.processor hr.turn
  unfold State.makeWord processorWord
  rw [goAddress hr]
  generalize hw : (⟨s.slotAddress g.slot 7, g.mode, .write g.enables g.data⟩ : ProcessorWord) = w
  generalize hv : ({ s with processor := s.goPort g false none } : State) = v
  have hport : v.processor = ⟨[w], false, none, s.processor.answers⟩ := by rw [← hv, ← hw]; rfl
  have hpresent : s.presentWord w = State.pumpProcessor 1 v := by
    unfold State.presentWord State.resumeProcessor
    simp only [hr.ready, hr.turn, htaken, hheld, List.nil_append, List.length_singleton]
    rw [← hv, ← hw]
    rfl
  have hunit : v.unit = .ready := by rw [← hv]; exact hr.ready
  have hm : v.mustWait w = false := by simp [State.mustWait, hunit]
  have hadm : v.judge w.address (.processor w.mode) w.access = .ok (.commandWord g.slot 7) := by
    rw [← hv, ← hw]; exact hr.admitted
  have hpump : ∀ n, State.pumpProcessor n (s.reading g) = s.reading g := fun n => by
    cases n <;> simp [State.pumpProcessor, State.reading, State.goPort]
  rw [hpresent, if_pos hr.turn, State.pumpProcessor]
  simp only [hport, hm, Option.isSome_none, Bool.or_self, Bool.false_eq_true, if_false]
  unfold State.takeProcessor
  simp only [hadm]
  have hmirror : ∀ i, v.mirrorWord i = (s.reading g).mirrorWord i := fun i => by
    rw [reading_mirror, ← hv]; rfl
  by_cases he : g.enables = 0
  · have hn : needsNoOperation w.access = true := by rw [← hw]; simp [needsNoOperation, he]
    simp only [hn, if_true]
    have hperf := performProcessor_go hr (x := s.arbiter) (b := false) hr.path.blocks
    have harb : ({ s.arbiter with requests := [Block.commandSlot g.slot] } : Arbiter) = (s.reading g).arbiter := by
      simp [State.reading, State.goArbiter, he]
    rw [hw, harb, hv] at hperf
    rw [hperf, note_same hmirror]
    rfl
  · have hn : needsNoOperation w.access = false := by rw [← hw]; simpa [needsNoOperation] using he
    simp only [hn, Bool.false_eq_true, if_false]
    generalize hz : ({ v with processor :=
      ⟨v.processor.words, true, v.processor.held, v.processor.answers⟩ } : State) = z
    rw [note_same (s := v) (t := z) (fun i => by rw [← hz]; rfl), State.pumpProcessor]
    rw [hport] at hz
    have hb : z.arbiter.requests = [] := by rw [← hz, ← hv]; exact hr.path.blocks
    have hrd : z.reader.taken = false := by rw [← hz, ← hv]; exact hr.path.reader
    have hpr : z.processor.taken = true := by rw [← hz]
    have hch : z.choice = some .processor := by
      unfold State.choice
      by_cases hl : 4 ≤ z.arbiter.losses
      · rw [if_pos ⟨hpr, hl⟩]
      · rw [if_neg (fun h => hl h.2)]
        simp [requesters, List.find?, State.waits, hb, hrd, hpr]
    have harb : z.arbitrate = s.reading g := by
      have hperf := performProcessor_go hr (x := { s.arbiter with losses := 0 }) (b := true) hr.path.blocks
      have harb : ({ s.arbiter with losses := 0, requests := [Block.commandSlot g.slot] } : Arbiter) =
          (s.reading g).arbiter := by
        simp only [State.reading, State.goArbiter, if_neg he]
      unfold State.arbitrate
      rw [hch]
      have hc : z.countLoss .processor =
          { s with arbiter := { s.arbiter with losses := 0 }, processor := s.goPort g true none } := by
        rw [← hz, ← hv, State.countLoss, if_pos rfl, ← hw]; rfl
      simp only [hc]
      unfold State.serveProcessor
      have hwords : (s.goPort g true none).words = [w] := by rw [← hw]; rfl
      simp only [hwords]
      rw [← hw, hperf]
      rw [show ({ ({ s.arbiter with losses := 0 } : Arbiter) with requests := [Block.commandSlot g.slot] } : Arbiter) =
        (s.reading g).arbiter from harb]
      change State.resumeProcessor (State.note _ (s.reading g)) = s.reading g
      exact (congrArg State.resumeProcessor (note_same fun i => (reading_mirror (s := s) (g := g) i).symm)).trans (hpump _)
    have h5 : State.driveProcessor 5 z = State.driveProcessor 4 z.arbitrate := by
      rw [State.driveProcessor, if_pos hpr]
    rw [h5, harb, State.driveProcessor, if_neg (by simp [State.reading, State.goPort])]

/-- A go-write in READY: the command is taken, the port answers, and the command's own rule acts (R175 to R177). -/
theorem goWrite_ready (hr : s.CommandReady g) (judge : Handler) :
    s.goWrite g judge = (s.note (judge (s.taken g) g.slot (s.commandRecord g.slot g.mode))).resumeProcessor := by
  obtain ⟨htaken, hheld⟩ := hr.sound.processor hr.turn
  obtain ⟨-, hresult⟩ := hr.sound.slots g.slot hr.free
  have key (i : Nat) (hi : i < 6) : s.slotAddress g.slot i + 4 ≤ s.slotAddress g.slot 7 := by
    rw [ready_slotAddress hr.ready, ready_slotAddress hr.ready]; omega
  have hwords : wordRun (s.slotAddress g.slot 0) 6 =
      [s.slotAddress g.slot 0, s.slotAddress g.slot 1, s.slotAddress g.slot 2, s.slotAddress g.slot 3,
       s.slotAddress g.slot 4, s.slotAddress g.slot 5] := by
    simp [wordRun, List.range, List.range.loop, ready_slotAddress hr.ready, Nat.add_assoc]
  generalize hu : s.reading g = u
  have hmem : u.memory = (s.taken g).memory := by rw [← hu]; rfl
  have hclean : ∀ a ∈ wordRun (s.slotAddress g.slot 0) 6, u.memory.health a = .clean := by
    intro a ha
    have hi : ∃ i : Fin 8, i.val < 6 ∧ a = s.slotAddress g.slot i.val := by
      rw [hwords] at ha
      simp only [List.mem_cons, List.not_mem_nil, or_false] at ha
      rcases ha with rfl | rfl | rfl | rfl | rfl | rfl
      exacts [⟨0, by decide, rfl⟩, ⟨1, by decide, rfl⟩, ⟨2, by decide, rfl⟩, ⟨3, by decide, rfl⟩,
        ⟨4, by decide, rfl⟩, ⟨5, by decide, rfl⟩]
    obtain ⟨i, hi, rfl⟩ := hi
    rw [hmem, taken_health_other _ (by have := key i.val hi; omega)]
    exact hr.words i hi
  have hreads : u.slotReads g.slot = Reads.each (.commandSlot g.slot) [] (wordRun (s.slotAddress g.slot 0) 6) := by
    rw [← hu]; rfl
  have hperf : u.perform (Reads.each (.commandSlot g.slot) [] (wordRun (s.slotAddress g.slot 0) 6)) =
      ((wordRun (s.slotAddress g.slot 0) 6).map (fun a => some (u.memory.word a)), u.retract (.commandSlot g.slot)) := by
    have h := perform_own (s := u) (x := .commandSlot g.slot) (a := s.slotAddress g.slot 0)
      (next := fun w => Reads.each (.commandSlot g.slot) [w]
        [s.slotAddress g.slot 1, s.slotAddress g.slot 2, s.slotAddress g.slot 3, s.slotAddress g.slot 4,
         s.slotAddress g.slot 5]) (by rw [← hu]; exact hr.path.reader) (by rw [← hu]; rfl) (by rw [← hu]; rfl)
    have h2 := readEach_clean (s := u.retract (.commandSlot g.slot)) (.commandSlot g.slot) [] hclean
    rw [hwords] at h2 ⊢
    exact h.trans h2
  have hword (i : Nat) (hi : i < 6) : u.memory.word (s.slotAddress g.slot i) = s.memory.word (s.slotAddress g.slot i) := by
    rw [hmem, taken_word_other _ (Or.inl (key i hi))]
  unfold State.goWrite
  rw [if_neg (by simp [hr.ready])]
  have hheldg : u.processor.held = some g.slot := by rw [← hu]; rfl
  simp only [makeWord_go hr, hu, hr.turn, hheldg, and_self, if_true, hreads, hperf]
  rw [hwords]
  simp only [List.map_cons, List.map_nil, hword 0 (by omega), hword 1 (by omega), hword 2 (by omega),
    hword 3 (by omega), hword 4 (by omega), hword 5 (by omega)]
  have hheld' : (u.retract (.commandSlot g.slot)).processor.held = some g.slot := hheldg
  unfold State.finishSlotReads State.judgeSlot
  simp only [hheld', if_true]
  have hslot : ((u.retract (.commandSlot g.slot)).answer (.done none)).slot g.slot =
      { s.slot g.slot with busy := true, lastTaken := goSequence (s.goWord g), reading := some ⟨g.mode, []⟩ } := by
    rw [← hu]; simp [State.slot, State.answer, State.retract, State.reading]
  have htaken : ((u.retract (.commandSlot g.slot)).answer (.done none)).setSlot g.slot
      { ((u.retract (.commandSlot g.slot)).answer (.done none)).slot g.slot with
        reading := none, command := some (s.commandRecord g.slot g.mode) } = s.taken g := by
    rw [hslot, ← hu]
    simp only [State.setSlot, State.answer, State.retract, State.reading, State.taken, State.goPort,
      ProcessorPort.answered, Vector.set_set, hresult, hr.turn, htaken, hheld, List.tail_cons, List.erase_cons_head,
      State.goArbiter, hr.path.blocks]
  rw [← htaken]
  refine congrArg State.resumeProcessor (note_congr _ fun i => ?_)
  have h : (u.retract (.commandSlot g.slot)).mirrorWord i = u.mirrorWord i := rfl
  exact h.trans (by rw [← hu]; exact reading_mirror i)

/-- A port without a word has nothing to go on with. -/
theorem resumeProcessor_empty (h : s.processor.words = []) : s.resumeProcessor = s := by
  unfold State.resumeProcessor
  rw [h]
  rfl

/-- Where a command's own rule leaves the ports alone and makes a result word due, that is delivered at the end of the row
(R178); `y` is the state before. -/
theorem close_go (hr : s.CommandReady g) {judge : Handler} {x : State}
    (h : judge (s.taken g) g.slot (s.commandRecord g.slot g.mode) = x) (hp : x.processor = (s.taken g).processor) :
    s.close (s.goWrite g judge) = s.settle (s.deliverAll (s.note x)) := by
  rw [goWrite_ready hr, h, resumeProcessor_empty]
  · rfl
  · rw [note_processor, hp]; exact hr.turn

/-- A command whose own rule ends in completion without a Detail Value leaves what `State.Completes` says. -/
theorem completes_of (hr : s.CommandReady g) {judge : Handler} {u : State} {outcome : CommandOutcome} {detail : Detail}
    (hc : u.cfg = s.cfg) (hs : u.startUp = s.startUp) (hrd : u.reader = s.reader)
    (h : judge (s.taken g) g.slot (s.commandRecord g.slot g.mode) =
      (u.onTaken s g).complete g.slot outcome detail) :
    s.Completes g outcome detail none u (s.close (s.goWrite g judge)) := by
  have hpl : (u.onTaken s g).complete g.slot outcome detail =
      ((u.onTaken s g).placeResult g.slot outcome detail false).offer (.commandSlot g.slot) := complete_none _ _ _
  generalize hx : (u.onTaken s g).complete g.slot outcome detail = x at h
  have hslot : (u.onTaken s g).slot g.slot =
      ⟨true, goSequence (s.goWord g), none, some (s.commandRecord g.slot g.mode), none, (s.slot g.slot).detailValue⟩ := by
    simp [State.slot, State.onTaken, State.taken]
  have hxe : x = { u.onTaken s g with
      slots := (u.onTaken s g).slots.set g.slot.val
        ⟨true, goSequence (s.goWord g), none, none, some ⟨resultWord (goSequence (s.goWord g)) outcome detail, false⟩,
         (s.slot g.slot).detailValue⟩
      arbiter := { s.goArbiter g with requests := [.commandSlot g.slot] } } := by
    rw [← hx, hpl]
    simp only [State.placeResult, hslot]
    simp [State.offer, State.setSlot, State.onTaken, State.taken, State.goArbiter, hr.path.blocks]
  rw [close_go hr h (by rw [hxe]; rfl)]
  have hyslot : (s.note x).slot g.slot =
      ⟨true, goSequence (s.goWord g), none, none, some ⟨resultWord (goSequence (s.goWord g)) outcome detail, false⟩,
         (s.slot g.slot).detailValue⟩ := by
    rw [note_slot, hxe]; simp [State.slot]
  have hyother : ∀ j, j ≠ g.slot → (s.note x).slot j = s.slot j := fun j hj => by
    have : g.slot.val ≠ j.val := fun e => hj (Fin.ext e.symm)
    rw [note_slot, hxe]; simp [State.slot, State.onTaken, State.taken, this]
  have hfree : (s.note x).PathFree (.commandSlot g.slot) 5 := by
    refine ⟨?_, ?_, fun y hy => Or.inl ?_⟩
    · rw [note_reader, hxe]; simp only [State.onTaken, hrd]; exact hr.path.reader
    · rw [note_processor, hxe]; exact hr.path.processor
    · rw [note_arbiter, hxe] at hy; simpa using hy
  have hdel := deliver_plain (by rw [hyslot]) hfree
  rw [deliverAll_one (k := g.slot) (by rw [hyslot]; rfl) (hr.written g.slot)
    (fun j hj h => by rw [hyother j hj] at h; exact h) (by rw [hdel]; simp [State.slot]), hdel]
  have haddr (i : Nat) : (s.note x).slotAddress g.slot i = s.slotAddress g.slot i := by
    rw [note_frame, hxe]
    simp only [State.onTaken, State.slotAddress, State.unit, State.regionBase, State.region, hc, hs]
    rfl
  rw [haddr, hyslot]
  have hm0 : x.Mirrored (s.note x) := note_mirrored s x
  generalize s.note x = y at hm0 hyslot hyother hfree hdel haddr
  generalize hz : ({ y with
      memory := y.memory.writeWord (s.slotAddress g.slot 6) (resultWord (goSequence (s.goWord g)) outcome detail)
      slots := y.slots.set g.slot.val _, arbiter := _ } : State) = z
  have hm := settle_mirrored s z
  generalize s.settle z = t at hm
  have h67 : s.slotAddress g.slot 7 = s.slotAddress g.slot 6 + 4 := by
    rw [ready_slotAddress hr.ready, ready_slotAddress hr.ready]
  have hymem : y.memory = (s.taken g).memory := by rw [hm0.memory, hxe]; rfl
  have hmem : t.memory = (s.taken g).memory.writeWord (s.slotAddress g.slot 6)
      (resultWord (goSequence (s.goWord g)) outcome detail) := by rw [hm.memory, ← hz, ← hymem]
  have hwf : (s.taken g).memory.wf = true := by
    simp only [State.taken, State.goMemory]; split_ifs
    · exact hr.form
    · exact Memory.wf_writeWord _ _ hr.form
  have hzslot : z.slot g.slot = ⟨false, goSequence (s.goWord g), none, none, none, (s.slot g.slot).detailValue⟩ := by
    rw [← hz]; simp [State.slot]
  have hzother : ∀ j, j ≠ g.slot → z.slot j = s.slot j := fun j hj => by
    have : g.slot.val ≠ j.val := fun e => hj (Fin.ext e.symm)
    rw [← hyother j hj, ← hz]; simp [State.slot, this]
  have htslot (j : SlotId) : t.slot j = z.slot j := by simp only [State.slot, hm.slots]
  have hproc : t.processor = s.processor.answered (.done none) := by
    rw [hm.processor, ← hz]
    change y.processor = _
    rw [hm0.processor, hxe]; rfl
  constructor
  · rw [hproc, hm.memory, hm.slots]
    refine State.Mirrored.trans ?_ hm
    unfold State.Mirrored at hm0 ⊢
    generalize y.status.stale = y1, y.status.changeCount = y2, y.status.due = y3, y.arbiter.requests = y4 at hm0
    subst hm0
    subst hz
    rw [hxe]
    rfl
  · exact hproc
  · rw [htslot, hzslot]; rfl
  · exact fun k hk => by rw [htslot, hzother k hk]
  · rw [hmem, Memory.word_writeWord_other _ (by omega)]; exact taken_word hr.form
  · rw [hmem, Memory.word_writeWord_self _ _ hwf]
  · intro v hv; cases hv
  · intro b hb _
    rw [hmem, Memory.byte_writeWord_other _ (by omega)]
    simp only [State.taken, State.goMemory]; split_ifs
    · rfl
    · exact Memory.byte_writeWord_other _ (by omega)
  · intro a ha _
    rw [hmem, Memory.upset_writeWord_other _ ha]
    simp only [State.taken, State.goMemory]; split_ifs
    · rfl
    · by_cases h7 : a = s.slotAddress g.slot 7
      · subst h7
        rw [Memory.upset_writeWord_self _ _ hr.form]
        exact (Memory.upset_of_clean hr.clean).symm
      · exact Memory.upset_writeWord_other _ h7

/-- A command whose own rule ends in completion with a Detail Value leaves what `State.Completes` says (R178). -/
theorem completes_of_value (hr : s.CommandReady g) (hap : s.StatusApart) {judge : Handler} {u : State}
    {outcome : CommandOutcome} {detail : Detail} {v : Word} (hc : u.cfg = s.cfg) (hs : u.startUp = s.startUp)
    (hrd : u.reader = s.reader) (hst : u.status.stale = s.status.stale)
    (h : judge (s.taken g) g.slot (s.commandRecord g.slot g.mode) =
      (u.onTaken s g).complete g.slot outcome detail (some v)) :
    s.Completes g outcome detail (some v) u (s.close (s.goWrite g judge)) := by
  generalize hT : u.onTaken s g = T at h
  have hTslot : T.slot g.slot =
      ⟨true, goSequence (s.goWord g), none, some (s.commandRecord g.slot g.mode), none, (s.slot g.slot).detailValue⟩ := by
    rw [← hT]; simp [State.slot, State.onTaken, State.taken]
  have hTother : ∀ j, j ≠ g.slot → T.slot j = s.slot j := fun j hj => by
    have : g.slot.val ≠ j.val := fun e => hj (Fin.ext e.symm)
    rw [← hT]; simp [State.slot, State.onTaken, State.taken, this]
  have hTslots (x : CommandSlot) : T.slots.set g.slot.val x = s.slots.set g.slot.val x := by
    rw [← hT]; simp [State.onTaken, State.taken]
  have hTunit : T.unit = .ready := by
    have := hr.ready
    rw [← hT]; simpa only [State.unit, State.onTaken, hs] using this
  have hwf : T.memory.wf = true := by
    rw [← hT]; simp only [State.onTaken, State.taken, State.goMemory]; split_ifs
    · exact hr.form
    · exact Memory.wf_writeWord _ _ hr.form
  have hreq : T.arbiter.requests = [] := by rw [← hT]; exact hr.path.blocks
  have hsa (i : Nat) : T.statusAddress i = s.statusAddress i := by
    rw [← hT]; simp only [State.statusAddress, State.regionBase, State.region, State.onTaken, hc]
  have haddr (i : Nat) : T.slotAddress g.slot i = s.slotAddress g.slot i := by
    rw [← hT]
    simp only [State.onTaken, State.slotAddress, State.unit, State.regionBase, State.region, hc, hs]
    rfl
  obtain ⟨z, hw, hshown, hdel⟩ := deliver_value (s := T) (k := g.slot) s outcome detail v
    (by rw [← hT]; simp only [State.onTaken, hrd]; exact hr.path.reader) (by rw [← hT]; exact hr.path.processor)
    (fun y hy => by rw [hreq] at hy; cases hy) (by rw [hreq]; exact List.nodup_nil)
    (by rw [← hT]; simp only [State.onTaken, hst]; exact hr.sound.stale)
    (fun j hj => by rw [hTother j hj]; exact hr.written j) hwf (by simp [State.mirrors, hTunit])
  have hcs := complete_slots (s := T) g.slot outcome detail (some v)
  have hproc : (T.complete g.slot outcome detail (some v)).processor = (s.taken g).processor := by
    have hp (x : State) (b : Bool) (y : Block) :
        ((x.placeResult g.slot outcome detail b).offer y).processor = x.processor := by
      rw [(offer_mirrored _ y).processor]; rfl
    have hd : (T.placeDetail g.slot v).processor = T.processor := by
      unfold State.placeDetail
      simp only []
      split
      · rw [makeStale_frame]; rfl
      · rfl
    unfold State.complete
    simp only []
    split <;> rw [hp, hd, ← hT] <;> rfl
  rw [close_go hr h hproc]
  rw [hTslot, hTslots, haddr] at hdel
  rw [hTslot] at hw
  rw [hsa] at hshown
  have hdone : ((State.deliver (s.note (T.complete g.slot outcome detail (some v))) g.slot).slot g.slot).result = none := by
    simp only [State.slot, hdel.slots]; simp
  rw [deliverAll_one (k := g.slot) (by rw [note_slot]; exact hcs.1) (hr.written g.slot)
    (fun j hj h => by rw [note_slot, hcs.2 j hj, hTother j hj] at h; exact h) hdone]
  generalize State.deliver (s.note (T.complete g.slot outcome detail (some v))) g.slot = d at hdel
  have hm := hdel.trans (settle_mirrored s d)
  generalize s.settle d = t at hm
  have hbytes := hw.bytes
  have hups := hw.upsets
  have hf := hw.frame
  have hzwf := hw.form hwf
  have hTm : T.memory = (s.taken g).memory := by rw [← hT]; rfl
  have hsame (i : Nat) : (T.setSlot g.slot
      ⟨true, goSequence (s.goWord g), none, none, some ⟨resultWord (goSequence (s.goWord g)) outcome detail, false⟩, v⟩
      ).statusAddress i = s.statusAddress i := hsa i
  simp only [hsame] at hbytes hups
  have h6 := ready_slotAddress hr.ready g.slot 6
  have h7 := ready_slotAddress hr.ready g.slot 7
  have hk := g.slot.isLt
  have hapart : ∀ i, i ≤ 209 + g.slot.val →
      s.statusAddress i + 8 ≤ s.slotAddress g.slot 6 ∨ s.slotAddress g.slot 6 + 8 ≤ s.statusAddress 0 := by
    intro i hi
    rcases hap with hap | hap <;> simp only [State.statusAddress] <;> omega
  have hend := hapart (209 + g.slot.val) (by omega)
  have hmem : t.memory = z.memory.writeWord (s.slotAddress g.slot 6)
      (resultWord (goSequence (s.goWord g)) outcome detail) := hm.memory
  have hslots : t.slots = _ := hm.slots
  have hprocessor : t.processor = s.processor.answered (.done none) := by
    rw [hm.processor]
    change z.processor = _
    rw [hf.processor, ← hT]; rfl
  constructor
  · rw [hprocessor, hmem, hslots]
    refine State.Mirrored.trans ?_ hm
    unfold State.Mirrored at hf ⊢
    generalize z.memory = z0, z.status.stale = z1, z.status.changeCount = z2, z.status.due = z3,
      z.arbiter.requests = z4 at hf
    subst hf hT
    rfl
  · exact hprocessor
  · simp only [State.slot]; simp only [hslots]; simp
  · intro k hk
    have hne : g.slot.val ≠ k.val := fun e => hk (Fin.ext e.symm)
    simp only [State.slot]; simp only [hslots]; simp [hne]
  · rw [hmem, Memory.word_writeWord_other _ (by omega)]
    have := taken_word (g := g) hr.form
    rw [← this, ← hTm]
    simp only [Memory.word]
    rw [hbytes _ (by omega), hbytes _ (by omega), hbytes _ (by omega), hbytes _ (by omega)]
    rfl
  · rw [hmem, Memory.word_writeWord_self _ _ hzwf]
  · intro v' hv'
    cases hv'
    rw [hmem, Memory.word_writeWord_other _ (by
      simp only [State.statusAddress] at *; omega)]
    exact hshown
  · intro b hb hb'
    rw [hmem, Memory.byte_writeWord_other _ (by omega), hbytes b (by simpa using hb')]
    change T.memory.byte b = _
    rw [hTm]
    simp only [State.taken, State.goMemory]; split_ifs
    · rfl
    · exact Memory.byte_writeWord_other _ (by omega)
  · intro a ha ha'
    rw [hmem, Memory.upset_writeWord_other _ ha, hups a (by simpa using ha')]
    change T.memory.upset a = _
    rw [hTm]
    simp only [State.taken, State.goMemory]; split_ifs
    · rfl
    · by_cases h7 : a = s.slotAddress g.slot 7
      · subst h7
        rw [Memory.upset_writeWord_self _ _ hr.form]
        exact (Memory.upset_of_clean hr.clean).symm
      · exact Memory.upset_writeWord_other _ h7

/-- A command whose own rule leaves its slot busy leaves what `State.Takes` says. -/
theorem takes_of (hr : s.CommandReady g) {judge : Handler} {u : State}
    (h : judge (s.taken g) g.slot (s.commandRecord g.slot g.mode) =
      u.onTaken s g) :
    s.Takes g u (s.close (s.goWrite g judge)) := by
  rw [close_go hr h rfl]
  have hslots : (s.note (u.onTaken s g)).slots = (s.taken g).slots := by rw [note_slots]; rfl
  have hnone : ∀ j, ((s.note (u.onTaken s g)).slot j).result = none := fun j => by
    by_cases hj : j = g.slot
    · subst hj; simp only [State.slot, hslots]; simp [State.taken]
    · have : g.slot.val ≠ j.val := fun e => hj (Fin.ext e.symm)
      have h := hr.written j
      simp only [State.slot] at h
      simp only [State.slot, hslots]; simp [State.taken, this, h]
  rw [deliverAll_none (fun j h => by rw [hnone j] at h; cases h)]
  have hm := (note_mirrored s (u.onTaken s g)).trans (settle_mirrored s (s.note (u.onTaken s g)))
  generalize s.settle _ = t at hm
  have hmem : t.memory = (s.taken g).memory := by rw [hm.memory]; rfl
  have hslots : t.slots = (s.taken g).slots := by rw [hm.slots]; rfl
  constructor
  · have hp := hm.processor
    rw [hmem, hslots, hp]
    exact hm
  · rw [hm.processor]; rfl
  · simp only [State.slot]; simp only [hslots]; simp [State.taken, State.slot]
  · intro k hk
    have hne : g.slot.val ≠ k.val := fun e => hk (Fin.ext e.symm)
    simp only [State.slot]; simp only [hslots]; simp [State.taken, hne]
  · rw [hmem]; exact taken_word hr.form
  · intro b hb
    rw [hmem]; simp only [State.taken, State.goMemory]; split_ifs
    · rfl
    · exact Memory.byte_writeWord_other _ (by omega)
  · intro a
    rw [hmem]; simp only [State.taken, State.goMemory]; split_ifs
    · rfl
    · by_cases h7 : a = s.slotAddress g.slot 7
      · subst h7
        rw [Memory.upset_writeWord_self _ _ hr.form]
        exact (Memory.upset_of_clean hr.clean).symm
      · exact Memory.upset_writeWord_other _ h7

/-! ### The rows of commands -/

/-- A row whose Code stands in memory reaches its own rule (R177). -/
theorem ownJudge_own {own : CommandCode} {f : Handler} {k : SlotId} {r : CommandRecord}
    (h : CommandCode.ofWord r.code = some own) (ha : own.needsMaint = true → r.authority = .maint) :
    ownJudge own f s k r = f s k r := by
  unfold ownJudge
  rw [if_pos h, if_neg]
  rintro ⟨h1, h2⟩
  rw [ha h1] at h2; cases h2

/-- A MAINT command under SERVICE authority is refused (R177). -/
theorem ownJudge_refused {own : CommandCode} {f : Handler} {k : SlotId} {r : CommandRecord}
    (h : CommandCode.ofWord r.code = some own) (ha : own.needsMaint = true) (hs : r.authority = .service) :
    ownJudge own f s k r = s.complete k .refusedAuthority := by
  unfold ownJudge
  rw [if_pos h, if_pos ⟨ha, hs⟩]

theorem namedLane_of_names {target : Word} {n : Lane} (h : s.Names target n) : s.namedLane target = some n := by
  obtain ⟨h1, h2⟩ := h
  have hlt : target.toNat < 4 := by rw [h1]; exact n.isLt
  have he : (⟨target.toNat, hlt⟩ : Lane) = n := Fin.ext h1
  simp [State.namedLane, hlt, he, h2]

theorem namedLane_of_not_names {target : Word} (h : ∀ n, ¬ s.Names target n) : s.namedLane target = none := by
  unfold State.namedLane
  split
  · rename_i hlt
    rw [if_neg]
    intro hp
    exact h ⟨target.toNat, hlt⟩ ⟨rfl, hp⟩
  · rfl

end Sys2Proof.Machine
end

