-- ==== Sys2Proof/Laws/Ports.lean ====
section
/-! SUPPORT. The ports: the choice of a modem, the end of a grant, and a word presented and answered, each said once (R13 to
R15, R159, R160). -/

namespace Sys2Proof.Machine

variable {s t : State} {n : Lane}

/-- The choice of R13 in READY, without an owner. -/
theorem chooseModem_ready (hr : s.unit = .ready) (ho : s.reader.owner = none) :
    s.chooseModem = { s with reader := s.reader.chosen s.cfg.present } := by
  have h4 : s.reader.last + 4 = s.reader.last := add_zero s.reader.last
  unfold State.chooseModem ReaderPort.chosen State.chosenModem
  rw [if_pos ⟨hr, ho⟩, h4,
    show (fun n => s.cfg.present.get n && s.reader.requests.get n && !s.reader.barred.get n) = s.eligible from rfl]
  cases List.find? s.eligible [s.reader.last + 1, s.reader.last + 2, s.reader.last + 3, s.reader.last] <;> rfl

/-- The end of a grant in READY (R14, R15). -/
theorem endGrant_ready (hr : s.unit = .ready) : s.endGrant = { s with reader := s.reader.ended s.cfg.present } :=
  chooseModem_ready (s := { s with reader := { s.reader with owner := none, holdTimer := false, ending := false, left := 0 } })
    hr rfl

/-- A port at which no word is left takes none; its owner's grant ends where the request was dropped during the access that
is now whole (R14, R160). -/
theorem resumeReader_empty (hr : s.unit = .ready) (hw : s.reader.words = []) :
    s.resumeReader = { s with reader :=
      if s.reader.ending = true ∧ s.reader.left = 0 then s.reader.ended s.cfg.present else s.reader } := by
  have hpump : s.resumeReader = s.endIfDropped := by
    unfold State.resumeReader; rw [hw]; rfl
  rw [hpump]
  unfold State.endIfDropped ReaderPort.busy
  rw [hw]
  by_cases hd : s.reader.ending = true ∧ s.reader.left = 0
  · rw [if_pos hd]
    simp only [hd.1, hd.2, bne_self_eq_false, List.any_nil, Bool.or_self, Bool.not_false, Bool.and_true, if_true]
    exact endGrant_ready hr
  · rw [if_neg hd, if_neg]
    intro h
    simp only [List.any_nil, Bool.or_false, Bool.and_eq_true, Bool.not_eq_true', bne_eq_false_iff_eq] at h
    exact hd h

/-- The port's one word is answered: the answer is signalled, and the grant ends with the last word of an access during which
the request was dropped (R14, R160). -/
theorem answerReader_ends {u : State} {a : Answer} (hr : u.unit = .ready) (hw : u.reader.words.tail = []) :
    let p : ReaderPort := { u.reader with words := [], taken := false }
    ({ u with reader := p.answering u.reader.left (.answer n a) u.cfg.present }).Mirrored
      (s.note (u.answerReader n a)).resumeReader := by
  intro p
  have hm := note_mirrored s (u.answerReader n a)
  generalize s.note (u.answerReader n a) = t at hm
  have hm' := hm
  unfold State.Mirrored at hm'
  have hcfg : t.cfg = u.cfg := (congrArg State.cfg hm' :)
  have hread : t.reader = { u.reader with
      words := [], taken := false, signals := u.reader.signals ++ [.answer n a] } := by
    have : t.reader = (u.answerReader n a).reader := (congrArg State.reader hm' :)
    rw [this]; simp [State.answerReader, State.signal, hw]
  have hunit : t.unit = .ready := by
    have : t.unit = (u.answerReader n a).unit := (congrArg State.unit hm' :)
    rw [this]; exact hr
  rw [resumeReader_empty hunit (by rw [hread]), hread, hcfg]
  unfold State.Mirrored at hm ⊢
  generalize t.status.stale = t1, t.status.changeCount = t2, t.status.due = t3, t.arbiter.requests = t4 at hm
  subst hm
  unfold ReaderPort.answering
  by_cases hd : u.reader.ending = true ∧ u.reader.left = 0 <;> simp [p, hd, State.answerReader, State.signal]

/-- The modem whose turn it is presents a word that the Region Map admits: it waits for the Memory Arbiter (R13, R14, R160,
R166). -/
theorem presentReader_waits (h : s.ReaderTurn n) {left : Fin 4} {a : Nat} {x : Access} {area : Area}
    (hj : s.judge a (.reader n) x = .ok area) (hn : needsNoOperation x = false) :
    s.presentReader left ⟨n, a, x⟩ =
      { s with reader := { s.reader with words := [⟨n, a, x⟩], taken := true, left := left } } := by
  have htaken := h.sound.reader h.turn
  unfold State.presentReader
  rw [if_pos ⟨h.owner, h.kept⟩, h.turn, List.nil_append]
  generalize hz : ({ s with reader := { s.reader with left := left, words := [⟨n, a, x⟩] } } : State) = z
  have hw : z.reader.words = [⟨n, a, x⟩] := by rw [← hz]
  have ht : z.reader.taken = false := by rw [← hz]; exact htaken
  have hj' : z.judge a (.reader n) x = .ok area := by rw [← hz]; exact hj
  have htake : z.takeReader ⟨n, a, x⟩ = { z with reader := { z.reader with taken := true } } := by
    unfold State.takeReader
    simp only [hj', hn, Bool.false_eq_true, if_false]
  have hpump : z.pumpReader 1 = { z with reader := { z.reader with taken := true } } := by
    unfold State.pumpReader
    simp only [hw, ht, htake, Bool.false_eq_true, if_false]
    exact note_same (fun i => rfl)
  unfold State.resumeReader
  rw [hw, List.length_singleton, hpump, ← hz]
  unfold State.endIfDropped ReaderPort.busy
  simp [h.owner]

/-- The same of a word that the map refuses: it is answered at once, and its fault is recorded (R160, R165, R172). -/
theorem presentReader_refused (h : s.ReaderTurn n) (hr : s.unit = .ready) {left : Fin 4} {a : Nat} {x : Access}
    {f : PathFault} (hj : s.judge a (.reader n) x = .error f) :
    ({ s.faulted f (.reader n) (some a) (some (accessDirection x)) none with
        reader := s.reader.answering left (.answer n (failedAnswer x)) s.cfg.present }).Mirrored
      (s.presentReader left ⟨n, a, x⟩) := by
  have htaken := h.sound.reader h.turn
  unfold State.presentReader
  rw [if_pos ⟨h.owner, h.kept⟩, h.turn, List.nil_append]
  generalize hz : ({ s with reader := { s.reader with left := left, words := [⟨n, a, x⟩] } } : State) = z
  have hw : z.reader.words = [⟨n, a, x⟩] := by rw [← hz]
  have ht : z.reader.taken = false := by rw [← hz]; exact htaken
  have hu : z.unit = .ready := by rw [← hz]; exact hr
  have hj' : z.judge a (.reader n) x = .error f := by rw [← hz]; exact hj
  generalize hv : z.reportFault f (.reader n) (some a) (some (accessDirection x)) none = v
  have hfault : v = z.faulted f (.reader n) (some a) (some (accessDirection x)) none := by
    rw [← hv, reportFault_eq _ _ _ _ _ (by rw [hu]; decide)]; rfl
  have hvr : v.reader = z.reader := by rw [hfault]; rfl
  have htake : z.takeReader ⟨n, a, x⟩ = v.answerReader n (failedAnswer x) := by
    unfold State.takeReader
    simp only [hj', hv]
  have hpump : z.pumpReader 1 = z.note (v.answerReader n (failedAnswer x)) := by
    unfold State.pumpReader
    simp only [hw, ht, htake, Bool.false_eq_true, if_false]
    rfl
  have hleft : (z.note (v.answerReader n (failedAnswer x))).reader.words = [] := by
    rw [note_reader]; simp [State.answerReader, State.signal, hvr, hw]
  have hres : z.resumeReader = (z.note (v.answerReader n (failedAnswer x))).resumeReader := by
    unfold State.resumeReader
    rw [hw, List.length_singleton, hpump, hleft]; rfl
  rw [hres]
  have hm := answerReader_ends (s := z) (u := v) (n := n) (a := failedAnswer x) (by rw [hfault]; exact hu)
    (by rw [hvr, hw]; rfl)
  let p : ReaderPort := { v.reader with words := [], taken := false }
  have he : ({ v with reader := p.answering v.reader.left (.answer n (failedAnswer x)) v.cfg.present } : State) =
      { s.faulted f (.reader n) (some a) (some (accessDirection x)) none with
        reader := s.reader.answering left (.answer n (failedAnswer x)) s.cfg.present } := by
    have hp : s.reader = { s.reader with words := [], taken := false } := by
      rw [← h.turn, ← htaken]
    simp only [p, hvr]
    rw [hfault, ← hz, hp]
    rfl
  rw [← he]
  exact hm

/-! ### The Processor Port -/

/-- A word that the Region Map admits meets a free Processor Port: it waits for the Memory Arbiter (R159, R166). -/
theorem presentWord_waits (h : s.ProcessorTurn) {w : ProcessorWord} {area : Area}
    (hj : s.judge w.address (.processor w.mode) w.access = .ok area) (hn : needsNoOperation w.access = false) :
    s.presentWord w = { s with processor := { s.processor with words := [w], taken := true } } := by
  obtain ⟨htaken, hheld⟩ := h.sound.processor h.turn
  unfold State.presentWord
  simp only [h.ready, h.turn, List.nil_append]
  generalize hz : ({ s with processor := { s.processor with words := [w] } } : State) = z
  have hw : z.processor.words = [w] := by rw [← hz]
  have hm : z.mustWait w = false := by
    have : z.unit = .ready := by rw [← hz]; exact h.ready
    simp [State.mustWait, this]
  have ht : z.processor.taken = false := by rw [← hz]; exact htaken
  have hh : z.processor.held = none := by rw [← hz]; exact hheld
  have hj' : z.judge w.address (.processor w.mode) w.access = .ok area := by rw [← hz]; exact hj
  have htake : z.takeProcessor w = { z with processor := { z.processor with taken := true } } := by
    unfold State.takeProcessor
    simp only [hj', hn, Bool.false_eq_true, if_false]
  unfold State.resumeProcessor
  rw [hw, List.length_singleton]
  unfold State.pumpProcessor
  simp only [hw, ht, hh, hm, htake, Option.isSome_none, Bool.or_self, Bool.false_eq_true, if_false]
  exact (note_same (fun i => rfl)).trans (by rw [← hz]; simp only [hheld])

/-- The same of a word that the map refuses: it is answered ERROR at once, and its fault is recorded (R159, R165, R172). -/
theorem presentWord_refused (h : s.ProcessorTurn) {w : ProcessorWord} {f : PathFault}
    (hj : s.judge w.address (.processor w.mode) w.access = .error f) :
    ({ s.faulted f .processor (some w.address) (some (accessDirection w.access)) (some w.mode) with
        processor := s.processor.answered (failedAnswer w.access) }).Mirrored (s.presentWord w) := by
  obtain ⟨htaken, hheld⟩ := h.sound.processor h.turn
  unfold State.presentWord
  simp only [h.ready, h.turn, List.nil_append]
  generalize hz : ({ s with processor := { s.processor with words := [w] } } : State) = z
  have hw : z.processor.words = [w] := by rw [← hz]
  have hu : z.unit = .ready := by rw [← hz]; exact h.ready
  have hm : z.mustWait w = false := by simp [State.mustWait, hu]
  have ht : z.processor.taken = false := by rw [← hz]; exact htaken
  have hh : z.processor.held = none := by rw [← hz]; exact hheld
  have hj' : z.judge w.address (.processor w.mode) w.access = .error f := by rw [← hz]; exact hj
  have htake : z.takeProcessor w =
      { s.faulted f .processor (some w.address) (some (accessDirection w.access)) (some w.mode) with
        processor := s.processor.answered (failedAnswer w.access) } := by
    unfold State.takeProcessor
    simp only [hj']
    rw [reportFault_eq _ _ _ _ _ (by rw [hu]; decide), ← hz]
    have hp : s.processor = { s.processor with words := [], taken := false, held := none } := by
      rw [← h.turn, ← htaken, ← hheld]
    rw [hp]
    rfl
  unfold State.resumeProcessor
  rw [hw, List.length_singleton]
  unfold State.pumpProcessor
  simp only [hw, ht, hh, hm, htake, Option.isSome_none, Bool.or_self, Bool.false_eq_true, if_false]
  exact note_mirrored _ _

end Sys2Proof.Machine
end

