-- ==== Sys2Proof/WellFormed.lean ====
section
/-! DEFINITION. Which commands are well formed: the limits that the rules put on an event's operands. The meanings
are total and do not rely on them. -/

namespace Sys2Proof

/-- The load takes 1,024 bytes from the ROM; an absent ROM gives bytes of all ones (R186). -/
def wellFormedImage (rom : List Byte) : Bool := rom.length == Config.imageBytes

/-- A rise of requests is the rise of at least one (R13). -/
def wellFormedRise (modems : Quad Bool) : Bool := modems.toList.any id

/-- An access begins below 16 MiB, and its burst words reach at most three words further (R159). -/
def wellFormedAddress (address : BitVec 32) : Bool := address.toNat < Config.memoryEnd + 12

/-- A bank word is named by a byte offset that is a whole number of words (03, section 3.1). -/
def wellFormedBankOffset (offset : BitVec 20) : Bool := offset.toNat % 4 == 0

/-- The well-formed commands. Every other operand type holds exactly the values its rule admits. -/
def Instr.wellFormed (i : Instr) : Bool :=
  match i with
  | .configurationLoadEnd rom => wellFormedImage rom
  | .requestRise modems => wellFormedRise modems
  | .bankWrite _ offset _ _ _ => wellFormedBankOffset offset
  | .processorWordRead address _ => wellFormedAddress address
  | .processorWordWrite address _ _ _ => wellFormedAddress address
  | .readerWordAccess _ address _ => wellFormedAddress address
  | .resetNAssert | .resetNRelease | .faultedGoWrite _ | .bankSelection | .startUpScan | .enterReady
  | .requestDrop _ | .grantHoldExpiry | .landingWordWrite _ _ _ _ | .tapWordWrite _ _ _ | .screeningRunStart
  | .landedImageRead | .journalReservation | .formatCheck | .denyLookup | .sightingsLookup | .fareComputation
  | .composeWriteBack | .verdictHandover | .verdictRecordWritten _ | .proceed _ | .cancel _
  | .decisionHoldExpiry _ | .writeBackRead _ _ | .resultWordWrite _ _ _ | .writeTimeoutExpiry _
  | .recoveryComparison _ | .recoveryWindowExpiry _ | .laneReset _ | .journalAppendComplete | .journalRelease _
  | .unitRecordRewriteComplete | .bankSwitch _ | .bankValidationEnd | .setOverride _ | .setDirection _
  | .beamChange _ _ _ | .headTimerExpiry _ | .alarmHoldExpiry _ | .clearAlarm _ | .gateFree _ | .gateNormal _
  | .emergencyAssert | .emergencyDeassert | .emergencyInputBeforeReady _ | .slotBoundary | .frameComplete
  | .collision | .frameReceived _ _ | .sightingMessage | .denyMessage | .checkMessage | .silenceTimerExpiry
  | .resyncEnd | .lineRestart _ | .lineCheckStart _ | .lineCheckStop _ | .memoryArbiterChoice
  | .unknownCommandCode _ | .denyAdd _ | .denyRemove _ | .faultRelease _ | .eccBudgetReset _ | .ackNotices _
  | .setTime _ | .serviceClockAdvance | .statusWordWrite => true

end Sys2Proof
end

