-- ==== Sys2Proof/Tests/Slice0.lean ====
section
/-! SUPPORT. The model's own tests: the checks of well-formedness, the spec's worked values, small steps on small states,
and, for each statement with hypotheses, states and operands that meet them. The expected values come from the spec's
tables and worked examples, or are worked by hand from its rules. -/

namespace Sys2Proof.Tests

set_option Elab.async false

open Sys2Proof.Machine

/-! ### Small machines -/

/-- A map of the regions that R161 asks for, every right read-write. -/
def regionsUsed : List RegionEntry :=
  [ ⟨.lane, 0, 1, .readWrite, .readWrite, .readWrite, Quad.all false⟩,
    ⟨.command, 1, 1, .readWrite, .readWrite, .denied, Quad.all false⟩,
    ⟨.status, 2, 1, .readWrite, .readWrite, .denied, Quad.all false⟩,
    ⟨.journal, 4, 2, .readWrite, .readWrite, .denied, Quad.all false⟩,
    ⟨.bankA, 16, 16, .readWrite, .readWrite, .denied, Quad.all false⟩,
    ⟨.bankB, 32, 16, .readWrite, .readWrite, .denied, Quad.all false⟩,
    ⟨.plain, 64, 1, .readWrite, .readWrite, .readWrite, Quad.all true⟩ ]

/-- A configuration: station 212, zone 5, the values of the worked fares of 04. -/
def configured : Configuration :=
  { Configuration.unloaded with
    regions := regionsUsed, keys := [⟨7, 0xDEADBEEF, .current⟩, ⟨5, 0, .retired⟩]
    unitId := 2, lineEnabled := true, slotLength := 2, station := 212, zone := 5
    present := ⟨true, true, true, false⟩, decisionHold := 10, writeTimeout := 2000, recoveryWindow := 20
    maximumReissues := 2, passageTimeout := 8, alarmHold := 5, grantHoldLimit := 5, repeatWindow := 60
    sightingsWindow := 60, maximumJourney := 180, transferWindow := 60, maximumTransfers := 2
    transferDiscount := 100, overdraftLimit := 500, roundingUnit := 5, fareCeiling := 1500, penaltyFare := 1200
    serviceDayStart := 240, noticeMask := 0x3FFFF }

/-- A unit state. -/
def unitAt (u : UnitState) : StartUp := { State.reset.startUp with unit := u }

/-- A unit in READY with its clock set and bank A ACTIVE. -/
def ready : State :=
  { State.reset with
    startUp := unitAt .ready, cfg := configured, clock := some ⟨900, 3600⟩
    banks := { State.reset.banks with a := ⟨some .active, 0, 41⟩, b := ⟨some .staging, 0, 0⟩ } }

/-- The state after a command, if it goes on. -/
def after (s : State) (i : Instr) : State :=
  match exec i s with
  | .next t => t
  | .fault _ | .refused _ => s

/-- `s` with words 0 to 5 of command slot 0 written. -/
def withCommand (s : State) (words : List Nat) : State :=
  s.writeWords (s.slotAddress 0 0) (words.map (BitVec.ofNat 32))

/-- A go-write to slot 0 in MAINT mode, with Go Sequence 1. -/
def go : GoWrite := ⟨0, .maint, 0xF, 1⟩

/-- The hypotheses of `State.Sound`, as one computation. -/
def soundly (s : State) : Bool :=
  decide (s.processor.words = [] → s.processor.taken = false ∧ s.processor.held = none)
    && decide (s.processor.taken = true → s.processor.held = none)
    && decide (s.reader.words = [] → s.reader.taken = false)
    && decide (∀ k, (s.slot k).busy = false → (s.slot k).reading = none ∧ (s.slot k).result = none)
    && decide (∀ k, (s.slot k).result ≠ none → (s.slot k).reading = none)
    && decide (s.status.stale.Pairwise (· < ·)) && decide s.arbiter.requests.Nodup

theorem sound_of {s : State} (h : soundly s = true) : s.Sound := by
  simp only [soundly, Bool.and_eq_true, decide_eq_true_eq] at h
  obtain ⟨⟨⟨⟨⟨⟨h1, h2⟩, h3⟩, h4⟩, h5⟩, h6⟩, h7⟩ := h
  exact ⟨h1, h2, h3, h4, h5, h6, h7⟩

/-- The hypotheses of `State.PathIdle` and that no result word waits, as one computation. -/
def idly (s : State) : Bool :=
  !s.reader.taken && !s.processor.taken && decide (s.arbiter.requests = []) && decide (∀ k, (s.slot k).result = none)

theorem idle_of {s : State} (h : idly s = true) : s.PathIdle ∧ ∀ k, (s.slot k).result = none := by
  simp only [idly, Bool.and_eq_true, decide_eq_true_eq, Bool.not_eq_true'] at h
  obtain ⟨⟨⟨h1, h2⟩, h3⟩, h4⟩ := h
  exact ⟨⟨h1, h2, h3⟩, h4⟩

/-- The hypotheses of `State.CommandTurn`, as one computation. -/
def turnsTo (s : State) (g : GoWrite) : Bool :=
  soundly s && idly s && s.processor.words.isEmpty && s.memory.wf
    && (match s.judge (s.slotAddress g.slot 7) (.processor g.mode) (.write g.enables g.data) with
        | .ok area => decide (area = .commandWord g.slot 7)
        | .error _ => false)
    && !(s.slot g.slot).busy
    && decide (goSequence (s.goWord g) ≠ 0) && decide (goSequence (s.goWord g) ≠ (s.slot g.slot).lastTaken)
    && decide (s.memory.health (s.slotAddress g.slot 7) = .clean)

theorem commandTurn_of {s : State} {g : GoWrite} (h : turnsTo s g = true) : s.CommandTurn g := by
  simp only [turnsTo, Bool.and_eq_true, decide_eq_true_eq, Bool.not_eq_true', List.isEmpty_iff] at h
  obtain ⟨⟨⟨⟨⟨⟨⟨⟨hs, hi⟩, h1⟩, h2⟩, h3⟩, h4⟩, h5⟩, h6⟩, h7⟩ := h
  refine ⟨sound_of hs, h1, (idle_of hi).1, (idle_of hi).2, h2, ?_, h4, ⟨h5, h6⟩, h7⟩
  cases hj : s.judge (s.slotAddress g.slot 7) (.processor g.mode) (.write g.enables g.data) with
  | error f => rw [hj] at h3; simp at h3
  | ok area => rw [hj] at h3; simpa using h3

/-- The hypotheses of `State.CommandReady`, as one computation. -/
def takesCommand (s : State) (g : GoWrite) : Bool :=
  turnsTo s g && decide (s.unit = .ready)
    && decide (∀ i : Fin 8, i.val < 6 → s.memory.health (s.slotAddress g.slot i.val) = .clean)

theorem commandReady_of {s : State} {g : GoWrite} (h : takesCommand s g = true) : s.CommandReady g := by
  simp only [takesCommand, Bool.and_eq_true, decide_eq_true_eq] at h
  exact { commandTurn_of h.1.1 with ready := h.1.2, words := h.2 }

/-- The same for a machine whose slot 0 holds the words given. -/
theorem ready_command (words : List Nat) (s : State) (h : takesCommand (withCommand s words) go = true) :
    (withCommand s words).CommandReady go := commandReady_of h

/-! ### A long CRC in small steps -/

/-- `k n`, with `n` evaluated first. -/
def forced (n : Nat) (k : Nat → Nat) : Nat := Nat.rec (k 0) (fun m _ => k (m + 1)) n

theorem forced_eq (n : Nat) (k : Nat → Nat) : forced n k = k n := by cases n <;> rfl

/-- One bit of the shift of R4, on numbers. -/
def bitStep (r : Nat) (bit : Bool) : Nat :=
  if Nat.ble 2147483648 r != bit then Nat.xor (2 * r % 4294967296) 79764919 else 2 * r % 4294967296

theorem bitStep_eq (r : Word) (bit : Bool) : (checkShift Config.crc32Polynomial r bit).toNat = bitStep r.toNat bit := by
  have hm : r.msb = Nat.ble 2147483648 r.toNat := by
    rw [BitVec.msb_eq_decide, Bool.eq_iff_iff]; simp
  unfold checkShift bitStep
  rw [hm]
  have hs : (r <<< 1).toNat = 2 * r.toNat % 4294967296 := by
    simp [BitVec.toNat_shiftLeft, Nat.shiftLeft_eq, Nat.mul_comm]
  split
  · rw [BitVec.toNat_xor, hs]; rfl
  · exact hs

/-- The bits of a byte, most significant first, through the shift, the register evaluated after each. -/
def bitRun (b : Byte) : List Nat → Nat → (Nat → Nat) → Nat
  | [], r, k => k r
  | i :: rest, r, k => forced (bitStep r (b.getLsbD i)) (bitRun b rest · k)

theorem bitRun_eq (b : Byte) (l : List Nat) (r : Word) (k : Nat → Nat) :
    bitRun b l r.toNat k
      = k (l.foldl (fun r i => checkShift Config.crc32Polynomial r (b.getLsbD i)) r).toNat := by
  induction l generalizing r with
  | nil => rfl
  | cons i rest ih => rw [bitRun, forced_eq, ← bitStep_eq, ih]; rfl

/-- The shift of R4 over a run of bytes. -/
def checkRunOf (register : Nat) : List Byte → Nat
  | [] => register
  | b :: rest => bitRun b [7, 6, 5, 4, 3, 2, 1, 0] register (checkRunOf · rest)

theorem checkBytes_run (l : List Byte) (r : Word) :
    checkBytes Config.crc32Polynomial r l = BitVec.ofNat 32 (checkRunOf r.toNat l) := by
  induction l generalizing r with
  | nil => simp [checkBytes, checkRunOf]
  | cons b rest ih => rw [checkRunOf, bitRun_eq]; exact ih (checkByte Config.crc32Polynomial r b)

/-! ### Well-formedness -/

theorem test_wellFormed_image : (Instr.configurationLoadEnd [0]).wellFormed = false := by decide
theorem test_wellFormed_rise : (Instr.requestRise (Quad.all false)).wellFormed = false := by decide
theorem test_wellFormed_address : (Instr.processorWordRead 0x100000C .service).wellFormed = false := by decide
theorem test_wellFormed_bankOffset : (Instr.bankWrite .a 2 .maint 0xF 0).wellFormed = false := by decide
theorem test_wellFormed_good :
    (Instr.processorWordRead 0x1000008 .service).wellFormed = true
      ∧ (Instr.bankWrite .a 4 .maint 0xF 0).wellFormed = true
      ∧ (Instr.requestRise ⟨true, false, false, false⟩).wellFormed = true := by decide

/-! ### Worked values of the spec -/

/-- R157: the bytes of Index 0 are 00 02 00 0C 00 28 00 F0. -/
theorem test_pattern : patternOf 0 = #v[0x00, 0x02, 0x00, 0x0C, 0x00, 0x28, 0x00, 0xF0] := by decide +kernel

/-- R30, R191: the low half of a Serial stands at the lower address. -/
theorem test_serial : serialOf 0x00002260 0x1 = 0x100002260 := by decide

/-- R69: its table of exact fares and rounding units, and the worked fare of 04: 340 cents at 1.25 and 0.5. -/
theorem test_rounding :
    [212400000, 212500000, 214990000, 215000000, 490000].map
        (fun q => (roundFare 1 q, roundFare 5 q, roundFare 10 q))
      = [(212, 210, 210), (213, 215, 210), (215, 215, 210), (215, 215, 220), (0, 0, 0)]
    ∧ roundFare 5 (340 * 1250 * 500) = 215 := by decide

/-- R105, R113: 8 KiB hold 255 entries; the high-water mark is 223. -/
theorem test_capacity : ready.capacity = 255 ∧ ready.highWater = 223 ∧ ready.freeSpace = 255 := by decide +kernel

/-- R141: a CRC-16 that starts at all ones, over the nine digits of the usual check. -/
theorem test_crc16 : crc16 [0x31, 0x32, 0x33, 0x34, 0x35, 0x36, 0x37, 0x38, 0x39] = 0x29B1 := by decide +kernel

/-- R4, R186: the CRC-32 with no reflection and no final inversion, over the same digits. -/
theorem test_crc32 : crc32 [0x31, 0x32, 0x33, 0x34, 0x35, 0x36, 0x37, 0x38, 0x39] = 0x0376E6E7 := by decide +kernel

/-! ### Commands: states that meet the hypotheses, and their outcomes

A list of words is the Code, target, stamp (1 SERVICE, 2 MAINT) and arguments of words 0 to 5. -/

/-- What a command row leaves in the result word of slot 0: outcome and detail (12.4). -/
def outcomeOf (s : State) (words : List Nat) (i : GoWrite → Instr) : Nat × Nat :=
  let t := after (withCommand s words) (i go)
  (bits (t.memory.word (t.slotAddress 0 6)) 16 8, bits (t.memory.word (t.slotAddress 0 6)) 24 8)

/-- `ready` with a held fault, two notices and a spent budget. -/
def worn : State :=
  { ready with
    faultRecord := { first := some ⟨.outside, .processor, some 0, some .read, some .service, none⟩, further := 255 }
    budget := 0, status := { ready.status with notices := 0x20400 } }

theorem witness_EccBudgetReset :
    (withCommand worn [16, 0, 2, 0, 0, 0]).CommandReady go
    ∧ ((withCommand worn [16, 0, 2, 0, 0, 0]).commandRecord 0 .maint).code = 16
    ∧ ((withCommand worn [16, 0, 2, 0, 0, 0]).commandRecord 0 .maint).authority = .maint
    ∧ (withCommand worn [16, 0, 1, 0, 0, 0]).CommandReady go
    ∧ ((withCommand worn [16, 0, 1, 0, 0, 0]).commandRecord 0 .maint).authority = .service :=
  ⟨ready_command _ _ (by decide +kernel), by decide +kernel, by decide +kernel, ready_command _ _ (by decide +kernel),
   by decide +kernel⟩

theorem test_eccBudgetReset :
    (after (withCommand worn [16, 0, 2, 0, 0, 0]) (.eccBudgetReset go)).budget = 255
    ∧ (after (withCommand worn [16, 0, 1, 0, 0, 0]) (.eccBudgetReset go)).budget = 0
    ∧ outcomeOf worn [16, 0, 2, 0, 0, 0] .eccBudgetReset = (CommandOutcome.done.code, Detail.none.number) := by
  decide +kernel

theorem witness_FaultRelease :
    (withCommand worn [15, 0, 1, 0, 0, 0]).CommandReady go
    ∧ ((withCommand worn [15, 0, 1, 0, 0, 0]).commandRecord 0 .maint).code = 15
    ∧ (withCommand worn [15, 0, 1, 0, 0, 0]).faultRecord.first ≠ none
    ∧ (withCommand ready [15, 0, 1, 0, 0, 0]).CommandReady go
    ∧ ((withCommand ready [15, 0, 1, 0, 0, 0]).commandRecord 0 .maint).code = 15
    ∧ (withCommand ready [15, 0, 1, 0, 0, 0]).faultRecord.first = none :=
  ⟨ready_command _ _ (by decide +kernel), by decide +kernel, by decide +kernel, ready_command _ _ (by decide +kernel),
   by decide +kernel, by decide +kernel⟩

theorem test_faultRelease :
    (after (withCommand worn [15, 0, 1, 0, 0, 0]) (.faultRelease go)).faultRecord = { first := none, further := 0 }
    ∧ outcomeOf ready [15, 0, 1, 0, 0, 0] .faultRelease = (CommandOutcome.done.code, Detail.empty.number) := by
  decide +kernel

theorem witness_AckNotices :
    (withCommand worn [14, 0, 1, 0x20000, 0, 0]).CommandReady go
    ∧ ((withCommand worn [14, 0, 1, 0x20000, 0, 0]).commandRecord 0 .maint).code = 14 :=
  ⟨ready_command _ _ (by decide +kernel), by decide +kernel⟩

theorem test_ackNotices :
    (after (withCommand worn [14, 0, 1, 0x20000, 0, 0]) (.ackNotices go)).status.notices = 0x400
    ∧ ((after (withCommand worn [14, 0, 1, 0x20001, 0, 0]) (.ackNotices go)).slot 0).detailValue = 0x20000
    ∧ (after (withCommand worn [14, 0, 1, 0x3FFFF, 0, 0]) (.ackNotices go)).attn = false := by decide +kernel

theorem witness_SetOverride :
    (withCommand ready [9, 0, 2, 1, 2000, 0]).CommandReady go
    ∧ ((withCommand ready [9, 0, 2, 1, 2000, 0]).commandRecord 0 .maint).code = 9
    ∧ ((withCommand ready [9, 0, 2, 1, 2000, 0]).commandRecord 0 .maint).authority = .maint
    ∧ ((withCommand ready [9, 0, 2, 1, 2000, 0]).commandRecord 0 .maint).arg4.toNat ≤ 2000
    ∧ (withCommand ready [9, 0, 2, 1, 2001, 0]).CommandReady go
    ∧ 2000 < ((withCommand ready [9, 0, 2, 1, 2001, 0]).commandRecord 0 .maint).arg4.toNat
    ∧ (withCommand ready [9, 0, 2, 2, 5, 0]).CommandReady go
    ∧ ((withCommand ready [9, 0, 2, 2, 5, 0]).commandRecord 0 .maint).arg3.toNat = 2
    ∧ (withCommand ready [9, 0, 2, 3, 0, 0]).CommandReady go
    ∧ (withCommand ready [9, 0, 1, 1, 0, 0]).CommandReady go :=
  ⟨ready_command _ _ (by decide +kernel), by decide +kernel, by decide +kernel, by decide +kernel,
   ready_command _ _ (by decide +kernel), by decide +kernel, ready_command _ _ (by decide +kernel), by decide +kernel,
   ready_command _ _ (by decide +kernel), ready_command _ _ (by decide +kernel)⟩

theorem test_setOverride :
    (after (withCommand ready [9, 0, 2, 1, 2000, 0]) (.setOverride go)).fareUnit = ⟨true, 2000⟩
    ∧ (after (withCommand ready [9, 0, 2, 1, 2001, 0]) (.setOverride go)).fareUnit = ⟨false, 1000⟩
    ∧ outcomeOf ready [9, 0, 2, 1, 2001, 0] .setOverride = (CommandOutcome.badArgument.code, 0) := by decide +kernel

/-- The start of the service day is minute 240: second 14,400 of the civil day. -/
theorem witness_ClockIsSet :
    (withCommand ready [8, 0, 2, 65535, 14400, 0]).CommandReady go
    ∧ ((withCommand ready [8, 0, 2, 65535, 14400, 0]).commandRecord 0 .maint).code = 8
    ∧ ((withCommand ready [8, 0, 2, 65535, 14400, 0]).commandRecord 0 .maint).authority = .maint
    ∧ 60 * ready.cfg.serviceDayStart ≤ ((withCommand ready [8, 0, 2, 65535, 14400, 0]).commandRecord 0 .maint).arg4.toNat
    ∧ (withCommand ready [8, 0, 2, 1, 14399, 0]).CommandReady go
    ∧ ((withCommand ready [8, 0, 2, 1, 14399, 0]).commandRecord 0 .maint).arg4.toNat < 60 * ready.cfg.serviceDayStart
    ∧ (withCommand ready [8, 0, 2, 0, 14399, 0]).CommandReady go
    ∧ (withCommand ready [8, 0, 2, 65536, 0, 0]).CommandReady go
    ∧ (withCommand ready [8, 0, 2, 5, 86400, 0]).CommandReady go
    ∧ (withCommand ready [8, 0, 1, 5, 0, 0]).CommandReady go
    ∧ ({ ready with clock := some ⟨65535, 86399⟩ } : State).clock = some ⟨65535, 86399⟩
    ∧ ready.clock = some ⟨900, 3600⟩ ∧ State.reset.clock = none :=
  ⟨ready_command _ _ (by decide +kernel), by decide +kernel, by decide +kernel, by decide +kernel,
   ready_command _ _ (by decide +kernel), by decide +kernel, ready_command _ _ (by decide +kernel),
   ready_command _ _ (by decide +kernel), ready_command _ _ (by decide +kernel), ready_command _ _ (by decide +kernel),
   rfl, rfl, rfl⟩

/-- R180: civil day 900, second 3,600 with the service day at minute 240 is day 899, second 75,600. -/
theorem test_setTime :
    (after (withCommand ready [8, 0, 2, 900, 3600, 0]) (.setTime go)).clock = some ⟨899, 75600⟩
    ∧ outcomeOf ready [8, 0, 2, 0, 14399, 0] .setTime = (CommandOutcome.badArgument.code, 0) := by decide +kernel

theorem test_clockAdvance :
    (after { ready with clock := some ⟨900, 86399⟩ } .serviceClockAdvance).clock = some ⟨901, 0⟩
    ∧ (after { ready with clock := some ⟨65535, 86399⟩ } .serviceClockAdvance).clock = none := by decide +kernel

/-- A unit that failed its load with cause KEY, its command slots usable at 4096. -/
def faulted : State :=
  { State.reset with startUp := { unitAt .faulted with loadFault := some .key, usableSlots := some 4096 } }

theorem witness_CommandsAreJudged :
    faulted.unit = .faulted ∧ faulted.startUp.usableSlots = some 4096 ∧ faulted.startUp.loadFault = some .key
    ∧ faulted.CommandTurn go
    ∧ ({ faulted with startUp := { faulted.startUp with usableSlots := none } } : State).unit = .faulted
    ∧ (withCommand ready [0, 0, 2, 0, 0, 0]).CommandReady go ∧ (withCommand ready [20, 0, 2, 0, 0, 0]).CommandReady go
    ∧ ((withCommand ready [20, 0, 2, 0, 0, 0]).commandRecord 0 .maint).code = 20
    ∧ (withCommand ready [7, 0, 1, 0, 0, 0]).CommandReady go ∧ (withCommand ready [10, 0, 1, 0, 0, 0]).CommandReady go
    ∧ (withCommand ready [12, 0, 1, 0, 0, 0]).CommandReady go ∧ (withCommand ready [17, 0, 1, 0, 0, 0]).CommandReady go
    ∧ (withCommand ready [18, 0, 1, 0, 0, 0]).CommandReady go ∧ (withCommand ready [19, 0, 1, 0, 0, 0]).CommandReady go
    ∧ ((withCommand ready [19, 0, 1, 0, 0, 0]).commandRecord 0 .maint).authority = .service :=
  ⟨rfl, rfl, rfl, commandTurn_of (by decide +kernel), rfl,
   ready_command _ _ (by decide +kernel), ready_command _ _ (by decide +kernel), by decide +kernel,
   ready_command _ _ (by decide +kernel), ready_command _ _ (by decide +kernel), ready_command _ _ (by decide +kernel),
   ready_command _ _ (by decide +kernel), ready_command _ _ (by decide +kernel), ready_command _ _ (by decide +kernel),
   by decide +kernel⟩

/-- R188: in FAULTED the command completes NOT_READY; without usable slots the row changes nothing (log 59). -/
theorem test_faultedGoWrite :
    (let s : State := { faulted with startUp := { faulted.startUp with usableSlots := none } }
     after s (.faultedGoWrite go) = s)
    ∧ bits ((after faulted (.faultedGoWrite go)).memory.word 4120) 16 16
      = CommandOutcome.notReady.code + 256 * Detail.key.number := by decide +kernel

theorem test_unknownCode :
    outcomeOf ready [20, 0, 2, 0, 0, 0] .unknownCommandCode = (CommandOutcome.badArgument.code, Detail.code.number) := by
  decide +kernel

/-- `ready` with lane 0's gate at `x`, holding one credit. -/
def gateAt (x : GateState) : State :=
  { ready with gates := ready.gates.set 0 { Gate.reset with
      state := x, credits := [⟨7, some ⟨900, 3590⟩⟩], headTimer := decide (x = .opened)
      alarmTimer := decide (x = .alarm) } }

theorem names_zero {s : State} {w : Word} (h : w.toNat = 0) (hp : s.present 0 = true) : s.Names w 0 := ⟨h, hp⟩

theorem witness_GateCommands :
    (withCommand (gateAt .alarm) [6, 0, 1, 0, 0, 0]).CommandReady go
    ∧ ((withCommand (gateAt .alarm) [6, 0, 1, 0, 0, 0]).commandRecord 0 .maint).code = 6
    ∧ (withCommand (gateAt .alarm) [6, 0, 1, 0, 0, 0]).Names
        ((withCommand (gateAt .alarm) [6, 0, 1, 0, 0, 0]).commandRecord 0 .maint).target 0
    ∧ ((withCommand (gateAt .alarm) [6, 0, 1, 0, 0, 0]).gate 0).state = .alarm
    ∧ (withCommand (gateAt .opened) [4, 0, 1, 0, 0, 0]).CommandReady go
    ∧ ((withCommand (gateAt .opened) [4, 0, 1, 0, 0, 0]).gate 0).state = .opened
    ∧ (withCommand (gateAt .free) [4, 0, 1, 0, 0, 0]).CommandReady go
    ∧ (withCommand (gateAt .emergency) [4, 0, 1, 0, 0, 0]).CommandReady go
    ∧ (withCommand (gateAt .free) [5, 0, 1, 0, 0, 0]).CommandReady go
    ∧ (withCommand (gateAt .closed) [5, 0, 1, 0, 0, 0]).CommandReady go
    ∧ (withCommand ready [7, 0, 2, 2, 0, 0]).CommandReady go
    ∧ ((withCommand ready [7, 0, 2, 2, 0, 0]).commandRecord 0 .maint).authority = .maint
    ∧ ((withCommand ready [7, 0, 2, 2, 0, 0]).lane 0).state = .idle
    ∧ ((withCommand ready [7, 0, 2, 2, 0, 0]).gate 0).state = .closed
    ∧ ((withCommand ready [7, 0, 2, 2, 0, 0]).gate 0).credits = []
    ∧ (withCommand (gateAt .opened) [7, 0, 2, 1, 0, 0]).CommandReady go
    ∧ (withCommand ready [7, 0, 2, 3, 0, 0]).CommandReady go
    ∧ (withCommand ready [6, 3, 1, 0, 0, 0]).CommandReady go
    ∧ ready.present 3 = false
    ∧ (withCommand ready [6, 4, 1, 0, 0, 0]).CommandReady go :=
  ⟨ready_command _ _ (by decide +kernel), by decide +kernel, names_zero (by decide +kernel) (by decide +kernel),
   by decide +kernel, ready_command _ _ (by decide +kernel), by decide +kernel, ready_command _ _ (by decide +kernel),
   ready_command _ _ (by decide +kernel), ready_command _ _ (by decide +kernel), ready_command _ _ (by decide +kernel),
   ready_command _ _ (by decide +kernel), by decide +kernel, by decide +kernel, by decide +kernel, by decide +kernel,
   ready_command _ _ (by decide +kernel), ready_command _ _ (by decide +kernel), ready_command _ _ (by decide +kernel),
   by decide +kernel, ready_command _ _ (by decide +kernel)⟩

theorem test_clearAlarm :
    ((after (withCommand (gateAt .alarm) [6, 0, 1, 0, 0, 0]) (.clearAlarm go)).gate 0).state = .opened
    ∧ ((after (withCommand (gateAt .alarm) [6, 0, 1, 0, 0, 0]) (.clearAlarm go)).gate 0).headTimer = true := by
  decide +kernel

theorem test_gateFree :
    ((after (withCommand (gateAt .opened) [4, 0, 1, 0, 0, 0]) (.gateFree go)).gate 0).state = .free
    ∧ outcomeOf (gateAt .free) [4, 0, 1, 0, 0, 0] .gateFree
        = (CommandOutcome.done.code, Detail.unchanged.number) := by decide +kernel

theorem test_gateNormal :
    ((after (withCommand (gateAt .free) [5, 0, 1, 0, 0, 0]) (.gateNormal go)).gate 0).state = .opened
    ∧ outcomeOf ready [5, 0, 1, 0, 0, 0] .gateNormal = (CommandOutcome.refusedState.code, 0) := by decide +kernel

theorem test_setDirection :
    ((after (withCommand ready [7, 0, 2, 2, 0, 0]) (.setDirection go)).gate 0).direction = .exit
    ∧ outcomeOf (gateAt .opened) [7, 0, 2, 1, 0, 0] .setDirection = (CommandOutcome.refusedState.code, 0) := by
  decide +kernel

/-- `ready` with `n` entries in the Local Deny List, Serials 1 to `n`, the third of Origin NEIGHBOR. -/
def denying (n : Nat) : State :=
  { ready with denyList := (List.range n).map (fun i =>
      ⟨BitVec.ofNat 64 (i + 1), if i = 2 then .neighbor else .own, .operator, none⟩) }

theorem witness_DenyCommands :
    (withCommand (denying 2) [11, 0, 1, 8800, 1, 0]).CommandReady go
    ∧ ((withCommand (denying 2) [11, 0, 1, 8800, 1, 0]).commandRecord 0 .maint).code = 11
    ∧ (∀ e ∈ (denying 2).denyList, e.serial ≠ 0x100002260)
    ∧ (withCommand (denying 2) [11, 0, 1, 2, 0, 0]).CommandReady go ∧ (∃ e ∈ (denying 2).denyList, e.serial = 2)
    ∧ (withCommand (denying 2) [11, 0, 1, 0, 0, 0]).CommandReady go
    ∧ (withCommand (denying 256) [11, 0, 1, 8800, 1, 0]).CommandReady go ∧ 256 ≤ (denying 256).denyList.length
    ∧ (denying 256).denyList.any (fun e => e.origin == .neighbor) = true
    ∧ (withCommand (denying 2) [12, 0, 2, 2, 0, 0]).CommandReady go
    ∧ ((withCommand (denying 2) [12, 0, 2, 2, 0, 0]).commandRecord 0 .maint).code = 12
    ∧ ((withCommand (denying 2) [12, 0, 2, 2, 0, 0]).commandRecord 0 .maint).authority = .maint
    ∧ (withCommand (denying 2) [12, 0, 2, 9, 0, 0]).CommandReady go
    ∧ (withCommand (denying 2) [12, 0, 2, 0, 0, 0]).CommandReady go :=
  ⟨ready_command _ _ (by decide +kernel), by decide +kernel, by decide +kernel, ready_command _ _ (by decide +kernel),
   by decide +kernel, ready_command _ _ (by decide +kernel), ready_command _ _ (by decide +kernel), by decide +kernel,
   by decide +kernel, ready_command _ _ (by decide +kernel), by decide +kernel, by decide +kernel,
   ready_command _ _ (by decide +kernel), ready_command _ _ (by decide +kernel)⟩

/-- A full list without a NEIGHBOR entry, for the displacement of the oldest. -/
def denyingOwn : State :=
  { ready with denyList := List.replicate 256 ⟨5, .own, .operator, none⟩ }

theorem witness_DenyAdd_ownFull :
    (withCommand denyingOwn [11, 0, 1, 8800, 1, 0]).CommandReady go ∧ 256 ≤ denyingOwn.denyList.length
    ∧ denyingOwn.denyList.any (fun e => e.origin == .neighbor) = false :=
  ⟨ready_command _ _ (by decide +kernel), by decide +kernel, by decide +kernel⟩

theorem test_denyAdd :
    (after (withCommand (denying 2) [11, 0, 1, 8800, 1, 0]) (.denyAdd go)).denyList.length = 3
    ∧ (after (withCommand (denying 2) [11, 0, 1, 8800, 1, 0]) (.denyAdd go)).line.queue
        = [⟨.deny 0x100002260 .operator, false⟩]
    ∧ outcomeOf (denying 2) [11, 0, 1, 2, 0, 0] .denyAdd
        = (CommandOutcome.done.code, Detail.present.number) := by decide +kernel

theorem test_denyRemove :
    (after (withCommand (denying 2) [12, 0, 2, 1, 0, 0]) (.denyRemove go)).denyList.map (·.serial) = [2]
    ∧ outcomeOf (denying 2) [12, 0, 2, 9, 0, 0] .denyRemove = (CommandOutcome.notFound.code, 0) := by decide +kernel

/-! ### Lanes -/

/-- A card inside since service day 900, second 0, entry station 100, entry zone 2, product class 2, balance 10.00, Counter
12, Serial 0x100002260, Key Generation 7, with its tag under the CURRENT key. -/
def card : Image := #v[33621761, 0x2260, 1, 12, 1000, 58982400, 13107200, 0, 0, 2, 0, 0, 0, 0, 0, 1558267820]

/-- The card as it stands after a fare of 215, Counter 13. -/
def charged : Image := #v[33621761, 0x2260, 1, 13, 785, 58982400, 13107200, 0, 0, 2, 0, 0, 0, 0, 0, 1558267820]

/-- The bytes of the card's words at address 0, with the low bytes of its Counter and Balance given. -/
def cardBytes (counter balance : Byte) : List Host.Cell :=
  [(0, 1), (1, 7), (2, 1), (3, 2), (4, 96), (5, 34), (8, 1), (12, counter), (16, balance), (17, 3), (22, 132), (23, 3),
   (26, 200), (36, 2), (60, 172), (61, 71), (62, 225), (63, 92)]

/-- 12.2: the card's fields. -/
theorem test_card :
    cardSerial card = 0x100002260 ∧ cardCounter card = 12 ∧ cardBalance card = 1000 ∧ cardInside card = true
    ∧ cardEntryDay card = 900 ∧ cardEntrySecond card = 0 ∧ cardEntryStation card = 100 ∧ cardEntryZone card = 2
    ∧ cardProduct card = 2 ∧ cardGeneration card = 7 ∧ cardFormat card = 1 := by decide +kernel

/-- R4: the card's tag under the CURRENT key. -/
theorem test_cardTag : cardTag 0xDEADBEEF card = cardTagField card := by
  unfold cardTag; rw [checkBytes_run]; decide +kernel

/-- A Lane Context that holds a verdict of 215 cents for the card. -/
def decidedLane : LaneContext :=
  { LaneContext.reset with
    state := .decided, verdictNumber := 9, landed := some card, composed := some charged
    verdict := some ⟨215, FareFlags.none, false⟩, pinned := some .a, reservation := 2, timer := .decisionHold
    arrival := some ⟨.good, true, some ⟨900, 3590⟩⟩ }

/-- `ready` with lane 0 at a context, bank A pinned once and two entries reserved. -/
def laneAt (l : LaneContext) : State :=
  { ready with
    lanes := ready.lanes.set 0 l, banks := { ready.banks with a := { ready.banks.a with pins := 1 } }
    journal := { ready.journal with next := 8, reservationTotal := l.reservation } }

/-- Lane 0 in DECIDED with a first verdict. -/
def decided : State := laneAt decidedLane

/-- Lane 0 in DECIDED with a re-issue of the transaction pending at sequence 5. -/
def reissued : State := laneAt { decidedLane with pendingSeq := some 5, reissues := 1, reservation := 1 }

/-- Lane 0 in RELEASED. -/
def released : State := laneAt { decidedLane with
  state := .released, timer := .writeTimeout, pendingSeq := some 5, reservation := 1 }

/-- Lane 0 in RECOVERY. -/
def recovering : State := laneAt { decidedLane with
  state := .recovery, timer := .recoveryWindow, pendingSeq := some 5, reservation := 1 }

theorem witness_ProceedAndCancel :
    (withCommand decided [1, 0, 1, 9, 0, 0]).CommandReady go
    ∧ ((withCommand decided [1, 0, 1, 9, 0, 0]).commandRecord 0 .maint).code = 1
    ∧ (withCommand decided [1, 0, 1, 9, 0, 0]).Names
        ((withCommand decided [1, 0, 1, 9, 0, 0]).commandRecord 0 .maint).target 0
    ∧ ((withCommand decided [1, 0, 1, 9, 0, 0]).lane 0).appending = false
    ∧ ((withCommand decided [1, 0, 1, 9, 0, 0]).commandRecord 0 .maint).arg3.toNat
        = ((withCommand decided [1, 0, 1, 9, 0, 0]).lane 0).verdictNumber
    ∧ ((withCommand decided [1, 0, 1, 9, 0, 0]).lane 0).state = .decided
    ∧ ((withCommand decided [1, 0, 1, 9, 0, 0]).lane 0).pendingSeq = none
    ∧ (withCommand reissued [1, 0, 1, 9, 0, 0]).CommandReady go
    ∧ ((withCommand reissued [1, 0, 1, 9, 0, 0]).lane 0).pendingSeq = some 5
    ∧ (withCommand decided [2, 0, 1, 9, 0, 0]).CommandReady go
    ∧ ((withCommand decided [2, 0, 1, 9, 0, 0]).commandRecord 0 .maint).code = 2
    ∧ (withCommand reissued [2, 0, 1, 9, 0, 0]).CommandReady go
    ∧ (withCommand decided [1, 0, 1, 0, 0, 0]).CommandReady go ∧ (withCommand decided [1, 0, 1, 8, 0, 0]).CommandReady go
    ∧ (withCommand released [1, 0, 1, 9, 0, 0]).CommandReady go
    ∧ ((withCommand released [1, 0, 1, 9, 0, 0]).lane 0).state ≠ .decided :=
  ⟨ready_command _ _ (by decide +kernel), by decide +kernel, names_zero (by decide +kernel) (by decide +kernel),
   by decide +kernel, by decide +kernel, by decide +kernel, by decide +kernel, ready_command _ _ (by decide +kernel),
   by decide +kernel, ready_command _ _ (by decide +kernel), by decide +kernel, ready_command _ _ (by decide +kernel),
   ready_command _ _ (by decide +kernel), ready_command _ _ (by decide +kernel), ready_command _ _ (by decide +kernel),
   by decide +kernel⟩

theorem test_proceed :
    (after (after (withCommand decided [1, 0, 1, 9, 0, 0]) (.proceed go)) .journalAppendComplete).lane 0
      = { decidedLane with state := .released, timer := .writeTimeout, pendingSeq := some 8, reservation := 1 }
    ∧ ((after (withCommand reissued [1, 0, 1, 9, 0, 0]) (.proceed go)).lane 0).state = .released := by decide +kernel

theorem test_cancel :
    ((after (after (withCommand decided [2, 0, 1, 9, 0, 0]) (.cancel go)) .journalAppendComplete).lane 0).state = .idle
    ∧ outcomeOf decided [2, 0, 1, 8, 0, 0] .cancel = (CommandOutcome.badSequence.code, 0) := by decide +kernel

/-- Lane 0 in SCREENING with the REFUSAL entry of its run being appended. -/
def refusingLane : State :=
  { laneAt { decidedLane with state := .screening } with
    screening := { queue := [], run := some { Run.start 0 with stage := .refusing, decision := some .passback } } }

/-- R80, R83: an append of the engine's makes no lane appending, so a PROCEED is refused at once; R98, log 15: a LANE_RESET
waits. -/
theorem test_refusing :
    outcomeOf refusingLane [1, 0, 1, 9, 0, 0] .proceed = (CommandOutcome.refusedState.code, 0)
    ∧ outcomeOf refusingLane [2, 0, 1, 8, 0, 0] .cancel = (CommandOutcome.badSequence.code, 0)
    ∧ ((after (withCommand refusingLane [3, 0, 1, 0, 0, 0]) (.laneReset go)).lane 0).waiting = [0] := by decide +kernel

theorem witness_LaneReset :
    (withCommand ready [3, 0, 1, 0, 0, 0]).CommandReady go
    ∧ ((withCommand ready [3, 0, 1, 0, 0, 0]).commandRecord 0 .maint).code = 3
    ∧ (withCommand ready [3, 0, 1, 0, 0, 0]).Names
        ((withCommand ready [3, 0, 1, 0, 0, 0]).commandRecord 0 .maint).target 0
    ∧ ((withCommand ready [3, 0, 1, 0, 0, 0]).lane 0).state = .idle
    ∧ (withCommand (laneAt { decidedLane with state := .screening }) [3, 0, 1, 0, 0, 0]).CommandReady go
    ∧ (withCommand (laneAt { decidedLane with state := .screening, resetRequested := true })
        [3, 0, 1, 0, 0, 0]).CommandReady go
    ∧ (withCommand decided [3, 0, 1, 0, 0, 0]).CommandReady go ∧ (withCommand reissued [3, 0, 1, 0, 0, 0]).CommandReady go
    ∧ (withCommand released [3, 0, 1, 0, 0, 0]).CommandReady go
    ∧ (withCommand recovering [3, 0, 1, 0, 0, 0]).CommandReady go
    ∧ ((withCommand recovering [3, 0, 1, 0, 0, 0]).lane 0).comparing = false
    ∧ (∀ j ∈ (withCommand recovering [3, 0, 1, 0, 0, 0]).status.records,
        ¬(j.lane = 0 ∧ (j.next = .decided ∨ j.next = .idle)))
    ∧ (withCommand (laneAt { decidedLane with appending := true }) [3, 0, 1, 0, 0, 0]).CommandReady go
    ∧ (withCommand refusingLane [3, 0, 1, 0, 0, 0]).CommandReady go
    ∧ (withCommand refusingLane [3, 0, 1, 0, 0, 0]).screening.run.map (fun q => (q.lane, q.stage)) = some (0, .refusing)
    ∧ (withCommand recovering [3, 0, 1, 0, 0, 0]).screening.run = none :=
  ⟨ready_command _ _ (by decide +kernel), by decide +kernel, names_zero (by decide +kernel) (by decide +kernel),
   by decide +kernel, ready_command _ _ (by decide +kernel), ready_command _ _ (by decide +kernel),
   ready_command _ _ (by decide +kernel), ready_command _ _ (by decide +kernel), ready_command _ _ (by decide +kernel),
   ready_command _ _ (by decide +kernel), by decide +kernel, by decide +kernel, ready_command _ _ (by decide +kernel),
   ready_command _ _ (by decide +kernel), rfl,
   rfl⟩

theorem test_laneReset :
    outcomeOf ready [3, 0, 1, 0, 0, 0] .laneReset = (CommandOutcome.done.code, Detail.idle.number)
    ∧ ((after (withCommand (laneAt { decidedLane with state := .screening }) [3, 0, 1, 0, 0, 0])
        (.laneReset go)).lane 0).resetRequested = true := by decide +kernel

theorem witness_LaneTimers :
    ((decided.lane 0).state = .decided ∧ (decided.lane 0).timer = .decisionHold ∧ (decided.lane 0).appending = false
      ∧ (decided.lane 0).pendingSeq = none)
    ∧ ((reissued.lane 0).timer = .decisionHold ∧ (reissued.lane 0).pendingSeq = some 5)
    ∧ ((released.lane 0).state = .released ∧ (released.lane 0).timer = .writeTimeout)
    ∧ ((recovering.lane 0).state = .recovery ∧ (recovering.lane 0).timer = .recoveryWindow
      ∧ (recovering.lane 0).appending = false ∧ (recovering.lane 0).comparing = false)
    ∧ (ready.lane 0).timer = .stopped := by decide +kernel

theorem test_decisionHold :
    (after (after decided (.decisionHoldExpiry 0)) .journalAppendComplete).lane 0
      = { LaneContext.reset with verdictNumber := 9 } := by decide +kernel

theorem test_writeTimeout :
    ((after released (.writeTimeoutExpiry 0)).lane 0).state = .recovery
    ∧ ((after released (.writeTimeoutExpiry 0)).lane 0).timer = .recoveryWindow := by decide +kernel

theorem test_recoveryWindow :
    ((after (after recovering (.recoveryWindowExpiry 0)) .journalAppendComplete).lane 0).state = .idle
    ∧ bits ((after (after recovering (.recoveryWindowExpiry 0)) .journalAppendComplete).memory.word
        (recovering.entryAddress 8 + 4)) 0 5 = TransactionKind.uncertainWindow.code := by decide +kernel

/-! ### The Reader Port -/

/-- Modem 0 holds the grant. -/
def granted (s : State) : State :=
  { s with reader := { s.reader with
      requests := ⟨true, false, false, false⟩, owner := some 0, last := 0, holdTimer := true } }

theorem readerTurn_of {s : State} (hs : soundly (granted s) = true) (h : s.reader.words = [])
    (he : s.reader.ending = false) : (granted s).ReaderTurn 0 := ⟨sound_of hs, rfl, .inl he, h⟩

theorem witness_ReaderWords :
    (granted ready).ReaderTurn 0 ∧ (granted ready).unit = .ready
    ∧ (granted ready).judge 64 (.reader 0) .read = .ok (.tap 0)
    ∧ (granted ready).judge 4096 (.reader 0) .read = .error .rights
    ∧ (granted ready).judge 16777216 (.reader 0) (.write 0xF 0) = .error .outside
    ∧ (granted ready).judge 262144 (.reader 0) (.write 0xF 0) = .ok (.plain (Quad.all true))
    ∧ (granted released).ReaderTurn 0 ∧ ((granted released).lane 0).state = .released
    ∧ ((granted released).locate ((granted released).laneAddress 0 128)).map (·.2) = some (.writeBack 0)
    ∧ ((granted released).locate ((granted released).laneAddress 0 188)).map (·.2) = some (.writeBack 0)
    ∧ (granted decided).ReaderTurn 0 ∧ ((granted decided).lane 0).state ≠ .released :=
  ⟨readerTurn_of (by decide +kernel) rfl rfl, rfl, by rfl, by rfl, by rfl, by rfl,
     readerTurn_of (by decide +kernel) rfl rfl, rfl, by rfl, by rfl,
   readerTurn_of (by decide +kernel) rfl rfl, by decide⟩

theorem test_writeBackRead :
    (after (granted released) (.writeBackRead ⟨0, 0⟩ 15)).reader.taken = true
    ∧ (after (granted decided) (.writeBackRead ⟨0, 0⟩ 15)).reader.signals = [.answer 0 (.failed (some 0xFFFFFFFF))]
    ∧ (after (granted decided) (.writeBackRead ⟨0, 0⟩ 15)).faultRecord.first.map (·.kind) = some .notReleased := by
  decide +kernel

theorem test_readerWord :
    (after (granted ready) (.readerWordAccess ⟨0, 0⟩ 4096 .read)).faultRecord.first
      = some ⟨.rights, .reader 0, some 4096, some .read, none, some ⟨900, 3600⟩⟩ := by decide +kernel

/-- A landing word of lane 0 with wrong bits. -/
def upset (m : BitVec 39) (a : Nat) (s : State) : State :=
  { s with memory := { s.memory with upsets := setCell s.memory.upsets a m } }

theorem witness_LandingWord :
    (granted ready).ReaderTurn 0 ∧ (granted ready).memory.wf = true
    ∧ ((granted ready).locate ((granted ready).laneAddress 0 0)).map (fun p => (p.1.reader, p.2))
        = some (.readWrite, .landing 0 0)
    ∧ ((granted ready).locate ((granted ready).laneAddress 0 60)).map (fun p => (p.1.reader, p.2))
        = some (.readWrite, .landing 0 15)
    ∧ ((granted ready).lane 0).state = .idle ∧ (granted ready).memory.health 60 = .clean
    ∧ (granted (upset 1 60 ready)).ReaderTurn 0 ∧ (granted (upset 1 60 ready)).memory.wf = true
    ∧ (granted (upset 1 60 ready)).memory.health 60 = .corrected
    ∧ (granted (upset 3 60 ready)).memory.health 60 = .uncorrectable
    ∧ (granted recovering).ReaderTurn 0 ∧ ((granted recovering).lane 0).state = .recovery
    ∧ (granted decided).ReaderTurn 0 ∧ ((granted decided).lane 0).state = .decided :=
  ⟨readerTurn_of (by decide +kernel) rfl rfl, rfl, by rfl, by rfl, rfl, by decide +kernel,
     readerTurn_of (by decide +kernel) rfl rfl, by decide +kernel,
   by decide +kernel, by decide +kernel, readerTurn_of (by decide +kernel) rfl rfl, rfl,
   readerTurn_of (by decide +kernel) rfl rfl, rfl⟩

theorem test_landingWord :
    ((after (granted ready) (.landingWordWrite ⟨0, 0⟩ 15 0xF 5)).lane 0).mask = 0x8000
    ∧ (after (granted ready) (.landingWordWrite ⟨0, 0⟩ 15 0xF 5)).memory.word 60 = 5
    ∧ (after (granted decided) (.landingWordWrite ⟨0, 0⟩ 0 0xF 5)).faultRecord.first.map (·.kind) = some .landingLocked := by
  decide +kernel

/-- Lane 0 with a whole landing of the card, before its tap word. -/
def landing (l : LaneContext) : State :=
  granted { laneAt { l with mask := 0xFFFF } with memory := ⟨cardBytes 12 232, []⟩ }

theorem witness_TapWord :
    (landing LaneContext.reset).ReaderTurn 0 ∧ (landing LaneContext.reset).memory.wf = true
    ∧ ((landing LaneContext.reset).locate 64).map (fun p => (p.1.reader, p.2)) = some (.readWrite, .tap 0)
    ∧ (landing LaneContext.reset).memory.health 64 = .clean ∧ ((landing LaneContext.reset).lane 0).state = .idle
    ∧ ((landing (recovering.lane 0)).lane 0).state = .recovery ∧ ((landing (recovering.lane 0)).lane 0).mask = 0xFFFF
    ∧ ((granted recovering).lane 0).mask ≠ 0xFFFF ∧ ((landing decidedLane).lane 0).state = .decided :=
  ⟨readerTurn_of (by decide +kernel) rfl rfl, by decide +kernel, by rfl, by decide +kernel, by decide +kernel, by decide +kernel,
   by decide +kernel, by decide +kernel, by decide +kernel⟩

theorem test_tapWord :
    ((after (landing LaneContext.reset) (.tapWordWrite ⟨0, 0⟩ 0xF 1)).lane 0).state = .screening
    ∧ (after (landing LaneContext.reset) (.tapWordWrite ⟨0, 0⟩ 0xF 1)).screening.queue = [0]
    ∧ (after (landing LaneContext.reset) (.tapWordWrite ⟨0, 0⟩ 0xF 1)).banks.a.pins = 2
    ∧ ((after (landing (recovering.lane 0)) (.tapWordWrite ⟨0, 0⟩ 0xF 1)).lane 0).comparing = true := by decide +kernel

theorem witness_ResultWord :
    (granted released).ReaderTurn 0 ∧ (granted released).unit = .ready
    ∧ (granted released).judge ((granted released).laneAddress 0 192) (.reader 0) (.write 0xF 1) = .ok (.result 0)
    ∧ ((granted released).lane 0).comparing = false ∧ (granted released).clock = some ⟨900, 3600⟩
    ∧ (granted released).memory.wf = true
    ∧ (granted released).memory.health ((granted released).laneAddress 0 192) = .clean
    ∧ (granted decided).judge ((granted decided).laneAddress 0 192) (.reader 0) (.write 0xF 1)
        = .error .unexpectedResult
    ∧ (mergeBytes 0xF ((granted released).memory.word 192) 1).toNat % 256 = 1
    ∧ (mergeBytes 0xF ((granted released).memory.word 192) 2).toNat % 256 = 2
    ∧ (mergeBytes 0xF ((granted released).memory.word 192) 255).toNat % 256 = 255
    ∧ (granted released).sightings.find? (fun f => f.serial == cardSerial card) = none :=
  ⟨readerTurn_of (by decide +kernel) rfl rfl, rfl, by rfl, rfl, rfl, rfl, by decide +kernel, by rfl, by decide +kernel,
     by decide +kernel,
   by decide +kernel, rfl⟩

/-- A commit that meets a sighting of the Counter it is to take: the boundary of a conflict (R102). -/
def sighted (counter : Nat) (s : State) : State :=
  { s with sightings := [⟨cardSerial card, counter, 785, 3, ⟨900, 0⟩, .neighbor⟩] }

theorem witness_Commit_conflict :
    (sighted 13 released).sightings.find? (fun f => f.serial == cardSerial card)
        = some ⟨cardSerial card, 13, 785, 3, ⟨900, 0⟩, .neighbor⟩
    ∧ (⟨900, 3600⟩ : ServiceTime).absolute - (⟨900, 0⟩ : ServiceTime).absolute ≤ configured.sightingsWindow * 60
    ∧ cardCounter card < 13 ∧ ¬cardCounter card < 12 := by decide +kernel

theorem test_resultWritten :
    (after (granted released) (.resultWordWrite ⟨0, 0⟩ 0xF 1)).sightings
      = [⟨cardSerial card, 13, 785, 2, ⟨900, 3600⟩, .own⟩]
    ∧ ((after (after (granted released) (.resultWordWrite ⟨0, 0⟩ 0xF 1)) .journalAppendComplete).gate 0).credits
      = [⟨8, some ⟨900, 3600⟩⟩]
    ∧ (after (sighted 13 (granted released)) (.resultWordWrite ⟨0, 0⟩ 0xF 1)).denyList.map (·.serial)
      = [cardSerial card] := by decide +kernel

theorem test_resultUnknown :
    ((after (granted released) (.resultWordWrite ⟨0, 0⟩ 0xF 3)).lane 0).state = .recovery
    ∧ (after (granted decided) (.resultWordWrite ⟨0, 0⟩ 0xF 1)).faultRecord.first.map (·.kind)
      = some .unexpectedResult := by decide +kernel

/-- Lane 0 comparing, with the card in its landing area, the low bytes of its Counter and Balance as given. -/
def comparing (counter balance : Byte) (reissues : Nat) : State :=
  { laneAt { decidedLane with
      state := .recovery, timer := .recoveryWindow, pendingSeq := some 5, reservation := 1, comparing := true
      reissues := reissues } with
    memory := ⟨cardBytes counter balance, []⟩ }

theorem witness_RecoveryComparison :
    ((comparing 13 17 0).lane 0).comparing = true ∧ ((comparing 13 17 0).lane 0).appending = false
    ∧ (∀ j ∈ (comparing 13 17 0).status.records, j.lane = 0 → j.next = .answeredInRecovery)
    ∧ ((comparing 13 17 0).lane 0).waiting = [] ∧ ((comparing 13 17 0).lane 0).landed = some card
    ∧ (∀ i : Fin 16, (comparing 13 17 0).memory.health ((comparing 13 17 0).laneAddress 0 (4 * i.val)) = .clean)
    ∧ ((comparing 13 17 0).lane 0).composed = some (Vector.ofFn (fun i : Fin 16 =>
        (comparing 13 17 0).memory.word ((comparing 13 17 0).laneAddress 0 (4 * i.val))))
    ∧ (Vector.ofFn (fun i : Fin 16 => (comparing 12 232 1).memory.word ((comparing 12 232 1).laneAddress 0 (4 * i.val)))
        : Image) = card
    ∧ ((comparing 12 232 1).lane 0).reissues < configured.maximumReissues
    ∧ configured.maximumReissues ≤ ((comparing 12 232 2).lane 0).reissues
    ∧ cardSerial (card.set 4 0) = cardSerial card ∧ card.set 4 0 ≠ card ∧ some (card.set 4 0) ≠ some charged
    ∧ cardSerial (card.set 1 0) ≠ cardSerial card
    ∧ (upset 3 0 (comparing 12 232 1)).memory.health ((comparing 12 232 1).laneAddress 0 (4 * (0 : Fin 16).val))
        = .uncorrectable
    ∧ (ready.lane 0).comparing = false := by decide +kernel

theorem test_recoveryComparison :
    ((after (comparing 12 232 1) (.recoveryComparison 0)).status.records.map (fun j => (j.lane, j.number, j.next)))
      = [(0, 1, .reissued)]
    ∧ ((after (comparing 13 17 0) (.recoveryComparison 0)).lane 0).appending = true := by decide +kernel

/-! ### Verdict Records -/

/-- Lane 0 in SCREENING with a record of ACCEPT being written, none of its words yet. -/
def recording (next : AfterRecord) (l : LaneContext) : State :=
  { laneAt l with
    status := { ready.status with records := [⟨0, 10, #v[10, 1, 2, 3, 4, 5, 6, 7], 0, next⟩] } }

theorem witness_VerdictRecord :
    ((recording .decided { decidedLane with state := .screening }).status.records.find? (fun i => i.lane == 0)).isSome
    ∧ ((recording .idle { decidedLane with state := .screening }).lane 0).waiting = []
    ∧ (recording .reissued (recovering.lane 0)).memory.wf = true
    ∧ ((recording .answeredInRecovery (recovering.lane 0)).lane 0).state = .recovery
    ∧ ((recording .answeredInRecovery (recovering.lane 0)).lane 0).comparing = false
    ∧ ((recording .answeredInRecovery decidedLane).lane 0).state ≠ .recovery
    ∧ (∀ j ∈ (recording .staysInRecovery (recovering.lane 0)).status.records, j.next = .staysInRecovery)
    ∧ (∀ j ∈ ready.status.records, j.lane ≠ 0) := by decide +kernel

theorem test_verdictRecord :
    (after (recording .decided { decidedLane with state := .screening }) (.verdictRecordWritten 0)).lane 0
      = { decidedLane with verdictNumber := 10 }
    ∧ (after (recording .idle { decidedLane with state := .screening }) (.verdictRecordWritten 0)).banks.a.pins = 0
    ∧ (after (recording .idle { decidedLane with state := .screening }) (.verdictRecordWritten 0)).memory.word 256
      = 10 := by decide +kernel

/-! ### Start-up -/

/-- The four bytes of a number, low byte first (R191). -/
def le32 (v : Nat) : List Byte := bytesOf (BitVec.ofNat 32 v)

/-- The two bytes of a number, low byte first. -/
def le16 (v : Nat) : List Byte := [BitVec.ofNat 8 v, BitVec.ofNat 8 (v / 256)]

/-- A region entry of an image, every right read-write (12.8). -/
def romEntry (kind base size : Nat) : List Byte :=
  [BitVec.ofNat 8 kind, 2, 2, 2, 0, 0, 0, 0] ++ le32 base ++ le32 size

/-- A sound image: the regions and the values of `configured`, lanes 0 to 2 present. -/
def imageHead : List Byte :=
  romEntry 1 0 1 ++ romEntry 2 1 1 ++ romEntry 3 2 1 ++ romEntry 4 4 2 ++ romEntry 5 16 16 ++ romEntry 6 32 16
    ++ romEntry 7 64 1 ++ List.replicate 144 0
    ++ [7, 1, 0, 0] ++ le32 0xDEADBEEF ++ [5, 3, 0, 0, 0, 0, 0, 0, 4, 3, 0, 0, 0, 0, 0, 0, 6, 3, 0, 0, 0, 0, 0, 0]
    ++ [2, 1, 2, 0] ++ le16 212 ++ [5, 0, 3, 3, 5, 2]
    ++ le16 10 ++ le16 2000 ++ le16 20 ++ le16 2 ++ le16 8 ++ le16 5 ++ le16 5 ++ le16 60 ++ le16 60 ++ le16 0
    ++ le16 180 ++ le16 60 ++ le16 2 ++ le16 100 ++ le16 500 ++ le16 5 ++ le16 1500 ++ le16 1200
    ++ le16 240 ++ le16 0 ++ le32 0x3FFFF

/-- The 1,020 bytes under the check. -/
def imageBody : List Byte := imageHead ++ List.replicate 676 0

/-- An image with its check: 1,020 bytes and their CRC-32. -/
def checkedImage (body : List Byte) : List Byte := body ++ bytesOf (crc32 body)

theorem checkedImage_below {body : List Byte} (h : body.length = 1020) {i : Nat} (hi : i < 1020) :
    (checkedImage body).getD i 0xFF = body.getD i 0xFF := by
  unfold checkedImage
  rw [List.getD_append _ _ _ _ (by omega)]

/-- What is found in such an image is what is found past its check. -/
theorem loadFault_checked {body : List Byte} {x : Option LoadFault} (h : body.length = 1020)
    (hx : (if (List.range 16).any (fun r => (regionKindOf (romByte (checkedImage body) (16 * r)).toNat).isNone)
        then some LoadFault.kind
      else if !soundMap ((List.range 16).map (romRegion (checkedImage body))) then some .region
      else if ((List.range 4).map (romKey (checkedImage body))).countP (fun k => k.use == .current) != 1 then some .key
      else none) = x) :
    loadFaultOf (checkedImage body) = x := by
  have hb : (List.range 1020).map (romByte (checkedImage body)) = body := by
    refine List.ext_getElem (by simp [h]) fun i h1 h2 => ?_
    rw [List.getElem_map, List.getElem_range, romByte, checkedImage_below h (by omega), List.getD_eq_getElem _ _ h2]
  have hw : romWord (checkedImage body) 1020 = crc32 body := by
    have ht (j : Nat) (hj : 1020 ≤ j) : romByte (checkedImage body) j = (bytesOf (crc32 body)).getD (j - 1020) 0xFF := by
      unfold romByte checkedImage
      rw [List.getD_append_right _ _ _ _ (by omega), h]
    unfold romWord
    rw [ht _ (by omega), ht _ (by omega), ht _ (by omega), ht _ (by omega)]
    exact wordOfBytes_byteOf (crc32 body)
  unfold loadFaultOf
  dsimp only
  rw [hb, hw, if_neg (by simp)]
  exact hx

/-- The image. -/
def image : List Byte := checkedImage imageBody

theorem image_sound : loadFaultOf image = none :=
  loadFault_checked (by decide +kernel) (by decide +kernel)

/-- The unit in LOADING. -/
def loading : State := { State.reset with startUp := unitAt .loading }

theorem witness_ConfigurationLoad :
    loading.unit = .loading ∧ loadFaultOf image = none ∧ loadFaultOf [] = some .check
    ∧ loading.memory.health ((after loading (.configurationLoadEnd [])).statusAddress 0) = .clean := by
  refine ⟨rfl, image_sound, ?_, by decide +kernel⟩
  have : crc32 ((List.range 1020).map (romByte [])) ≠ romWord [] 1020 := by
    unfold crc32; rw [checkBytes_run]; decide +kernel
  unfold loadFaultOf
  simp [this]

/-! ### Banks -/

/-- Bank A of Version 41 in memory: one band from minute 0 at 1.25, every product STORED at 0.5 with floor 0, base fare 340
from zone 2 to zone 5, no deny entry. -/
def bankMemory : Memory :=
  { bytes := [(65536, 41), (65544, 130), (65545, 117), (65546, 64), (65547, 111), (65674, 84), (65675, 1), (66112, 1),
              (66118, 226), (66119, 4)]
             ++ (List.range 16).flatMap (fun i => [(66148 + 8 * i, 1), (66150 + 8 * i, 244), (66151 + 8 * i, 1)])
    upsets := [] }

/-- The word at bank offset 64 + 4 i. -/
def bankWord (i : Nat) : Word :=
  if i = 18 then 340 * 65536 else if i = 128 then 1 else if i = 129 then 1250 * 65536
  else if 137 ≤ i ∧ i < 169 ∧ i % 2 = 1 then 500 * 65536 + 1 else 0

/-- The words from bank offset 64 on. -/
def bankBody : List Word := (List.range 240).map bankWord

theorem crc_bankBody : crc32 (bankBody.flatMap bytesOf) = 0x6F407582 := by
  unfold crc32; rw [checkBytes_run]; decide +kernel

theorem clean_bankMemory (a : Nat) : bankMemory.health a = .clean := Memory.health_of_upset rfl

theorem body_bankMemory : (wordRun 65600 240).map bankMemory.word = bankBody := by
  have h : ∀ i < 240, bankMemory.word (65600 + 4 * i) = bankWord i := by decide +kernel
  unfold wordRun bankBody
  rw [List.map_map]
  exact List.map_congr_left fun i hi => h i (List.mem_range.1 hi)

/-- R48: a bank whose words are those of `bankMemory` passes its validation. -/
theorem validation_at {s : State} {x : BankId} {base : Nat} (ha : ∀ o, s.bankAddress x o = base + o)
    (hcl : ∀ a, s.memory.health a = .clean) (h0 : s.memory.word base = 41) (h4 : s.memory.word (base + 4) = 0)
    (h8 : s.memory.word (base + 8) = 0x6F407582) (hb : (wordRun (base + 64) 240).map s.memory.word = bankBody) :
    (s.validate x).1 = ⟨none, some 41⟩ := by
  unfold State.validate State.validationReads
  rw [State.readThrough, ha, readWord_clean (hcl _), Nat.add_zero, h0]
  dsimp only
  rw [if_neg (by decide), State.readThrough, ha, readWord_clean (hcl _), h4]
  dsimp only
  rw [if_neg (by simp), readThrough_bind, readWords_clean _ (fun a _ => hcl a), ha, ha]
  have he : wordRun (base + 64) (240 + 4 * (0 : Word).toNat) = wordRun (base + 64) 240 := rfl
  rw [he]
  simp only [List.map_cons, h8]
  rw [hb]
  have : (bankTests 0x6F407582 bankBody).findSome? id = none := by
    unfold bankTests
    dsimp only
    rw [crc_bankBody]
    decide +kernel
  rw [this]
  rfl

/-- R48: the bank passes its validation. -/
theorem test_validation {s : State} (hm : s.memory = bankMemory) (hc : s.cfg = configured) :
    (s.validate .a).1 = ⟨none, some 41⟩ := by
  refine validation_at (base := 65536) (fun o => ?_) (fun a => ?_) ?_ ?_ ?_ ?_
  · simp [State.bankAddress, State.regionBase, State.region, hc, configured, regionsUsed, bankKind]
  · rw [hm]; exact clean_bankMemory a
  · rw [hm]; decide +kernel
  · rw [hm]; decide +kernel
  · rw [hm]; decide +kernel
  · rw [hm]; exact body_bankMemory

/-- SCANNING, both banks VALIDATING. -/
def scanning : State :=
  { State.reset with
    startUp := unitAt .scanning, cfg := configured
    banks := { State.reset.banks with a := ⟨some .validating, 0, 0⟩, b := ⟨some .validating, 0, 0⟩ } }

theorem witness_BankSelection :
    scanning.unit = .scanning ∧ scanning.startUp.selectionDone = false
    ∧ (∀ x, (scanning.bank x).state = some .validating)
    ∧ ({ scanning with memory := bankMemory } : State).readUnitRecord.1.bind (·.bank) = none
    ∧ (({ scanning with memory := bankMemory } : State).readUnitRecord.2.validate .a).1.failure = none := by
  refine ⟨rfl, rfl, fun x => by cases x <;> rfl, by decide +kernel, ?_⟩
  rw [test_validation (by decide +kernel) (by decide +kernel)]

/-- The Unit Record's first copy: Released 3, bank A, Version 41, and its Mark. -/
def recordMemory : Memory :=
  { bankMemory with bytes := [(16384, 3), (16388, 1), (16392, 41), (16396, 239), (16397, 145), (16398, 58),
                              (16399, 109)] ++ bankMemory.bytes }

theorem witness_BankSelection_named :
    ({ scanning with memory := recordMemory } : State).readUnitRecord.1 = some ⟨3, some .a, 41⟩ := by decide +kernel

/-- R54: a bank whose Version is 0 becomes EMPTY, and no bank is ACTIVE. -/
theorem test_bankSelection :
    (after scanning .bankSelection).banks.a.state = some .empty
    ∧ (after scanning .bankSelection).banks.b.state = some .empty
    ∧ (after scanning .bankSelection).startUp.selectionDone = true := by decide +kernel

/-- SCANNING with selection done. -/
def selected : State := { scanning with startUp := { unitAt .scanning with selectionDone := true } }

theorem witness_StartUpScan :
    selected.unit = .scanning ∧ selected.startUp.selectionDone = true ∧ selected.startUp.scanDone = false
    ∧ selected.journal.job = none ∧ selected.processor.words = [] ∧ selected.memory.wf = true
    ∧ 64 ≤ selected.regionSize .journal ∧ selected.journal.unrecorded = 0
    ∧ (after selected .startUpScan).journal.unrecorded = 0 := by decide +kernel

/-- R116, R118: in an empty region the RESTART entry takes sequence 1, and the invalid Unit Record is written. -/
theorem test_startUpScan :
    (after selected .startUpScan).journal.next = 2
    ∧ (after selected .startUpScan).memory.word (16384 + 64) = 1
    ∧ (after selected .startUpScan).memory.word (16384 + 12) = 0x6D3A91C4 := by decide +kernel

/-- SCANNING with both works done. -/
def scanned : State :=
  { scanning with startUp := { unitAt .scanning with selectionDone := true, scanDone := true } }

theorem witness_EnterReady :
    scanned.unit = .scanning ∧ scanned.startUp.selectionDone = true ∧ scanned.startUp.scanDone = true
    ∧ scanned.cfg.lineEnabled = true ∧ scanned.emergency = false ∧ scanned.reader.owner = none
    ∧ ({ scanned with emergency := true } : State).emergency = true
    ∧ ({ scanned with cfg := { configured with lineEnabled := false } } : State).cfg.lineEnabled = false := by
  decide +kernel

theorem test_enterReady :
    (after scanned .enterReady).unit = .ready ∧ (after scanned .enterReady).line.membership = .listen
    ∧ (after scanned .enterReady).attn = true := by decide +kernel

theorem witness_Reset : State.reset.unit = .inReset ∧ ready.unit ≠ .inReset := by decide

theorem test_reset :
    (after ready .resetNAssert).unit = .inReset ∧ (after ready .resetNAssert).configSelect = false
    ∧ (after State.reset .resetNRelease).unit = .loading
    ∧ (after State.reset .resetNRelease).configSelect = true := by decide +kernel

/-- Bank A VALIDATING for the command in slot 0. -/
def validating (m : Memory) : State :=
  { ready with
    memory := m, cfg := configured
    banks := { ready.banks with a := ⟨some .validating, 0, 0⟩, b := ⟨some .active, 1, 40⟩, validation := some (.a, 0) }
    slots := ready.slots.set 0
      { busy := true, lastTaken := 1, reading := none, command := none, result := none, detailValue := 0 } }

theorem witness_BankValidation :
    (validating ⟨[], []⟩).banks.validation = some (.a, 0) ∧ (validating ⟨[], []⟩).memory.wf = true
    ∧ ((validating ⟨[], []⟩).bank .a).state = some .validating
    ∧ (validating ⟨[], []⟩).memory.health ((validating ⟨[], []⟩).bankAddress .a 0) = .clean
    ∧ (validating ⟨[], []⟩).memory.word ((validating ⟨[], []⟩).bankAddress .a 0) = 0
    ∧ (validating ⟨[], [(65536, 3)]⟩).memory.wf = true
    ∧ (validating ⟨[], [(65536, 3)]⟩).memory.health 65536 = .uncorrectable
    ∧ (validating ⟨[(65536, 1), (65541, 16)], []⟩).memory.word 65536 ≠ 0
    ∧ ((validating ⟨[], []⟩).regionSize .bankA - 1024) / 16
        < ((validating ⟨[(65536, 1), (65541, 16)], []⟩).memory.word 65540).toNat
    ∧ ((validating bankMemory).validate .a).1 = ⟨none, some 41⟩ ∧ (validating bankMemory).memory.wf = true :=
  ⟨rfl, rfl, rfl, by decide +kernel, by decide +kernel, by decide +kernel, by decide +kernel, by decide +kernel,
   by decide +kernel, test_validation rfl rfl, by decide +kernel⟩

/-- R41: a bank of 64 KiB holds 4,032 deny entries; a Version of 0 fails with detail VERSION, and the bank is STAGING. -/
theorem test_bankValidationEnd :
    ready.denyLimit .a = 4032
    ∧ (after (validating ⟨[], []⟩) .bankValidationEnd).banks.a.state = some .staging
    ∧ (after (validating ⟨[], []⟩) .bankValidationEnd).memory.word 4120
        = resultWord 1 .badTable .version := by decide +kernel

theorem witness_BankSwitch :
    (withCommand ready [10, 2, 2, 0, 0, 0]).CommandReady go
    ∧ ((withCommand ready [10, 2, 2, 0, 0, 0]).commandRecord 0 .maint).code = 10
    ∧ ((withCommand ready [10, 2, 2, 0, 0, 0]).commandRecord 0 .maint).authority = .maint
    ∧ ((withCommand ready [10, 2, 2, 0, 0, 0]).commandRecord 0 .maint).target.toNat = 2
    ∧ ready.banks.validation = none ∧ ready.banks.b.state = some .staging
    ∧ (withCommand ready [10, 1, 2, 0, 0, 0]).CommandReady go ∧ ready.banks.a.state = some .active
    ∧ (withCommand ready [10, 3, 2, 0, 0, 0]).CommandReady go ∧ (withCommand ready [10, 0, 2, 0, 0, 0]).CommandReady go
    ∧ (withCommand { ready with banks := { ready.banks with validation := some (.a, 3) } }
        [10, 2, 2, 0, 0, 0]).CommandReady go :=
  ⟨ready_command _ _ (by decide +kernel), by decide +kernel, by decide +kernel, by decide +kernel, rfl, rfl,
   ready_command _ _ (by decide +kernel), rfl, ready_command _ _ (by decide +kernel),
   ready_command _ _ (by decide +kernel), ready_command _ _ (by decide +kernel)⟩

theorem test_bankSwitch :
    (after (withCommand ready [10, 2, 2, 0, 0, 0]) (.bankSwitch go)).banks.b.state = some .validating
    ∧ outcomeOf ready [10, 1, 2, 0, 0, 0] .bankSwitch = (CommandOutcome.refusedState.code, 0) := by decide +kernel

theorem witness_BankWrite :
    ready.ProcessorTurn ∧ ready.PathIdle
    ∧ ready.judge (ready.bankAddress .b 0 / 4 * 4) (.processor .maint) (.write 0xF 1) = .ok (.bank .b)
    ∧ ready.judge (ready.bankAddress .a 65532 / 4 * 4) (.processor .maint) (.write 0xF 1) = .error .bankLocked
    ∧ ready.judge (ready.bankAddress .b 0 / 4 * 4) (.processor .service) (.write 0xF 1) = .error .rights
    ∧ ready.memory.wf = true ∧ ready.memory.health (ready.bankAddress .b 0 / 4 * 4) = .clean := by
  refine ⟨⟨sound_of (by decide +kernel), rfl, rfl⟩, (idle_of (by decide +kernel)).1, by rfl, by rfl, by rfl, by decide +kernel,
    by decide +kernel⟩

theorem test_bankWrite :
    (after { ready with banks := { ready.banks with b := ⟨some .valid, 0, 0⟩ } }
      (.bankWrite .b 0 .maint 0xF 7)).banks.b.state = some .staging
    ∧ (after ready (.bankWrite .b 0 .maint 0x1 0x307)).memory.word 131072 = 7
    ∧ (after ready (.bankWrite .a 0 .maint 0xF 7)).faultRecord.first.map (·.kind) = some .bankLocked := by
  decide +kernel

/-! ### The journal -/

theorem witness_JournalRelease :
    (withCommand reissued [13, 0, 1, 4, 0, 0]).CommandReady go
    ∧ ((withCommand reissued [13, 0, 1, 4, 0, 0]).commandRecord 0 .maint).code = 13
    ∧ reissued.journal.release = none ∧ reissued.journal.released < 4 ∧ 4 < reissued.journal.next
    ∧ (∀ n, (reissued.lane n).pendingSeq = none ∨ (reissued.lane n).pendingSeq = some 5)
    ∧ (withCommand reissued [13, 0, 1, 5, 0, 0]).CommandReady go ∧ (reissued.lane 0).pendingSeq = some 5
    ∧ (withCommand reissued [13, 0, 1, 8, 0, 0]).CommandReady go ∧ (withCommand reissued [13, 0, 1, 0, 0, 0]).CommandReady go
    ∧ (withCommand { reissued with journal := { reissued.journal with release := some (1, 2) } }
        [13, 0, 1, 4, 0, 0]).CommandReady go :=
  ⟨ready_command _ _ (by decide +kernel), by decide +kernel, rfl, by decide, by decide, by decide +kernel,
   ready_command _ _ (by decide +kernel), rfl, ready_command _ _ (by decide +kernel),
   ready_command _ _ (by decide +kernel), ready_command _ _ (by decide +kernel)⟩

theorem test_journalRelease :
    (after (after (withCommand reissued [13, 0, 1, 4, 0, 0]) (.journalRelease go)) .unitRecordRewriteComplete).journal.released
      = 4
    ∧ outcomeOf reissued [13, 0, 1, 5, 0, 0] .journalRelease
      = (CommandOutcome.refusedState.code, Detail.openPending.number)
    ∧ outcomeOf reissued [13, 0, 1, 8, 0, 0] .journalRelease = (CommandOutcome.badSequence.code, 0) := by decide +kernel

/-- An append in progress, none of its words written, for the step `next` of a lane at `l`. -/
def appending (l : LaneContext) (next : AfterAppend) : State :=
  let s := laneAt { l with appending := true }
  { s with journal := { s.journal with
      job := some (.append 8 #v[8, 2, 0, 0, 0, 0, 0, 8] 0 (some 0) next) } }

theorem witness_AppendComplete :
    (appending decidedLane (.release 0 0)).journal.queue = [] ∧ (appending decidedLane (.release 0 0)).memory.wf = true
    ∧ (∀ n, ((appending decidedLane (.release 0 0)).lane n).waiting = [])
    ∧ (appending decidedLane (.toIdle 0 none)).journal.job
        = some (.append 8 #v[8, 2, 0, 0, 0, 0, 0, 8] 0 (some 0) (.toIdle 0 none))
    ∧ (appending decidedLane (.release 0 0)).slotAddress 0 6 + 4
        ≤ (appending decidedLane (.release 0 0)).regionBase .journal + 32 + 32 * (8 % 255)
    ∧ (appending decidedLane (.release 0 0)).regionSize .journal / 32 - 1 = 255
    ∧ (appending decidedLane (.release 0 0)).journal.next - (appending decidedLane (.release 0 0)).journal.released
        < 7 * 255 / 8
    ∧ 7 * 255 / 8 ≤ 223 := by decide +kernel

theorem test_appendComplete :
    (after (appending decidedLane (.credit 0 none)) .journalAppendComplete).journal.next = 9
    ∧ ((after (appending decidedLane (.credit 0 none)) .journalAppendComplete).gate 0).state = .opened
    ∧ (after (appending decidedLane (.credit 0 none)) .journalAppendComplete).memory.word (16384 + 32 + 32 * 8 + 28) = 8
    ∧ ((after (appending decidedLane (.rescreen 0)) .journalAppendComplete).lane 0).state = .screening := by
  decide +kernel

/-- The Unit Record being rewritten for a JOURNAL_RELEASE of sequence 4 from slot 1. -/
def rewriting (releasing : Bool) : State :=
  { ready with journal := { ready.journal with
      next := 8, job := some (.rewrite (unitRecordWords 4 (some .a) 41) 0 releasing), release := some (1, 4) } }

theorem witness_RewriteComplete :
    (rewriting true).journal.job = some (.rewrite (unitRecordWords 4 (some .a) 41) 0 true)
    ∧ (rewriting true).journal.queue = [] ∧ (rewriting true).memory.wf = true
    ∧ (rewriting true).journal.release = some (1, 4)
    ∧ (rewriting true).slotAddress 1 6 + 4 ≤ (rewriting true).regionBase .journal
    ∧ (rewriting false).journal.job = some (.rewrite (unitRecordWords 4 (some .a) 41) 0 false) := by decide +kernel

theorem test_rewriteComplete :
    (after (rewriting true) .unitRecordRewriteComplete).memory.word 16384 = 4
    ∧ (after (rewriting true) .unitRecordRewriteComplete).memory.word 16412 = 4 ^^^ 1 ^^^ 41 ^^^ 0x6D3A91C4
    ∧ (after (rewriting false) .unitRecordRewriteComplete).journal.released = 0 := by decide +kernel

/-! ### The step and the invariants -/

/-- `ready` with two commands waiting. -/
def waitingTwo : State := { ready with pending := [.serviceClockAdvance, .slotBoundary] }

theorem witness_StepRunsTheFrontCommand :
    waitingTwo.pending = .serviceClockAdvance :: [.slotBoundary] ∧ ready.pending = [] := ⟨rfl, rfl⟩

theorem test_step :
    (match step waitingTwo with | .next t => (t.pending, t.clock) | .fault _ | .refused _ => ([], none))
      = ([.slotBoundary], some ⟨900, 3601⟩) := by decide +kernel

theorem bounded_of (s : State)
    (h : decide (s.denyList.length ≤ 256 ∧ s.sightings.length ≤ 512 ∧ s.line.queue.length ≤ 32 ∧ s.budget ≤ 255
      ∧ s.faultRecord.further ≤ 255 ∧ s.arbiter.losses ≤ 4 ∧ s.journal.unrecorded ≤ 65535 ∧ s.line.dropped ≤ 65535
      ∧ s.line.framingErrors ≤ 255) = true) : s.Bounded := by
  obtain ⟨h1, h2, h3, h4, h5, h6, h7, h8, h9⟩ := of_decide_eq_true h
  exact ⟨h1, h2, h3, h4, h5, h6, h7, h8, h9⟩

theorem witness_StepKeeps :
    waitingTwo.memory.wf = true ∧ waitingTwo.Bounded ∧ waitingTwo.Sound ∧ (∀ n, (waitingTwo.gate n).Timed)
    ∧ ∃ t, step waitingTwo = .next t :=
  ⟨by decide +kernel, bounded_of _ (by decide +kernel), sound_of (by decide +kernel),
   fun n => by
     have h : waitingTwo.gate n = Gate.reset := by revert n; decide +kernel
     rw [h]; exact ⟨by decide, by decide, by decide⟩,
   _, rfl⟩

theorem witness_ChangedMirrorIsStale :
    (after ready .serviceClockAdvance).unit = .ready
    ∧ ready.mirrorWord 2 ≠ (after ready .serviceClockAdvance).mirrorWord 2
    ∧ 2 ∈ (after ready .serviceClockAdvance).status.stale := by decide +kernel

/-! ### The line's commands -/

/-- `ready` with the line in a membership state, in a check mode, with one message in flight and one not. -/
def lineAt (m : Membership) (mode : Option CheckMode) : State :=
  { ready with line := { Line.reset with
      membership := m, mode := mode, running := decide (m ≠ .silent), aligned := true
      queue := [⟨.deny 7 .clone, true⟩, ⟨.sighting 9 4 100, false⟩] } }

theorem witness_LineCommands :
    (withCommand (lineAt .joined none) [17, 0, 2, 0, 0, 0]).CommandReady go
    ∧ ((withCommand (lineAt .joined none) [17, 0, 2, 0, 0, 0]).commandRecord 0 .maint).code = 17
    ∧ ((withCommand (lineAt .joined none) [17, 0, 2, 0, 0, 0]).commandRecord 0 .maint).authority = .maint
    ∧ (withCommand { ready with cfg := { configured with lineEnabled := false } } [17, 0, 2, 0, 0, 0]).CommandReady go
    ∧ (withCommand (lineAt .joined none) [18, 0, 2, 1, 2, 0]).CommandReady go
    ∧ ((withCommand (lineAt .joined none) [18, 0, 2, 1, 2, 0]).commandRecord 0 .maint).code = 18
    ∧ (withCommand (lineAt .listen none) [18, 0, 2, 2, 1, 0]).CommandReady go
    ∧ (withCommand (lineAt .joined none) [18, 0, 2, 0, 1, 0]).CommandReady go
    ∧ (withCommand (lineAt .joined none) [18, 0, 2, 1, 3, 0]).CommandReady go
    ∧ (withCommand (lineAt .check (some .line)) [19, 0, 2, 0, 0, 0]).CommandReady go
    ∧ ((withCommand (lineAt .check (some .line)) [19, 0, 2, 0, 0, 0]).commandRecord 0 .maint).code = 19
    ∧ (withCommand (lineAt .check (some .wrap)) [19, 0, 2, 0, 0, 0]).CommandReady go
    ∧ (withCommand (lineAt .joined none) [19, 0, 2, 0, 0, 0]).CommandReady go :=
  ⟨ready_command _ _ (by decide +kernel), by decide +kernel, by decide +kernel, ready_command _ _ (by decide +kernel),
   ready_command _ _ (by decide +kernel), by decide +kernel, ready_command _ _ (by decide +kernel),
   ready_command _ _ (by decide +kernel), ready_command _ _ (by decide +kernel), ready_command _ _ (by decide +kernel),
   by decide +kernel, ready_command _ _ (by decide +kernel), ready_command _ _ (by decide +kernel)⟩

theorem test_lineRestart :
    (after (withCommand (lineAt .joined none) [17, 0, 2, 0, 0, 0]) (.lineRestart go)).line
      = { Line.reset with membership := .listen, running := true, silenceTimer := true } := by decide +kernel

theorem test_lineCheckStart :
    (after (withCommand (lineAt .joined none) [18, 0, 2, 2, 1, 0]) (.lineCheckStart go)).line.mode = some .wrap
    ∧ outcomeOf (lineAt .listen none) [18, 0, 2, 2, 1, 0] .lineCheckStart = (CommandOutcome.refusedState.code, 0) := by
  decide +kernel

theorem test_lineCheckStop :
    (after (withCommand (lineAt .check (some .wrap)) [19, 0, 2, 0, 0, 0]) (.lineCheckStop go)).line.membership = .listen
    ∧ (after (withCommand (lineAt .check (some .line)) [19, 0, 2, 0, 0, 0]) (.lineCheckStop go)).line.membership
      = .joined := by decide +kernel

/-! ### The ports and the arbiter -/

theorem witness_ProcessorWords :
    ready.ProcessorTurn
    ∧ ready.judge (0x40004 / 4 * 4) (.processor .service) .read = .ok (.plain (Quad.all true))
    ∧ ready.judge (0x1000000 / 4 * 4) (.processor .service) .read = .error .outside
    ∧ ready.judge (0x3000 / 4 * 4) (.processor .maint) (.write 0xF 0) = .error .outside
    ∧ ready.judge (0x40004 / 4 * 4) (.processor .service) (.write 0xF 0) = .ok (.plain (Quad.all true))
    ∧ ready.judge (0x40004 / 4 * 4) (.processor .service) (.write 0 0) = .ok (.plain (Quad.all true))
    ∧ ready.judge (0x101C / 4 * 4) (.processor .service) (.write 0xF 1) = .ok (.commandWord 0 7)
    ∧ ready.judge (0x20000 / 4 * 4) (.processor .maint) (.write 0 0) = .ok (.bank .b)
    ∧ ready.judge (0x20000 / 4 * 4) (.processor .maint) (.write 0xF 0) = .ok (.bank .b) :=
  ⟨⟨sound_of (by decide +kernel), rfl, rfl⟩, by rfl, by rfl, by rfl, by rfl, by rfl, by rfl, by rfl, by rfl⟩

/-- R166: a write that the port watches waits for the arbiter as any other does, unless it enables no byte. -/
theorem test_watchedWord :
    (after ready (.processorWordWrite 0x20000 .maint 0xF 7)).processor.taken = true
    ∧ (after ready (.processorWordWrite 0x20000 .maint 0xF 7)).memory = ready.memory
    ∧ (after { ready with banks := { ready.banks with b := ⟨some .valid, 0, 0⟩ } }
        (.processorWordWrite 0x20000 .maint 0 7)).banks.b.state = some .staging
    ∧ (after (granted ready) (.readerWordAccess ⟨0, 0⟩ 64 (.write 0xF 1))).reader.taken = true := by decide +kernel

theorem test_processorRead :
    (after ready (.processorWordRead 0x1000008 .service)).processor.answers = [.failed (some 0xFFFFFFFF)]
    ∧ (after (after ready (.processorWordRead 0x40004 .service)) .memoryArbiterChoice).processor.answers
      = [.done (some 0)] := by decide +kernel

theorem test_processorWrite :
    (after (after ready (.processorWordWrite 0x40004 .service 0x5 0x01020304)) .memoryArbiterChoice).memory.word 0x40004
      = 0x00020004
    ∧ (after ready (.processorWordWrite 0x3000 .maint 0xF 0)).faultRecord.first.map (·.kind) = some .outside := by
  decide +kernel

/-- `ready` with a processor word admitted and a consecutive-loss count, a word of the Status Writer waiting or not. -/
def contended (access : Access) (losses : Nat) (status : Bool) : State :=
  { ready with
    processor := { ready.processor with words := [⟨0x40004, .service, access⟩], taken := true }
    status := { ready.status with stale := if status then [2] else [], changeCount := some 0 }
    arbiter := { losses := losses, requests := if status then [.statusArea] else [] } }

theorem witness_Sound : ∀ c ∈ [contended .read 4 true, contended .read 3 true, contended .read 0 false, ready], c.Sound :=
  fun c hc => sound_of (List.all_eq_true.1
    (by decide +kernel : [contended .read 4 true, contended .read 3 true, contended .read 0 false, ready].all soundly = true)
    c hc)

theorem witness_ArbiterCountsLosses :
    (contended .read 4 true).arbiter.losses ≤ 4 ∧ (contended .read 4 true).processor.taken = true
    ∧ (contended .read 3 true).arbiter.losses < 4
    ∧ [Requester.reader, .journal, .composer, .screening, .status, .bankControl, .startUp].any (contended .read 3 true).waits
        = true
    ∧ [Requester.reader, .journal, .composer, .screening, .status, .bankControl, .startUp].any
        (contended .read 0 false).waits = false
    ∧ ready.processor.taken = false
    ∧ [Requester.reader, .journal, .composer, .screening, .status, .bankControl, .startUp].any ready.waits = false := by
  decide +kernel

theorem test_arbiterChoice :
    (after (contended .read 3 true) .memoryArbiterChoice).arbiter.losses = 4
    ∧ (after (contended .read 3 true) .memoryArbiterChoice).processor.taken = true
    ∧ (after (contended .read 4 true) .memoryArbiterChoice).arbiter.losses = 0 := by decide +kernel

theorem witness_ProcessorWordIsServed :
    (contended .read 4 true).unit = .ready
    ∧ (contended .read 4 true).processor.words = [⟨0x40004, .service, .read⟩] ∧ (contended .read 4 true).memory.wf = true
    ∧ (contended .read 0 false).memory.health 0x40004 = .clean
    ∧ (upset 1 0x40004 (contended .read 0 false)).memory.health 0x40004 = .corrected
    ∧ (upset 3 0x40004 (contended .read 0 false)).memory.health 0x40004 = .uncorrectable
    ∧ (upset 3 0x40004 (contended (.write 0x5 1) 0 false)).memory.wf = true
    ∧ (upset 3 0x40004 (contended (.write 0x5 1) 0 false)).processor.words = [⟨0x40004, .service, .write 0x5 1⟩]
    ∧ (upset 1 0x40004 (contended (.write 0x5 1) 0 false)).memory.health 0x40004 = .corrected
    ∧ (upset 3 0x40004 (contended (.write 0xF 1) 0 false)).processor.words = [⟨0x40004, .service, .write 0xF 1⟩] := by
  decide +kernel

/-- R168 to R170: a correction that takes the budget to 0 sets ECC_BUDGET; an uncorrectable read gives all ones. -/
theorem test_eccRead :
    (after { upset 1 0x40004 (contended .read 0 false) with budget := 1 } .memoryArbiterChoice).budget = 0
    ∧ (after { upset 1 0x40004 (contended .read 0 false) with budget := 1 } .memoryArbiterChoice).noticed .eccBudget
      = true
    ∧ (after (upset 3 0x40004 (contended .read 0 false)) .memoryArbiterChoice).processor.answers
      = [.failed (some 0xFFFFFFFF)] := by decide +kernel

/-- `ready` with the requests of modems 0 and 2 raised and modem 0 the owner, its access not yet answered or none. -/
def owned (words : List ReaderWord) : State :=
  { ready with reader := { ready.reader with
      requests := ⟨true, false, true, false⟩, owner := some 0, last := 0, holdTimer := true, words := words
      taken := !words.isEmpty } }

theorem witness_RequestsMoveTheGrant :
    ready.unit = .ready ∧ ready.reader.owner = none ∧ (owned []).reader.owner = some 0
    ∧ (owned []).reader.words = [] ∧ (owned [⟨0, 0x40000, .read⟩]).reader.words ≠ [] ∧ some (0 : Lane) ≠ some 2 := by
  decide

theorem test_requests :
    (after ready (.requestRise ⟨false, true, true, false⟩)).reader.owner = some 1
    ∧ (after (owned []) (.requestDrop 0)).reader.owner = some 2
    ∧ (after (owned [⟨0, 0x40000, .read⟩]) (.requestDrop 0)).reader.owner = some 0 := by decide +kernel

theorem witness_GrantHoldExpiry :
    (owned []).unit = .ready ∧ (owned []).reader.owner = some 0 ∧ (owned []).reader.holdTimer = true
    ∧ (owned []).reader.requests.get 0 = true ∧ ((owned []).lane 0).state = .idle
    ∧ ((granted decided).lane 0).state = .decided ∧ (granted decided).reader.requests.get 0 = true := by decide

theorem test_grantHold :
    (after (owned []) .grantHoldExpiry).reader.owner = some 2
    ∧ (after (owned []) .grantHoldExpiry).reader.barred = ⟨true, false, false, false⟩
    ∧ (after (owned []) .grantHoldExpiry).faultRecord.first
      = some ⟨.grantHold, .reader 0, none, none, none, some ⟨900, 3600⟩⟩ := by decide +kernel

/-! ### Screening -/

/-- A run of lane 0 before its step `x`. -/
def runAt (x : RunStage) : Run := { Run.start 0 with stage := x, now := some ⟨900, 3600⟩ }

/-- Lane 0's context during a run: `img` landed, bank A pinned, two entries reserved. -/
def screeningLane (img : Image) : LaneContext :=
  { LaneContext.reset with
    state := .screening, landed := some img, pinned := some .a, reservation := 2
    arrival := some ⟨.good, true, some ⟨900, 3590⟩⟩ }

/-- `ready` with a run of lane 0 before its step `x`, bank A in memory. -/
def running (x : RunStage) (img : Image) : State :=
  { laneAt (screeningLane img) with memory := bankMemory, screening := { queue := [2], run := some (runAt x) } }

/-- The same with the gate of lane 0 set to EXIT. -/
def runningOut (x : RunStage) (img : Image) : State :=
  { running x img with gates := ready.gates.set 0 { Gate.reset with direction := .exit } }

theorem running_data (x : RunStage) (img : Image) :
    (running x img).screening.run = some (runAt x) ∧ (runAt x).stage = x ∧ (runAt x).now = some ⟨900, 3600⟩
    ∧ ((running x img).lane (runAt x).lane).pinned = some .a ∧ ((running x img).lane (runAt x).lane).landed = some img :=
  ⟨rfl, rfl, rfl, rfl, rfl⟩

theorem clean_running (x : RunStage) (img : Image) (a : Nat) : (running x img).memory.health a = .clean :=
  clean_bankMemory a

/-- Lane 0 waiting in the Screening Queue, a LANE_RESET of slot 3 waiting for its run or not. -/
def queued (reset : Bool) : State :=
  { laneAt { screeningLane card with resetRequested := reset, resetSlot := if reset then some 3 else none } with
    screening := { queue := [0, 2], run := none } }

theorem witness_RunStarts :
    (queued true).screening.run = none ∧ (queued true).screening.queue = 0 :: [2]
    ∧ ((queued false).lane 0).resetRequested = false ∧ ((queued true).lane 0).resetRequested = true
    ∧ ((queued true).lane 0).resetSlot = some 3 ∧ (queued true).memory.wf = true := by decide

theorem test_runStart :
    (after (queued false) .screeningRunStart).screening.run.map (·.lane) = some 0
    ∧ ((after (queued true) .screeningRunStart).lane 0).state = .idle
    ∧ (after (queued true) .screeningRunStart).screening.queue = [2] := by decide +kernel

/-- A run before its first check: the card in the landing area, the lane's context changed by `f`. -/
def arrived (f : LaneContext → LaneContext) : State :=
  { laneAt (f { screeningLane card with landed := none, reservation := 0 }) with
    memory := ⟨cardBytes 12 232, []⟩, screening := { queue := [], run := some (Run.start 0) } }

/-- A lane that waits for its reservation, with the free space that is left. -/
def reserving (free : Nat) : State :=
  { running .reserving card with
    journal := { ready.journal with next := 8, reservationTotal := 248 - free, job := some (.reserve 0) } }

theorem witness_UnitConditions :
    (arrived id).screening.run = some (Run.start 0) ∧ (Run.start 0).stage = .landing
    ∧ ((arrived id).lane 0).arrival = some ⟨.good, true, some ⟨900, 3590⟩⟩
    ∧ ((arrived (fun l => { l with arrival := some ⟨.collision, true, none⟩ })).lane 0).arrival
        = some ⟨.collision, true, none⟩
    ∧ ((arrived (fun l => { l with arrival := some ⟨.readError, true, none⟩ })).lane 0).arrival
        = some ⟨.readError, true, none⟩
    ∧ ((arrived (fun l => { l with arrival := some ⟨.good, false, none⟩ })).lane 0).arrival = some ⟨.good, false, none⟩
    ∧ (∀ i : Fin 16, (arrived id).memory.health ((arrived id).laneAddress 0 (4 * i.val)) = .clean)
    ∧ (upset 3 0 (arrived id)).memory.health ((arrived id).laneAddress 0 (4 * (0 : Fin 16).val)) = .uncorrectable
    ∧ (arrived id).clock = some ⟨900, 3600⟩ ∧ ((arrived id).lane 0).pinned = some .a
    ∧ ((arrived id).bank .a).state ≠ some .damaged ∧ (arrived id).emergency = false
    ∧ ((arrived id).gate 0).credits.length < 3
    ∧ ({ arrived id with clock := none } : State).clock = none
    ∧ ((arrived (fun l => { l with pinned := none })).lane 0).pinned = none
    ∧ (({ arrived id with banks := { ready.banks with a := ⟨some .damaged, 1, 41⟩ } } : State).bank .a).state
        = some .damaged
    ∧ ({ arrived id with emergency := true } : State).emergency = true
    ∧ 3 ≤ (({ arrived id with gates := ready.gates.set 0 { Gate.reset with
        state := .opened, credits := List.replicate 3 ⟨7, none⟩ } } : State).gate 0).credits.length
    ∧ (reserving 2).journal.job = some (.reserve 0) ∧ (reserving 2).freeSpace = 2 ∧ (reserving 1).freeSpace = 1 := by
  decide +kernel

theorem test_landedImage :
    ((after (arrived id) .landedImageRead).lane 0).landed = some card
    ∧ (after (arrived id) .landedImageRead).journal.job = some (.reserve 0)
    ∧ (after { arrived id with emergency := true } .landedImageRead).screening.run.bind (·.decision)
      = some .emergency := by decide +kernel

theorem test_reservation :
    ((after (reserving 2) .journalReservation).lane 0).reservation = 2
    ∧ (after (reserving 1) .journalReservation).screening.run.bind (·.decision) = some .journalFull
    ∧ (after (reserving 1) .journalReservation).noticed .journalFull = true := by decide +kernel

/-- The state, its pins and its data meet the hypotheses for the card and for the cards that each test refuses first. -/
theorem witness_FormatAndTag :
    (∀ img : Image, (running .format img).memory.health ((running .format img).bankAddress .a (612 + 8 * cardProduct img))
      = .clean)
    ∧ cardFormat (card.set 0 0) ≠ 1 ∧ cardSerial ((card.set 1 0).set 2 0) = 0
    ∧ 4 < cardCarryCount (card.set 0 (card[0] + 0x50000000))
    ∧ cardGeneration (card.set 0 (card[0] - 0x200)) = 5 ∧ cardGeneration (card.set 0 (card[0] - 0x100)) = 6 :=
  ⟨fun _ => clean_running _ _ _, by decide, by decide, by decide, by decide, by decide⟩

/-- Bank A with the Kind UNUSED (3) in the card's product row. -/
def unusedRow : State :=
  { running .format card with
    memory := { bankMemory with bytes := bankMemory.bytes.map fun c => if c.1 = 66164 then (c.1, 3) else c } }

/-- The clean UNUSED row meets the hypotheses of FormatAndTagAreChecked past the tests of Format, Serial and Carry Count. -/
theorem witness_FormatUnusedRow :
    unusedRow.screening.run = some (runAt .format) ∧ (unusedRow.lane 0).pinned = some .a
    ∧ (unusedRow.lane 0).landed = some card ∧ unusedRow.memory.wf = true
    ∧ unusedRow.memory.health (unusedRow.bankAddress .a (612 + 8 * cardProduct card)) = .clean
    ∧ bits (unusedRow.memory.word (unusedRow.bankAddress .a (612 + 8 * cardProduct card))) 0 8 = 3
    ∧ cardFormat card = 1 ∧ cardSerial card ≠ 0 ∧ cardCarryCount card ≤ 4 := by decide +kernel

/-- R23: a card of an UNUSED product is UNREADABLE with reason PRODUCT. -/
theorem test_formatUnusedRow :
    (after unusedRow .formatCheck).screening.run.bind (·.decision) = some (.unreadable .product) := by decide +kernel

/-- R24: the card's own tag passes; without its key, or with an entry of a RETIRED key, the verdict is FORGED. -/
theorem test_formatCheck :
    (running .format card).endFormat .a ((running .format card).readThrough ((running .format card).formatReads .a card)).1
      = (running .format card).advanceRun .deny
    ∧ (after (running .format (card.set 0 (card[0] - 0x200))) .formatCheck).screening.run.bind (·.decision)
      = some .forgedKey
    ∧ (after (running .format (card.set 0 0)) .formatCheck).screening.run.bind (·.decision)
      = some (.unreadable .format) := by
  refine ⟨?_, by decide +kernel, by decide +kernel⟩
  unfold State.formatReads
  rw [show imageRefusal card = none by decide]
  have hb : (running .format card).readThrough ((running .format card).bankReads .a [612 + 8 * cardProduct card])
      = (some [0x01F40001], running .format card) := by decide +kernel
  dsimp only
  rw [readThrough_bind, hb]
  have ht : tagRefusal (running .format card).cfg.keys card = none := by
    unfold tagRefusal
    rw [show keyForCheck (running .format card).cfg.keys (cardGeneration card) = some 0xDEADBEEF by decide]
    simp only [test_cardTag, if_true]
  dsimp only [State.readThrough]
  rw [if_neg (by decide), ht]
  rfl

/-- Bank A with `n` deny entries, of Serials 3, 5, 7 and so on, each of reason 4 with flags 9. -/
def denyBank (n : Nat) : Memory :=
  { bytes := (if n = 0 then [] else [(65540, BitVec.ofNat 8 n)]) ++ (List.range n).flatMap (fun i =>
      [(66560 + 16 * i, BitVec.ofNat 8 (2 * i + 3)), (66568 + 16 * i, 4), (66569 + 16 * i, 9)])
    upsets := [] }

/-- A run before its deny lookup, the section of `n` entries, the card of Serial `x`. -/
def denyRun (n : Nat) (x : Word) : State :=
  { running .deny ((card.set 1 x).set 2 0) with memory := denyBank n, denyList := (denying 3).denyList }

theorem witness_DenyLookup :
    (∀ n x a, (denyRun n x).memory.health a = .clean)
    ∧ ((denyRun 3 3).memory.word ((denyRun 3 3).bankAddress .a 4)).toNat = 3
    ∧ (∀ i < 2,
        ((denyRun 3 3).memory.word ((denyRun 3 3).bankAddress .a (1024 + 16 * i + 4 * 1))
            ++ (denyRun 3 3).memory.word ((denyRun 3 3).bankAddress .a (1024 + 16 * i + 4 * 0))).toNat
          < ((denyRun 3 3).memory.word ((denyRun 3 3).bankAddress .a (1024 + 16 * (i + 1) + 4 * 1))
            ++ (denyRun 3 3).memory.word ((denyRun 3 3).bankAddress .a (1024 + 16 * (i + 1) + 4 * 0))).toNat)
    ∧ (∀ i < 3, ((denyRun 3 3).memory.word ((denyRun 3 3).bankAddress .a (1024 + 16 * i + 4 * 1))
            ++ (denyRun 3 3).memory.word ((denyRun 3 3).bankAddress .a (1024 + 16 * i + 4 * 0))) = BitVec.ofNat 64 (2 * i + 3))
    ∧ cardSerial ((card.set 1 7).set 2 0) = 7
    ∧ (denyRun 3 2).denyList.find? (fun e => e.serial == 2) = some ⟨2, .own, .operator, none⟩
    ∧ (denyRun 0 3).denyList.find? (fun e => e.serial == 3) = some ⟨3, .neighbor, .operator, none⟩
    ∧ (∀ e ∈ (denyRun 3 8).denyList, e.serial ≠ 8) :=
  ⟨fun _ _ _ => Memory.health_of_upset rfl, by decide +kernel, by decide +kernel, by decide +kernel, by decide,
   by decide, by decide, by decide⟩

theorem test_denyLookup :
    [3, 5, 7].map (fun x => (after (denyRun 3 x) .denyLookup).screening.run.bind (·.decision))
      = List.replicate 3 (some (.deniedCentral 4 9))
    ∧ [1, 3, 8].map (fun x => (after (denyRun 0 x) .denyLookup).screening.run.bind (·.decision))
      = [some .deniedLocal, some .deniedNeighbor, none]
    ∧ (after (denyRun 3 6) .denyLookup).screening.run.map (·.stage) = some .sightings := by decide +kernel

/-- A run before its sightings lookup, the table holding the card at a Counter and Balance, heard at a time. -/
def sightingRun (counter : Nat) (balance : Word) (t : ServiceTime) : State :=
  { running .sightings card with
    sightings := [⟨cardSerial card, counter, balance, 3, t, .neighbor⟩], denyList := (denying 2).denyList }

theorem witness_SightingsLookup :
    (running .sightings card).sightings.find? (fun e => e.serial == cardSerial card) = none
    ∧ (sightingRun 13 0 ⟨900, 0⟩).sightings.find? (fun e => e.serial == cardSerial card)
        = some ⟨cardSerial card, 13, 0, 3, ⟨900, 0⟩, .neighbor⟩
    ∧ ¬configured.sightingsWindow * 60 < (⟨900, 3600⟩ : ServiceTime).absolute - (⟨900, 0⟩ : ServiceTime).absolute
    ∧ configured.sightingsWindow * 60 < (⟨900, 3600⟩ : ServiceTime).absolute - (⟨899, 86399⟩ : ServiceTime).absolute
    ∧ cardCounter card < 13 ∧ 11 < cardCounter card ∧ cardCounter card = 12 ∧ card[4] = 1000
    ∧ (∀ d ∈ (sightingRun 13 0 ⟨900, 0⟩).denyList, d.serial ≠ cardSerial card)
    ∧ (∃ d ∈ ({ sightingRun 13 0 ⟨900, 0⟩ with denyList := [⟨cardSerial card, .own, .clone, none⟩] } : State).denyList,
        d.serial = cardSerial card) := by decide +kernel

theorem test_sightingsLookup :
    [(13, 1000), (12, 999), (12, 1000), (11, 0)].map (fun p =>
        (after (sightingRun p.1 p.2 ⟨900, 0⟩) .sightingsLookup).screening.run.bind (·.decision))
      = [some .cloneRegression, some .cloneDiverged, none, none]
    ∧ (after (sightingRun 13 0 ⟨899, 86399⟩) .sightingsLookup).sightings = []
    ∧ (after (sightingRun 13 0 ⟨900, 0⟩) .sightingsLookup).denyList.map (·.serial) = [1, 2, cardSerial card] := by
  decide +kernel

/-! ### Fares -/

/-- The card with its journey closed: INSIDE clear. -/
def outside : Image := card.set 0 (card[0] - 0x10000)

/-- An entry at a station, day 900, second `t`. -/
def entered (station t : Nat) : Image := card.set 6 (BitVec.ofNat 32 (t + station * 131072))

/-- A last exit at this station, day 900, second `t`. -/
def left (t : Nat) : Image := (outside.set 7 900).set 8 (BitVec.ofNat 32 (t + 212 * 131072))

theorem witness_EntryFare :
    (∀ img a, (running .fare img).memory.health a = .clean) ∧ (∀ img, ((running .fare img).gate 0).direction = .entry)
    ∧ cardCounter (card.set 3 65535) = 65535 ∧ cardCounter card < 65535
    ∧ (cardInside (entered 212 3540) = true ∧ cardEntryStation (entered 212 3540) = configured.station
        ∧ (900 * 86400 + 3600 - (cardEntryDay (entered 212 3540) * 86400 + cardEntrySecond (entered 212 3540) : Nat) : Int)
          = configured.repeatWindow)
    ∧ (cardInside card = true ∧ cardEntryStation card ≠ configured.station
        ∧ ((900 : Int) - cardEntryDay card) * 1440 + (3600 / 60 : Nat) - (cardEntrySecond card / 60 : Nat) = 60)
    ∧ (cardInside outside = false)
    ∧ (cardInside (card.set 5 (899 * 65536)) = true ∧ cardEntryDay (card.set 5 (899 * 65536)) = 899)
    ∧ (cardLastExitStation (left 0) ≠ 0 ∧ cardTransferCount (left 0) < configured.maximumTransfers) :=
  ⟨fun _ _ => clean_running _ _ _, fun _ => rfl, by decide +kernel, by decide +kernel, by decide +kernel,
   by decide +kernel, by decide +kernel, by decide +kernel, by decide +kernel⟩

/-- What a run holds after its fare step: the verdict, if any, and the fare. -/
def fareOf (s : State) : Option Decision × Option Nat :=
  let t := (after s .fareComputation).screening.run
  (t.bind (·.decision), t.bind (fun r => r.fare.map (·.fare)))

/-- A refusal before the Composer: a result of the fare step that the tag's CRC is no part of. -/
theorem test_entryFare :
    fareOf (running .fare (entered 212 3540)) = (some .repeated, none)
    ∧ fareOf (running .fare (entered 212 3539)) = (some .passback, none)
    ∧ fareOf (running .fare card) = (some .passback, none)
    ∧ fareOf (running .fare (card.set 3 65535)) = (some .counterExhausted, none)
    ∧ fareOf (running .fare ((card.set 5 (899 * 65536)).set 4 1199)) = (some .insufficient, some 1200)
    ∧ (entryComputation configured ((card.set 5 (899 * 65536)).set 4 1200) ⟨900, 3600⟩ ⟨.stored, 500, 0, 0⟩).passed = true
    := by decide +kernel

theorem witness_ExitFare :
    (∀ img a, (runningOut .fare img).memory.health a = .clean)
    ∧ (∀ img, (runningOut .fare img).screening.run = some (runAt .fare)
        ∧ ((runningOut .fare img).lane (runAt .fare).lane).pinned = some .a
        ∧ ((runningOut .fare img).lane (runAt .fare).lane).landed = some img
        ∧ ((runningOut .fare img).gate (runAt .fare).lane).direction = .exit)
    ∧ cardCounter card < 65535
    ∧ (cardInside (left 3540) = false ∧ cardLastExitStation (left 3540) = configured.station
        ∧ cardLastExitDay (left 3540) = 900 ∧ cardLastExitSecond (left 3540) = 3540)
    ∧ (cardInside card = true ∧ cardEntrySecond card = 0 ∧ cardEntryZone card = 2)
    ∧ (cardInside outside = false)
    ∧ ((runningOut .fare card).fareUnit.overrideOn = false
        ∧ ((runningOut .fare card).memory.word ((runningOut .fare card).bankAddress .a 576)).toNat = 1
        ∧ bits ((runningOut .fare card).memory.word ((runningOut .fare card).bankAddress .a 580)) 0 16 = 0
        ∧ bits ((runningOut .fare card).memory.word ((runningOut .fare card).bankAddress .a 580)) 16 16 = 1250)
    ∧ ({ runningOut .fare card with fareUnit := ⟨true, 0⟩ } : State).fareUnit.overrideOn = true :=
  ⟨fun _ _ => clean_bankMemory _, fun _ => ⟨rfl, rfl, rfl, rfl⟩, by decide +kernel, by decide +kernel,
   by decide +kernel, by decide +kernel, by decide +kernel, rfl⟩

/-- The worked fare of 04: 340 cents at 1.25 and 0.5 are 215 with a rounding unit of 5; with the overdraft limit of 500 a
balance of −286 does not pay it, and one of −285 does; a card without a valid entry pays the penalty fare. -/
theorem test_exitFare :
    (fareExit configured card ⟨900, 3600⟩ ⟨.stored, 500, 0, 0⟩ 340 1250 false).fare = 215
    ∧ fareOf (runningOut .fare (card.set 4 (-286))) = (some .insufficient, some 215)
    ∧ (fareExit configured (card.set 4 (-285)) ⟨900, 3600⟩ ⟨.stored, 500, 0, 0⟩ 340 1250 false).passed = true
    ∧ fareOf (runningOut .fare (outside.set 4 (-501))) = (some .insufficient, some 1200)
    ∧ fareOf (runningOut .fare (left 3540)) = (some .repeated, none) := by decide +kernel

/-! ### The Composer and the hand-over -/

/-- A run before the Composer, `n` words of its image written. -/
def composing (n : Nat) : State :=
  { running .composing card with
    screening := { queue := [], run := some { runAt .composing with image := some charged, written := n } } }

theorem witness_WriteBack :
    (composing 15).screening.run = some { runAt .composing with image := some charged, written := 15 }
    ∧ (composing 0).memory.wf = true
    ∧ configured.keys.find? (fun k => k.use == .current) = some ⟨7, 0xDEADBEEF, .current⟩
    ∧ cardCounter card < 65535 := by decide +kernel

theorem test_composer :
    ((after (composing 0) .composeWriteBack).lane 0).composed = some charged
    ∧ (after (composing 0) .composeWriteBack).memory.word 128 = charged[0]
    ∧ (after (composing 0) .composeWriteBack).memory.word 188 = charged[15]
    ∧ (after (composing 0) .composeWriteBack).screening.run.bind (·.decision) = some .accept := by decide +kernel

/-- A run before its hand-over. -/
def handing (d : Decision) (damaged reset : Bool) : State :=
  { laneAt { screeningLane card with
      composed := some charged, resetRequested := reset, resetSlot := if reset then some 3 else none } with
    screening := { queue := [], run := some { runAt .decided with decision := some d, bankDamaged := damaged } } }

theorem witness_VerdictHandover :
    (handing .accept false false).screening.run
        = some { runAt .decided with decision := some .accept, bankDamaged := false }
    ∧ ((handing .accept false false).lane 0).resetRequested = false
    ∧ ((handing .accept false true).lane 0).resetRequested = true
    ∧ ((handing .accept false true).lane 0).resetSlot = some 3 ∧ (handing .accept false true).memory.wf = true
    ∧ (handing .passback true false).screening.run
        = some { runAt .decided with decision := some .passback, bankDamaged := true }
    ∧ (handing .repeated false false).unit = .ready := by decide +kernel

theorem test_handover :
    ((after (handing .accept false false) .verdictHandover).status.records.map (fun j => (j.number, j.next)))
      = [(1, .decided)]
    ∧ (after (handing .passback false false) .verdictHandover).screening.run.map (·.stage) = some .refusing
    ∧ (after (handing .passback false false) .verdictHandover).journal.job.isSome = true
    ∧ ((after (handing .passback true false) .verdictHandover).lane 0).reservation = 0
    ∧ ((after (handing .accept false true) .verdictHandover).lane 0).state = .idle := by decide +kernel

/-! ### Beams, timers and the EMERGENCY input -/

/-- Lane 0's gate in state `x` on a path: the Entry Beam, whether BOTH was met, and the beam that is still blocked, with
the credits given. -/
def onPath (x : GateState) (entry : EntryBeam) (crossed : Bool) (shown : BeamState) (credits : List Credit)
    (pending : Bool) : State :=
  { ready with gates := ready.gates.set 0 { Gate.reset with
      state := x, credits := credits, beams := shown, entryBeam := entry, crossed := crossed
      inputA := decide (shown = .a ∨ shown = .ab), inputB := decide (shown = .b ∨ shown = .ab), expiryPending := pending } }

theorem witness_Beams :
    ready.unit = .ready ∧ ready.present 0 = true ∧ (ready.gate 0).beams = .clear ∧ (ready.gate 0).inputA = false
    ∧ (ready.gate 0).inputB = false
    ∧ ((onPath .opened .a true .b [⟨7, some ⟨900, 3590⟩⟩] false).gate 0).entryBeam = .a
    ∧ ((onPath .opened .a true .b [⟨7, some ⟨900, 3590⟩⟩] false).gate 0).crossed = true
    ∧ ((onPath .opened .a true .b [⟨7, some ⟨900, 3590⟩⟩] false).gate 0).beams = .b
    ∧ ((onPath .opened .a true .b [⟨7, some ⟨900, 3590⟩⟩] false).gate 0).inputA = false
    ∧ ((onPath .opened .a true .b [⟨7, some ⟨900, 3590⟩⟩] false).gate 0).inputB = true
    ∧ ((onPath .alarm .b true .a [] false).gate 0).entryBeam = .b ∧ ((onPath .alarm .b true .a [] false).gate 0).beams = .a
    ∧ ((onPath .closed .b true .a [] false).gate 0).state = .closed
    ∧ ((onPath .opened .a false .a [⟨7, some ⟨900, 3590⟩⟩] true).gate 0).expiryPending = true
    ∧ ((onPath .opened .a false .a [⟨7, some ⟨900, 3590⟩⟩] true).gate 0).crossed = false := by decide

theorem test_beams :
    ((after (onPath .opened .a true .b [⟨7, some ⟨900, 3590⟩⟩] false) (.beamChange 0 .b false)).gate 0).credits = []
    ∧ ((after (onPath .opened .a true .b [⟨7, some ⟨900, 3590⟩⟩] false) (.beamChange 0 .b false)).gate 0).state = .closed
    ∧ ((after (onPath .closed .a true .b [] false) (.beamChange 0 .b false)).gate 0).state = .alarm
    ∧ ((after (onPath .opened .b true .a [⟨7, none⟩] false) (.beamChange 0 .a false)).gate 0).state = .alarm := by
  decide +kernel

theorem test_beamBlocked :
    ((after ready (.beamChange 0 .a true)).gate 0).entryBeam = .a
    ∧ ((after (after ready (.beamChange 0 .a true)) (.beamChange 0 .b true)).gate 0).crossed = true
    ∧ ((after (onPath .opened .a false .a [⟨7, some ⟨900, 3590⟩⟩] true) (.beamChange 0 .a false)).gate 0).credits = [] := by
  decide +kernel

theorem witness_GateTimers :
    ((gateAt .opened).gate 0).headTimer = true ∧ ((gateAt .opened).gate 0).beams = .clear
    ∧ ((gateAt .opened).gate 0).credits = [⟨7, some ⟨900, 3590⟩⟩]
    ∧ (({ gateAt .opened with gates := ready.gates.set 0 { (gateAt .opened).gate 0 with
        inputA := true, beams := .a, entryBeam := .a } } : State).gate 0).beams ≠ .clear
    ∧ ((gateAt .alarm).gate 0).alarmTimer = true ∧ (ready.gate 0).headTimer = false
    ∧ (ready.gate 0).alarmTimer = false := by decide

/-- R139: the lapsed credit was held 10 seconds. -/
theorem test_headTimer :
    ((after (gateAt .opened) (.headTimerExpiry 0)).gate 0).state = .closed
    ∧ (after (after (gateAt .opened) (.headTimerExpiry 0)) .journalAppendComplete).memory.word (16384 + 64 + 16) = 0xA0000 := by
  decide +kernel

theorem test_alarmHold :
    ((after (gateAt .alarm) (.alarmHoldExpiry 0)).gate 0).state = .opened
    ∧ ((after (gateAt .alarm) (.alarmHoldExpiry 0)).gate 0).headTimer = true := by decide +kernel

theorem witness_Emergency :
    ready.emergency = false ∧ ({ ready with emergency := true } : State).emergency = true ∧ ready.unit = .ready
    ∧ State.reset.unit = .inReset ∧ loading.unit = .loading ∧ faulted.unit = .faulted ∧ scanning.unit = .scanning
    ∧ scanning.emergency = false ∧ ({ scanning with emergency := true } : State).emergency ≠ false := by decide

theorem test_emergency :
    ((after (gateAt .opened) .emergencyAssert).gate 0).state = .emergency
    ∧ ((after (gateAt .opened) .emergencyAssert).gate 3).state = .closed
    ∧ ((after (gateAt .opened) .emergencyAssert).gate 0).credits.length = 1
    ∧ ((after (after (gateAt .opened) .emergencyAssert) .emergencyDeassert).gate 0).state = .opened := by decide +kernel

theorem test_emergencyBeforeReady :
    ((after loading (.emergencyInputBeforeReady true)).gate 3).state = .emergency
    ∧ ((after scanning (.emergencyInputBeforeReady true)).gate 3).state = .closed
    ∧ (after scanning (.emergencyInputBeforeReady true)).journal.job = none := by decide +kernel

/-! ### The neighbor line -/

/-- The line in a membership state, its clock at a slot of cycle 255, a frame on the line or none. -/
def lineIn (m : Membership) (mode : Option CheckMode) (slot : UnitId) (sending : Option SentFrame) : State :=
  { lineAt m mode with line := { (lineAt m mode).line with
      slot := slot, cycle := 255, sending := sending, silenceTimer := decide (m = .listen), cycles := 3
      presence := (Vector.replicate 16 ⟨none, 4⟩).set 3 ⟨some 250, 3⟩ } }

theorem witness_SlotBoundary :
    (lineIn .silent none 0 none).line.running = false ∧ (lineIn .joined none 1 none).line.running = true
    ∧ (lineIn .joined none 1 none).line.slot + 1 = (lineIn .joined none 1 none).cfg.unitId
    ∧ (lineIn .joined none 15 none).line.slot = 15 ∧ (lineIn .check (some .wrap) 1 none).line.membership = .check
    ∧ (lineIn .resync none 15 none).line.membership = .resync
    ∧ ({ configured with unitId := 3 } : Configuration).unitId.val = (lineIn .resync none 15 none).line.cycles
    ∧ (lineIn .check (some .line) 1 none).line.sendIndex + 4 ≤ 65535
    ∧ ({ (lineIn .listen none 1 none).line with joining := true } : Line).joining = true := by decide

theorem test_slotBoundary :
    (after (lineIn .joined none 15 none) .slotBoundary).line.cycle = 0
    ∧ (after (lineIn .joined none 15 none) .slotBoundary).line.presence[3] = ⟨some 250, 4⟩
    ∧ (after (lineIn .joined none 15 none) .slotBoundary).noticed .line = true
    ∧ (after (lineIn .joined none 1 none) .slotBoundary).line.queue.map (·.inFlight) = [true, true] := by decide +kernel

theorem test_checkFrame :
    (after (lineIn .check (some .wrap) 1 none) .slotBoundary).line.sendIndex = 4
    ∧ (after (lineIn .check (some .wrap) 1 none) .slotBoundary).line.sending.map (fun f => f.looped.head?)
      = some (some (.check 0 #v[0x00, 0x02, 0x00, 0x0C, 0x00, 0x28, 0x00, 0xF0])) := by decide +kernel

theorem witness_FramesAndTimers :
    (lineIn .joined none 2 (some ⟨255, [], []⟩)).line.sending = some ⟨255, [], []⟩
    ∧ (lineIn .joined none 2 none).line.sending = none
    ∧ 4 ≤ ((lineIn .joined none 2 (some ⟨255, [], []⟩)).line.presence[configured.unitId]).silence
    ∧ (lineIn .listen none 0 none).line.silenceTimer = true ∧ (lineIn .listen none 0 none).line.membership = .listen
    ∧ (lineIn .joined none 0 none).line.silenceTimer = false
    ∧ (lineIn .resync none 0 none).line.membership = .resync
    ∧ configured.unitId.val < (lineIn .resync none 0 none).line.cycles ∧ (lineIn .resync none 0 none).line.sending = none
    ∧ ({ (lineIn .resync none 0 none).line with cycles := 2 } : Line).cycles = configured.unitId.val := by decide

theorem test_frameComplete :
    (after (lineIn .joined none 2 (some ⟨255, [], []⟩)) .frameComplete).line.queue = [⟨.sighting 9 4 100, false⟩]
    ∧ (after (lineIn .joined none 2 (some ⟨255, [], []⟩)) .frameComplete).line.presence[2] = ⟨some 255, 0⟩ := by
  decide +kernel

theorem test_collision :
    (after (lineIn .joined none 2 (some ⟨255, [], []⟩)) .collision).line.membership = .resync
    ∧ (after (lineIn .joined none 2 (some ⟨255, [], []⟩)) .collision).line.queue.map (·.inFlight) = [false, false] := by
  decide +kernel

theorem test_silenceTimer :
    (after (lineIn .listen none 0 none) .silenceTimerExpiry).line.membership = .joined
    ∧ (after (lineIn .listen none 0 none) .silenceTimerExpiry).line.slot = 2
    ∧ (after (lineIn .listen none 0 none) .silenceTimerExpiry).line.sending.isSome = true := by decide +kernel

theorem test_resyncEnd :
    (after (lineIn .resync none 0 none) .resyncEnd).line.membership = .listen
    ∧ (after { lineIn .resync none 0 none with cfg := { configured with unitId := 3 } } .resyncEnd).line.membership
      = .resync := by decide +kernel

/-- A frame with no message, of unit `u` in cycle 9. -/
def emptyFrame (u : UnitId) : List Byte := frameBytes u 9 []

theorem frame_empty : ∀ u, frameOfBytes (emptyFrame u) = some ⟨u, 9, []⟩ := by decide +kernel

theorem witness_Frames :
    (lineIn .joined none 5 none).line.membership ≠ .silent
    ∧ frameOfBytes (emptyFrame 5) = some ⟨5, 9, []⟩ ∧ frameOfBytes [5, 9, 0, 0, 0] = none
    ∧ frameOfBytes (emptyFrame 2) = some ⟨2, 9, []⟩ ∧ configured.unitId = 2
    ∧ (lineIn .check (some .wrap) 5 none).line.mode ≠ some .line
    ∧ (lineIn .joined none 5 none).line.misaligned < 2
    ∧ 2 ≤ ({ (lineIn .joined none 5 none).line with misaligned := 2 } : Line).misaligned
    ∧ (lineIn .listen none 5 none).line.membership = .listen ∧ (lineIn .resync none 5 none).line.membership = .resync :=
  ⟨by decide, frame_empty 5, by decide +kernel, frame_empty 2, rfl, by decide, by decide, by decide, rfl, rfl⟩

theorem test_frameReceived :
    (after (lineIn .listen none 0 none) (.frameReceived 0 (emptyFrame 5))).line.joining = true
    ∧ (after (lineIn .joined none 0 none) (.frameReceived 0 (emptyFrame 5))).line.misaligned = 1
    ∧ (after (lineIn .joined none 0 none) (.frameReceived 2 (emptyFrame 2))).line.membership = .silent
    ∧ (after (lineIn .joined none 0 none) (.frameReceived 0 [5, 9, 0, 0, 0])).line.framingErrors = 1 := by decide +kernel

/-- The line JOINED, or in another state, with one message of unit 5 in the inbox. -/
def heard (m : ReceivedMessage) (s : State) : State := { s with line := { s.line with inbox := [(5, m)] } }

/-- The use of the card in the Sightings Table. -/
def known : State :=
  { lineAt .joined none with sightings := [⟨cardSerial card, 13, 785, 3, ⟨900, 0⟩, .neighbor⟩] }

/-- A SIGHTING of the card. -/
def report (counter : Nat) (balance : Word) (u : UnitId) : ReceivedMessage := .sighting (cardSerial card) counter balance u

theorem witness_SightingMessage :
    (heard (report 13 785 4) known).line.inbox = (5, report 13 785 4) :: []
    ∧ (heard (report 13 785 4) known).clock = some ⟨900, 3600⟩ ∧ known.line.membership ≠ .silent
    ∧ known.sightings.find? (fun e => e.serial == cardSerial card)
        = some ⟨cardSerial card, 13, 785, 3, ⟨900, 0⟩, .neighbor⟩
    ∧ (⟨900, 3600⟩ : ServiceTime).absolute - (⟨900, 0⟩ : ServiceTime).absolute ≤ configured.sightingsWindow * 60
    ∧ (heard (.sighting 0 13 785 4) known).line.inbox = (5, .sighting 0 13 785 4) :: []
    ∧ (∀ d ∈ known.denyList, d.serial ≠ cardSerial card) ∧ cardSerial card ≠ 0 := by decide +kernel

theorem test_sightingMessage :
    ((after (heard (report 14 7 4) known) .sightingMessage).sightings.map (·.counter)) = [14]
    ∧ (after (heard (report 12 7 4) known) .sightingMessage).sightings = known.sightings
    ∧ (after (heard (report 13 785 3) known) .sightingMessage).denyList = []
    ∧ (after (heard (report 13 785 4) known) .sightingMessage).denyList.map (·.reason) = [.clone] := by decide +kernel

theorem witness_DenyAndCheckMessages :
    (heard (.deny 8 .operator 4) (denying 2)).line.inbox = (5, .deny 8 .operator 4) :: []
    ∧ (∀ d ∈ (denying 2).denyList, d.serial ≠ 8) ∧ (∃ d ∈ (denying 2).denyList, d.serial = 2)
    ∧ (heard (.deny 8 .operator 4) known).line.membership ≠ .silent ∧ (denying 2).line.membership = .silent
    ∧ (heard (.check 3 (patternOf 3)) known).line.inbox = (5, .check 3 (patternOf 3)) :: []
    ∧ known.line.membership = .joined ∧ known.line.results[(5 : UnitId)] = CheckResult.cleared
    ∧ (patternOf 1)[0] ≠ ((patternOf 1).set 0 0xFF)[0] := by decide +kernel

theorem test_denyMessage :
    (after (heard (.deny 8 .operator 4) known) .denyMessage).denyList = [⟨8, .neighbor, .operator, some ⟨900, 3600⟩⟩]
    ∧ (after (heard (.deny 8 .operator 4) (denying 2)) .denyMessage).denyList = (denying 2).denyList := by decide +kernel

/-- The Check Results entry of unit 5 after CHECK messages of it, in order. -/
def results (l : List (Nat × Vector Byte 8)) : CheckResult :=
  (l.foldl (fun s m => after (heard (.check m.1 m.2) s) .checkMessage) known).line.results[(5 : UnitId)]

theorem test_checkMessage :
    results [(0, patternOf 0), (1, patternOf 1), (4, (patternOf 4).set 0 0xFF)]
      = ⟨true, some 4, 2, 1, 2, some ⟨4, 0, (patternOf 4)[0], 0xFF⟩⟩
    ∧ results [(0, patternOf 0), (2, patternOf 2)] = ⟨false, some 2, 0, 0, 0, none⟩ := by decide +kernel

/-! ### The Status Area and the records -/

/-- `ready` with stale words and a Change Count. -/
def stale (l : List Nat) (due : Bool) : State :=
  { ready with status := { ready.status with stale := l, changeCount := some 4, due := if due then [4] else [] } }

theorem witness_StatusWord :
    (stale [2, 3] true).status.stale = 2 :: [3] ∧ (stale [2, 3] true).status.changeCount = some 4
    ∧ (stale [3] false).status.stale = 3 :: [] ∧ (stale [3] false).memory.wf = true
    ∧ (stale [3] false).status.due = [] ∧ (stale [2, 3] true).status.due.getLast? = some 4 := by decide

theorem test_statusWord :
    (after (stale [3] false) .statusWordWrite).memory.word 8204 = 900
    ∧ (after (stale [3] false) .statusWordWrite).memory.word 8192 = 5
    ∧ (after (stale [2, 3] true) .statusWordWrite).memory.word 8192 = 4
    ∧ (after (stale [2, 3] true) .statusWordWrite).status.stale = [3] := by decide +kernel

/-- A frame, an entry, a Unit Record and a result word, each at a boundary of its ranges. -/
theorem witness_RecordsAreReadBack :
    255 < 256 ∧ [TransmitMessage.sighting 7 65535 0, .deny 9 .clone, .deny 9 .clone, .deny 9 .operator].length ≤ 4
    ∧ 4294967295 < 4294967296 ∧ 65535 < 65536 := by decide

theorem test_entry :
    validEntry (EntryDraft.words { lane := none, time := some ⟨900, 1⟩, flags := FareFlags.none, degraded := true
                                   body := .tailgate .alarm, reserved := none } 300) 300 = true
    ∧ validEntry (EntryDraft.words { lane := none, time := some ⟨900, 1⟩, flags := FareFlags.none, degraded := true
                                     body := .tailgate .alarm, reserved := none } 300) 301 = false := by decide +kernel

/-! ### Commands in other states, and full queues -/

theorem witness_StatusApart : ready.StatusApart ∧ waitingTwo.StatusApart ∧ (validating ⟨[], []⟩).StatusApart :=
  ⟨.inr (by decide), .inr (by decide), .inr (by decide)⟩

/-- A command in SCANNING, one whose words 1 and 4 are uncorrectable in READY, and the two maps' StatusApart. -/
theorem witness_CommandTurns :
    scanning.unit = .scanning ∧ (withCommand scanning [14, 0, 1, 0, 0, 0]).CommandTurn go
    ∧ (upset 3 4112 (upset 3 4100 (withCommand ready [14, 0, 1, 0, 0, 0]))).CommandTurn go
    ∧ (upset 3 4112 (upset 3 4100 (withCommand ready [14, 0, 1, 0, 0, 0]))).unit = .ready
    ∧ (List.range 6).filter (fun i => (upset 3 4112 (upset 3 4100 (withCommand ready [14, 0, 1, 0, 0, 0]))).memory.health
        (ready.slotAddress 0 i) = .uncorrectable) = [1, 4]
    ∧ (∀ i, i < 6 → (upset 3 4112 (upset 3 4100 (withCommand ready [14, 0, 1, 0, 0, 0]))).memory.health
        (ready.slotAddress 0 i) ≠ .corrected)
    ∧ (withCommand worn [14, 0, 1, 0x20000, 0, 0]).StatusApart ∧ (withCommand reissued [13, 0, 1, 5, 0, 0]).StatusApart :=
  ⟨rfl, commandTurn_of (by decide +kernel), commandTurn_of (by decide +kernel), rfl, by decide +kernel,
   by decide +kernel, .inr (by decide +kernel), .inr (by decide +kernel)⟩

/-- R176: both uncorrectable words of the slot are met and recorded before the command is answered. -/
theorem test_slotMemory :
    let t := after (upset 3 4112 (upset 3 4100 (withCommand ready [14, 0, 1, 0, 0, 0]))) (.ackNotices go)
    bits (t.memory.word 4120) 16 16 = CommandOutcome.badArgument.code + 256 * Detail.memory.number
    ∧ t.faultRecord.further = 1
    ∧ outcomeOf scanning [14, 0, 1, 0, 0, 0] .ackNotices = (CommandOutcome.notReady.code, 0) := by decide +kernel

/-- R178: the Detail Value stands in the Status Area with the result word. -/
theorem test_detailShown :
    (after (withCommand worn [14, 0, 1, 0x20000, 0, 0]) (.ackNotices go)).memory.word (8192 + 4 * 208) = 0x20000 := by
  decide +kernel

/-- A full Transmit Queue: a SIGHTING in flight first, the third message a SIGHTING that waits or a DENY. -/
def crowded (waits : Bool) : State :=
  { denying 2 with line := { (denying 2).line with queue :=
      ⟨.sighting 1 4 100, true⟩ :: ⟨.deny 5 .clone, false⟩ ::
        ⟨if waits then .sighting 2 4 100 else .deny 2 .clone, false⟩ :: List.replicate 29 ⟨.deny 7 .clone, false⟩ } }

theorem witness_FullQueue :
    (withCommand (crowded true) [11, 0, 1, 8800, 1, 0]).CommandReady go ∧ (crowded true).line.queue.length = 32
    ∧ (crowded true).cfg.lineEnabled = true
    ∧ (crowded true).line.queue = [⟨.sighting 1 4 100, true⟩, ⟨.deny 5 .clone, false⟩] ++ ⟨.sighting 2 4 100, false⟩
        :: List.replicate 29 ⟨.deny 7 .clone, false⟩
    ∧ (withCommand (crowded false) [11, 0, 1, 8800, 1, 0]).CommandReady go
    ∧ (crowded false).line.queue.all (fun m => m.inFlight || (match m.message with
        | .deny _ _ => true | .sighting _ _ _ => false)) = true
    ∧ (withCommand { crowded true with cfg := { configured with lineEnabled := false } }
        [11, 0, 1, 8800, 1, 0]).CommandReady go :=
  ⟨ready_command _ _ (by decide +kernel), rfl, rfl, rfl, ready_command _ _ (by decide +kernel), by decide,
   ready_command _ _ (by decide +kernel)⟩

/-- R151: the oldest SIGHTING that waits gives way; without one the newcomer is dropped. -/
theorem test_fullQueue :
    (after (withCommand (crowded true) [11, 0, 1, 8800, 1, 0]) (.denyAdd go)).line.dropped = 1
    ∧ (after (withCommand (crowded true) [11, 0, 1, 8800, 1, 0]) (.denyAdd go)).line.queue.getLast?
      = some ⟨.deny 0x100002260 .operator, false⟩
    ∧ (after (withCommand (crowded true) [11, 0, 1, 8800, 1, 0]) (.denyAdd go)).line.queue.length = 32
    ∧ (after (withCommand (crowded false) [11, 0, 1, 8800, 1, 0]) (.denyAdd go)).line
      = { (crowded false).line with dropped := 1 } := by decide +kernel

/-! ### Runs that meet a damaged bank -/

/-- The cards' product row, the Deny Count, a deny entry, the Fare Matrix entry, the Band Count and a band of bank A, each
uncorrectable for the step that reads it first. -/
theorem witness_DamagedBank :
    (upset 3 66164 (running .format card)).memory.health ((running .format card).bankAddress .a (612 + 8 * cardProduct card))
        = .uncorrectable
    ∧ (upset 3 66164 (running .format card)).unit ≠ .faulted ∧ cardFormat card = 1 ∧ cardSerial card ≠ 0
    ∧ cardCarryCount card ≤ 4
    ∧ (upset 3 65540 (denyRun 3 3)).memory.health ((denyRun 3 3).bankAddress .a 4) = .uncorrectable
    ∧ (upset 3 66564 (denyRun 1 3)).memory.health ((denyRun 1 3).bankAddress .a (1024 + 16 * 0 + 4 * 1)) = .uncorrectable
    ∧ (∀ j, j < 4 → (upset 3 66564 (denyRun 1 3)).memory.health ((denyRun 1 3).bankAddress .a (1024 + 16 * 0 + 4 * j))
        ≠ .corrected)
    ∧ ((upset 3 66564 (denyRun 1 3)).memory.word ((denyRun 1 3).bankAddress .a 4)).toNat = 1
    ∧ (upset 3 66164 (running .fare outside)).memory.health
        ((running .fare outside).bankAddress .a (612 + 8 * cardProduct outside)) = .uncorrectable
    ∧ (upset 3 66168 (running .fare outside)).memory.health
        ((running .fare outside).bankAddress .a (616 + 8 * cardProduct outside)) = .uncorrectable
    ∧ (upset 3 (65536 + (64 + (32 * 2 + 2 * 5) / 4 * 4)) (runningOut .fare card)).memory.health
        ((runningOut .fare card).bankAddress .a (64 + (32 * cardEntryZone card + 2 * configured.zone) / 4 * 4)) = .uncorrectable
    ∧ (upset 3 66112 (runningOut .fare card)).memory.health ((runningOut .fare card).bankAddress .a 576) = .uncorrectable
    ∧ (upset 3 66116 (runningOut .fare card)).memory.health ((runningOut .fare card).bankAddress .a 580) = .uncorrectable
    ∧ ((upset 3 66116 (runningOut .fare card)).memory.word ((runningOut .fare card).bankAddress .a 576)).toNat = 1
    ∧ cardCounter (card.set 3 65535) = 65535 ∧ ((runningOut .fare (card.set 3 65535)).gate 0).direction = .exit := by
  decide +kernel

/-- R52, R53, R56: the bank is DAMAGED, the run ends UNIT_FAULT, and the VALID bank becomes ACTIVE where there is one. -/
theorem test_damagedBank :
    let t := after (upset 3 66164 (running .format card)) .formatCheck
    let v := after { upset 3 65540 (denyRun 3 3) with banks :=
      { ready.banks with a := ⟨some .active, 1, 41⟩, b := ⟨some .valid, 0, 40⟩ } } .denyLookup
    t.banks.a.state = some .damaged ∧ t.screening.run.bind (·.decision) = some (.unitFault .bankDamaged)
    ∧ t.screening.run.map (·.bankDamaged) = some true ∧ t.faultRecord.first.map (·.address) = some (some 66164)
    ∧ t.noticed .bank = true ∧ t.banks.fallback = false
    ∧ v.banks.a.state = some .damaged ∧ v.banks.b.state = some .active ∧ v.banks.fallback = true
    ∧ v.journal.activeBank = some .b
    ∧ [66164, 65672, 66112, 66116].map (fun a => fareOf (upset 3 a (runningOut .fare card)))
      = List.replicate 4 (some (.unitFault .bankDamaged), none)
    ∧ fareOf (upset 3 66168 (running .fare outside)) = (some (.unitFault .bankDamaged), none)
    ∧ fareOf (runningOut .fare (card.set 3 65535)) = (some .counterExhausted, none) := by decide +kernel

/-! ### The arbiter's choice, place by place -/

/-- What makes another requester than the Processor Port the choice, as one computation. -/
theorem chooses_of {s : State} {x : Requester} (hx : x ≠ .processor)
    (h : (s.waits x && (!s.processor.taken || decide (s.arbiter.losses < 4))
      && requesters.all (fun y => decide (x.place ≤ y.place) || !s.waits y)) = true) : s.Chooses x := by
  simp only [Bool.and_eq_true, Bool.or_eq_true, Bool.not_eq_true', decide_eq_true_eq] at h
  obtain ⟨⟨hw, hp⟩, ha⟩ := h
  refine ⟨hw, fun ht hl => ?_, fun he => absurd he hx, fun _ y hy => ?_⟩
  · rcases hp with hp | hp
    · rw [hp] at ht; cases ht
    · omega
  · have hm : y ∈ requesters := by cases y <;> simp [requesters]
    have := List.all_eq_true.1 ha y hm
    simp only [Bool.or_eq_true, decide_eq_true_eq, Bool.not_eq_true'] at this
    rcases this with h | h
    · omega
    · exact h

/-- A job of the Journal Writer with `written` of its words written. -/
def journaling (job : JournalJob) : State := { ready with journal := { ready.journal with next := 8, job := some job } }

/-- An entry's append, and a Unit Record's rewrite, with some words written. -/
def appendJob (written : Nat) : JournalJob := .append 8 #v[8, 2, 30, 40, 50, 60, 70, 8] written none .nothing
def rewriteJob (written : Nat) : JournalJob := .rewrite (unitRecordWords 4 (some .a) 41) written false

theorem witness_Chooses :
    (owned [⟨0, 0x40000, .read⟩]).Chooses .reader ∧ (journaling (appendJob 0)).enrol.Chooses .journal
    ∧ (journaling (appendJob 7)).enrol.Chooses .journal ∧ (journaling (rewriteJob 0)).enrol.Chooses .journal
    ∧ (journaling (rewriteJob 7)).enrol.Chooses .journal ∧ (composing 0).enrol.Chooses .composer
    ∧ (composing 15).enrol.Chooses .composer ∧ (running .deny card).enrol.Chooses .screening
    ∧ (comparing 12 232 1).enrol.Chooses .screening ∧ (recording .decided decidedLane).enrol.Chooses .status
    ∧ (stale [2, 3] true).enrol.Chooses .status ∧ (contended .read 3 true).Chooses .status
    ∧ (validating ⟨[], []⟩).enrol.Chooses .bankControl ∧ scanning.enrol.Chooses .startUp ∧ selected.enrol.Chooses .startUp
    ∧ (contended .read 4 true).waits .processor = true := by
  refine ⟨chooses_of (by decide) ?_, chooses_of (by decide) ?_, chooses_of (by decide) ?_, chooses_of (by decide) ?_,
    chooses_of (by decide) ?_, chooses_of (by decide) ?_, chooses_of (by decide) ?_, chooses_of (by decide) ?_,
    chooses_of (by decide) ?_, chooses_of (by decide) ?_, chooses_of (by decide) ?_, chooses_of (by decide) ?_,
    chooses_of (by decide) ?_, chooses_of (by decide) ?_, chooses_of (by decide) ?_, ?_⟩ <;> decide +kernel

/-- Where the Processor Port alone waits, or waits at a loss count of 4, it is the choice. -/
theorem chooses_processor {s : State} (h : s.processor.taken = true)
    (ho : (decide (s.arbiter.losses = 4)
      || requesters.all (fun y => decide (y = .processor) || !s.waits y)) = true) : s.Chooses .processor := by
  refine ⟨h, fun _ _ => rfl, fun _ hl y hy => ?_, fun he => absurd rfl he⟩
  rcases Bool.or_eq_true_iff.1 ho with hf | ho
  · have := of_decide_eq_true hf; omega
  · have := List.all_eq_true.1 ho y (by cases y <;> simp [requesters])
    simpa [hy] using this

theorem enrolled_of {s : State} (h : allBlocks.all (fun x => s.arbiter.requests.contains x == s.hasWord x) = true) :
    s.Enrolled := by
  have hall : ∀ x : Block, x ∈ allBlocks := by
    intro x
    cases x with
    | comparison n => revert n; decide
    | verdictRecord n => revert n; decide
    | commandSlot k => revert k; decide
    | _ => decide
  intro x
  have := List.all_eq_true.1 h x (hall x)
  rw [beq_iff_eq] at this
  rw [← this, List.contains_iff_mem]

/-- A processor word that alone waits at the arbiter. -/
def presented (w : ProcessorWord) (s : State) : State :=
  { s with processor := { s.processor with words := [w], taken := true } }

/-- Words of the Processor Port that wait: a read, writes to a plain word, to a bank and to a go word that takes a command or
none, and a write that the map refuses by now (R164). -/
def presentedCases : List State :=
  [contended .read 4 true, contended (.write 0x5 1) 0 false,
   presented ⟨131072, .maint, .write 0xF 5⟩ ready, presented ⟨4124, .maint, .write 0xF 1⟩ ready,
   presented ⟨4124, .maint, .write 0xF 0x10000⟩ ready, presented ⟨65536, .maint, .write 0xF 5⟩ ready]

theorem witness_PresentedWords :
    (∀ s ∈ presentedCases, s.Chooses .processor ∧ s.Sound ∧ s.unit = .ready ∧ s.memory.wf = true)
    ∧ ready.judge 131072 (.processor .maint) (.write 0xF 5) = .ok (.bank .b)
    ∧ ready.judge 4124 (.processor .maint) (.write 0xF 1) = .ok (.commandWord 0 7)
    ∧ ready.judge 65536 (.processor .maint) (.write 0xF 5) = .error .bankLocked := by
  have h : presentedCases.all (fun s => s.processor.taken && (decide (s.arbiter.losses = 4)
      || requesters.all (fun y => decide (y = .processor) || !s.waits y)) && soundly s && decide (s.unit = .ready)
      && s.memory.wf) = true := by decide +kernel
  refine ⟨fun s hs => ?_, by rfl, by rfl, by rfl⟩
  have := List.all_eq_true.1 h s hs
  simp only [Bool.and_eq_true, decide_eq_true_eq] at this
  obtain ⟨⟨⟨⟨h1, h2⟩, h3⟩, h4⟩, h5⟩ := this
  exact ⟨chooses_processor h1 h2, sound_of h3, h4, h5⟩

theorem readerFirst_of {s : State} (h : s.processor.taken = false) : s.ReaderFirst := fun ht => by
  rw [h] at ht; cases ht

/-- Words of the Reader Port that a choice makes, and, at the port, those of a landing word, the tap word and the result
word; a processor word waits with three losses or none does. -/
theorem witness_ReaderFirst :
    (granted ready).ReaderFirst ∧ (granted released).ReaderFirst ∧ (landing LaneContext.reset).ReaderFirst
    ∧ (granted (contended .read 3 false)).ReaderFirst ∧ (granted (contended .read 3 false)).ReaderTurn 0
    ∧ (granted ready).judge 60 (.reader 0) (.write 0xF 5) = .ok (.landing 0 15)
    ∧ (granted ready).judge 64 (.reader 0) (.write 0xF 5) = .ok (.tap 0)
    ∧ (granted released).judge 192 (.reader 0) (.write 0xF 1) = .ok (.result 0) :=
  ⟨readerFirst_of rfl, readerFirst_of rfl, readerFirst_of rfl, fun _ => by decide, ⟨sound_of (by decide +kernel), rfl,
     .inl rfl, rfl⟩, by rfl,
   by rfl, by rfl⟩

/-- A go-write that ACK_NOTICES takes, five of the six reads of its slot made, and a word outside the map behind it. -/
def acknowledging : State :=
  { ready with
    status := { ready.status with notices := 0x400, changeCount := some 4 }
    processor := { ready.processor with
      words := [⟨4124, .maint, .write 0xF 1⟩, ⟨0x1000000, .maint, .read⟩], held := some 0 }
    slots := ready.slots.set 0
      { busy := true, lastTaken := 1, reading := some ⟨.maint, [some 14, some 0, some 1, some 0x400, some 0]⟩
        command := none, result := none, detailValue := 0 } }

/-- A block's word that alone waits at the arbiter: the state, the block and the address it reads. -/
def readCases : List (State × Block × Nat) :=
  [((arrived id).enrol, .run, 0), ((running .format card).enrol, .run, 66164), ((comparing 12 232 1).enrol, .comparison 0, 0),
   ((validating ⟨[], []⟩).enrol, .bankControl, 65536), (selected.enrol, .startUp, 16384), (scanning.enrol, .startUp, 16384),
   (acknowledging.enrol, .commandSlot 0, 4116)]

theorem witness_ReadsAreServed :
    (∀ c ∈ readCases, c.1.Chooses c.2.1.requester ∧ c.1.Offers c.2.1 [] [] ∧ c.1.nextRead c.2.1 = some c.2.2
      ∧ c.1.unit ≠ .faulted ∧ c.1.memory.wf = true)
    ∧ ((acknowledging.slot 0).reading.map (fun r => (r.got ++ [some 0]).length) = some 6)
    ∧ acknowledging.processor.held = some 0 ∧ (acknowledging.slot 0).result = none := by
  have h : readCases.all (fun c => decide (c.2.1.requester ≠ .processor)
      && (c.1.waits c.2.1.requester && (!c.1.processor.taken || decide (c.1.arbiter.losses < 4))
        && requesters.all (fun y => decide (c.2.1.requester.place ≤ y.place) || !c.1.waits y))
      && decide (c.1.arbiter.requests = [c.2.1] ∧ c.1.nextRead c.2.1 = some c.2.2 ∧ c.1.unit ≠ .faulted
        ∧ c.1.memory.wf = true)) = true := by decide +kernel
  refine ⟨fun c hc => ?_, by decide +kernel⟩
  have := List.all_eq_true.1 h c hc
  rw [Bool.and_eq_true, Bool.and_eq_true, decide_eq_true_eq, decide_eq_true_eq] at this
  exact ⟨chooses_of this.1.1 this.1.2, ⟨this.2.1, fun _ h => nomatch h⟩, this.2.2.1, this.2.2.2.1, this.2.2.2.2⟩

/-- A slot whose result word alone is to be written, at once or behind the Detail Value that is stale. -/
def resulting (afterDetail : Bool) : State :=
  let x : CommandSlot :=
    { busy := true, lastTaken := 1, reading := none, command := none, result := some ⟨0x10001, afterDetail⟩, detailValue := 7 }
  State.enrol { stale (if afterDetail then [208] else []) false with slots := ready.slots.set 0 x }

/-- Place 5: its sharers, each with its request at the arbiter. -/
def sharers : List (State × Block) :=
  [((recording .decided decidedLane).enrol, .verdictRecord 0), ((stale [2, 3] true).enrol, .statusArea),
   ((stale [3] false).enrol, .statusArea), (resulting true, .statusArea), (resulting false, .commandSlot 0)]

theorem witness_Sharers :
    (∀ c ∈ sharers, c.1.Chooses .status ∧ c.1.Offers c.2 [] [] ∧ c.1.arbiter.requests.Nodup ∧ c.1.Enrolled
      ∧ c.1.memory.wf = true)
    ∧ ((resulting false).slot 0).result = some ⟨0x10001, false⟩ ∧ ((resulting true).slot 0).result = some ⟨0x10001, true⟩
    ∧ (resulting true).status.stale = [208 + (0 : SlotId).val] := by
  have h : sharers.all (fun c => (c.1.waits .status && (!c.1.processor.taken || decide (c.1.arbiter.losses < 4))
        && requesters.all (fun y => decide (Requester.status.place ≤ y.place) || !c.1.waits y))
      && decide (c.1.arbiter.requests = [c.2] ∧ c.1.memory.wf = true)
      && allBlocks.all (fun x => c.1.arbiter.requests.contains x == c.1.hasWord x)) = true := by decide +kernel
  refine ⟨fun c hc => ?_, by decide +kernel, by decide +kernel, by decide +kernel⟩
  have := List.all_eq_true.1 h c hc
  rw [Bool.and_eq_true, Bool.and_eq_true, decide_eq_true_eq] at this
  exact ⟨chooses_of (by decide) this.1.1, ⟨this.1.2.1, fun _ h => nomatch h⟩, by rw [this.1.2.1]; simp, enrolled_of this.2,
    this.1.2.2⟩

/-- R178: a result word goes behind its Detail Value, and frees its slot. -/
theorem test_resultWords :
    (after (resulting true) .memoryArbiterChoice).memory.word (8192 + 4 * 208) = 7
    ∧ ((after (resulting true) .memoryArbiterChoice).slot 0).result = some ⟨0x10001, false⟩
    ∧ (after (resulting false) .memoryArbiterChoice).memory.word 4120 = 0x10001
    ∧ ((after (resulting false) .memoryArbiterChoice).slot 0).busy = false := by decide +kernel

/-- The rest of what the served words ask for: the queue of reader words, with a second that may be read, the image, the
records, and memory in its form. -/
theorem witness_WordsAreServed :
    (owned [⟨0, 0x40000, .read⟩]).reader.words = [⟨0, 0x40000, .read⟩] ∧ (owned []).memory.wf = true
    ∧ (owned [⟨0, 0x40000, .read⟩, ⟨0, 0x40004, .read⟩]).reader.owner = some 0
    ∧ (owned [⟨0, 0x40000, .read⟩, ⟨0, 0x40004, .read⟩]).judge 0x40004 (.reader 0) .read = .ok (.plain (Quad.all true))
    ∧ (composing 15).screening.run = some { runAt .composing with image := some charged, written := 15 }
    ∧ (recording .decided decidedLane).status.records.find? (fun k => k.lane == 0)
        = some ⟨0, 10, #v[10, 1, 2, 3, 4, 5, 6, 7], 0, .decided⟩
    ∧ (stale [2, 3] true).status.due = [4] ∧ (stale [3] false).status.due = [] ∧ (stale [3] false).status.stale = [3]
    ∧ (stale [3] false).status.changeCount = some 4 ∧ (composing 0).memory.wf = true := by
  refine ⟨rfl, rfl, rfl, by rfl, rfl, rfl, rfl, rfl, rfl, rfl, by decide +kernel⟩

/-- R109, R101, R82, R184: one word a choice, the last one completing what it belongs to. -/
theorem test_wordAChoice :
    (after (journaling (appendJob 0)).enrol .memoryArbiterChoice).memory.word (16384 + 32 + 32 * 8) = 8
    ∧ (after (journaling (appendJob 0)).enrol .memoryArbiterChoice).journal.next = 8
    ∧ (after (journaling (appendJob 7)).enrol .memoryArbiterChoice).journal.next = 9
    ∧ (after (composing 15).enrol .memoryArbiterChoice).screening.run.bind (·.decision) = some .accept
    ∧ (after (recording .decided decidedLane).enrol .memoryArbiterChoice).memory.word 260 = 1
    ∧ (after (stale [3] false).enrol .memoryArbiterChoice).status.due = [5]
    ∧ (after (stale [3] false).enrol .memoryArbiterChoice).memory.word 8192 = 0 := by decide +kernel

/-- R166, R167: a choice of place 4 or 7 makes one read of its block; after four of them a waiting processor word is made. -/
theorem test_readAChoice :
    (after (arrived id).enrol .memoryArbiterChoice).screening.run.map (·.got) = some [some card[0]]
    ∧ (after selected.enrol .memoryArbiterChoice).startUp.got = [some 0]
    ∧ (let s := { arrived id with processor := { ready.processor with words := [⟨0x40004, .service, .read⟩], taken := true } }
       (after s .landedImageRead).processor.answers = [.done (some 0)]
       ∧ ((after s .landedImageRead).lane 0).landed = some card
       ∧ (after (journaling (appendJob 5)) .journalAppendComplete).arbiter.losses = 0
       ∧ (after { journaling (appendJob 5) with processor := s.processor } .journalAppendComplete).arbiter.losses = 3
       ∧ (after { journaling (appendJob 5) with processor := s.processor } .journalAppendComplete).processor.taken = true) := by
  decide +kernel

/-- R14, R160: the last word of a dropped access is answered, and then the grant ends and modem 2 is granted. -/
theorem test_droppedAccess :
    let t := after (after (owned [⟨0, 0x40000, .read⟩]) (.requestDrop 0)) .memoryArbiterChoice
    t.reader.signals = [.answer 0 (.done (some 0))] ∧ t.reader.owner = some 2 ∧ t.reader.ending = false := by decide +kernel

/-! ### The Reader Port's drops and expiries -/

/-- Words of the lane's own access, words that another modem left at the arbiter, and a drop in mid-access. -/
theorem witness_Drops :
    (∃ w ∈ (owned [⟨0, 0x40000, .read⟩]).reader.words, w.lane = 0)
    ∧ (owned [⟨2, 0x40000, .read⟩]).reader.words ≠ [] ∧ (∀ w ∈ (owned [⟨2, 0x40000, .read⟩]).reader.words, w.lane ≠ 0)
    ∧ (owned []).reader.ending = false
    ∧ (after (after (owned [⟨0, 0x40000, .read⟩]) (.requestDrop 0)) (.requestRise ⟨true, false, false, false⟩)).reader.ending
        = true
    ∧ (after (owned [⟨0, 0x40000, .read⟩]) (.requestDrop 0)).reader.requests.get 0 = false
    ∧ ready.reader.holdTimer = false := by decide +kernel

/-- R14, R15: a grant that a drop is ending is not withdrawn, although the request was raised again. -/
theorem test_endingGrant :
    let t := after (after (owned [⟨0, 0x40000, .read⟩]) (.requestDrop 0)) (.requestRise ⟨true, false, false, false⟩)
    (after t .grantHoldExpiry).reader.owner = some 0 ∧ (after t .grantHoldExpiry).faultRecord.first = none
    ∧ (after (owned [⟨2, 0x40000, .read⟩]) (.requestDrop 0)).reader.owner = some 2 := by decide +kernel

/-- Modem 0 within a burst that has a word still to come, its request dropped. -/
def dropping : State := after { owned [] with reader := { (owned []).reader with left := 1 } } (.requestDrop 0)

/-- A word of an access during which the request was dropped may be presented, and is the last or not. -/
theorem witness_WordsAfterDrop :
    dropping.ReaderTurn 0 ∧ dropping.reader.ending = true ∧ dropping.unit = .ready ∧ dropping.memory.wf = true
    ∧ (owned []).reader.left = 0 ∧ ({ owned [] with reader := { (owned []).reader with left := 1 } } : State).reader.left ≠ 0 :=
  ⟨⟨sound_of (by decide +kernel), rfl, .inr (by decide), rfl⟩, rfl, rfl, by decide +kernel, rfl, by decide⟩

/-- R14, R7: the grant of a modem that drops its request between two words of a burst ends with the last of them. -/
theorem test_dropWithinBurst :
    dropping.reader.owner = some 0
    ∧ ((after dropping (.landingWordWrite ⟨0, 0⟩ 15 0xF 5)).lane 0).mask = 0x8000
    ∧ (after dropping (.landingWordWrite ⟨0, 0⟩ 15 0xF 5)).reader.owner = some 2
    ∧ (after dropping (.landingWordWrite ⟨0, 1⟩ 15 0xF 5)).reader.owner = some 0
    ∧ (after (after dropping (.landingWordWrite ⟨0, 0⟩ 15 0xF 5)) (.landingWordWrite ⟨0, 0⟩ 14 0xF 5)).lane 0
      = (after dropping (.landingWordWrite ⟨0, 0⟩ 15 0xF 5)).lane 0 := by decide +kernel

/-! ### Banks whose check agrees: the tests past it -/

/-- The CRC-32 of bank A's bytes from offset 64 on, of `n` deny entries (R48). -/
def bankCrc (m : Memory) (n : Nat) : Word :=
  crc32 ((List.range (960 + 16 * n)).map (fun i => m.byte (65536 + (64 + i))))

/-- Bank A VALIDATING, its check word right for what the memory holds. -/
def sealed (m : Memory) (n : Nat) : State := validating (m.writeWord 65544 (bankCrc m n))

/-- The check agrees, and every other word of the bank is as it was. -/
theorem sealed_check (m : Memory) (n : Nat) (h : m.wf = true) :
    crc32 ((List.range (960 + 16 * n)).map
        (fun i => (sealed m n).memory.byte ((sealed m n).bankAddress .a (64 + i))))
      = (sealed m n).memory.word ((sealed m n).bankAddress .a 8)
    ∧ (sealed m n).memory.wf = true ∧ (sealed m n).unit = .ready
    ∧ (sealed m n).banks.validation = some (.a, 0) ∧ ((sealed m n).bank .a).state = some .validating
    ∧ (∀ o, (o + 4 ≤ 8 ∨ 12 ≤ o) →
        (sealed m n).memory.word ((sealed m n).bankAddress .a o) = m.word (65536 + o)
        ∧ (sealed m n).memory.health ((sealed m n).bankAddress .a o) = m.health (65536 + o))
    ∧ (sealed m n).memory.health ((sealed m n).bankAddress .a 8) = .clean ∧ (sealed m n).StatusApart := by
  have ha (o : Nat) : (sealed m n).bankAddress .a o = 65536 + o := rfl
  refine ⟨?_, Memory.wf_writeWord _ _ h, rfl, rfl, rfl, fun o ho => ?_, Memory.health_writeWord_self _ _ h,
    .inr (Nat.le_of_ble_eq_true rfl)⟩
  · rw [ha 8]
    refine Eq.trans ?_ (Memory.word_writeWord_self _ _ h).symm
    unfold bankCrc
    congr 1
    refine List.map_congr_left fun i _ => ?_
    exact Memory.byte_writeWord_other _ (by rw [ha]; omega)
  · exact ⟨Memory.word_writeWord_other _ (by rw [ha]; omega), Memory.health_writeWord_other _ (by rw [ha]; omega)⟩

/-- The word at bank A's offset. -/
def bw (m : Memory) (o : Nat) : Word := m.word (65536 + o)

/-- The tests of R48 past the check, each over the memory alone: DENY_ORDER, BAND_COUNT, BAND_ORDER, BAND_FACTOR,
PRODUCT_KIND and PRODUCT_FACTOR, each saying where it fails. -/
def bankFails (m : Memory) (n : Nat) : List (List Nat) :=
  let serial (i : Nat) : Nat := (bw m (1028 + 16 * i) ++ bw m (1024 + 16 * i) : Serial).toNat
  let bands := (bw m 576).toNat
  let start (i : Nat) : Nat := bits (bw m (580 + 4 * i)) 0 16
  [ (List.range n).filter (fun i => 0 < i && decide (serial i ≤ serial (i - 1))),
    if 1 ≤ bands ∧ bands ≤ 8 then [] else [0],
    (List.range bands).filter (fun i => 0 < i && decide (start i ≤ start (i - 1))),
    (List.range bands).filter (fun i => decide (2000 < bits (bw m (580 + 4 * i)) 16 16)),
    (List.range 16).filter (fun i => !(1 ≤ bits (bw m (612 + 8 * i)) 0 8 && bits (bw m (612 + 8 * i)) 0 8 ≤ 3)),
    (List.range 16).filter (fun i => decide (1000 < bits (bw m (612 + 8 * i)) 16 16)) ]

/-- A good bank with one word changed. -/
def bankWith (o : Nat) (w : Word) : Memory := bankMemory.writeWord (65536 + o) w

theorem clean_bankWith (o : Nat) (w : Word) (a : Nat) : (bankWith o w).health a = .clean := by
  by_cases h : a = 65536 + o
  · subst h; exact Memory.health_writeWord_self _ _ (by decide +kernel)
  · rw [bankWith, Memory.health_writeWord_other _ h]; exact clean_bankMemory a

/-- The good bank, and banks at which one of the tests 4 to 9 of R48 is the first to fail: the word changed, its new value,
the Deny Count, and the indices that each test finds. -/
def bankCases : List (Nat × Word × Nat × List (List Nat)) :=
  [ (4, 2, 2, [[1], [], [], [], [], []]), (576, 0, 0, [[], [0], [], [], [], []]),
    (576, 2, 0, [[], [], [1], [], [], []]), (580, 0x07D10000, 0, [[], [], [], [0], [], []]),
    (732, 0x03E80004, 0, [[], [], [], [], [15], []]), (612, 0x03E90001, 0, [[], [], [], [], [], [0]]) ]

/-- R48: with `sealed_check`, a bank at which each test is the first to fail, with its index, and one that passes them
all; every word is clean, the Version is 41, and the Deny Count is within the limit. -/
theorem witness_BankTests :
    (∀ o w, (bankWith o w).wf = true) ∧ (∀ o w a, (bankWith o w).health a = .clean)
    ∧ bankFails bankMemory 0 = [[], [], [], [], [], []]
    ∧ ∀ c ∈ bankCases, bw (bankWith c.1 c.2.1) 0 = 41 ∧ (bw (bankWith c.1 c.2.1) 4).toNat = c.2.2.1
        ∧ bankFails (bankWith c.1 c.2.1) c.2.2.1 = c.2.2.2 := by
  refine ⟨fun _ _ => Memory.wf_writeWord _ _ ?_, clean_bankWith, ?_, ?_⟩ <;> decide +kernel

/-- R48: a bank whose check word is wrong, one with an uncorrectable Deny Count, and one with an uncorrectable word under
the check. -/
theorem witness_BankCheck :
    crc32 ((List.range 960).map
        (fun i => (validating (bankWith 8 0)).memory.byte ((validating (bankWith 8 0)).bankAddress .a (64 + i))))
      ≠ (validating (bankWith 8 0)).memory.word ((validating (bankWith 8 0)).bankAddress .a 8)
    ∧ (validating { bankMemory with upsets := [(65540, 3)] }).memory.health 65540 = .uncorrectable
    ∧ (validating { bankMemory with upsets := [(66556, 3)] }).memory.health (65536 + (64 + 4 * 239)) = .uncorrectable
    ∧ (validating { bankMemory with upsets := [(66556, 3)] }).memory.wf = true := by
  refine ⟨?_, by decide +kernel, by decide +kernel, by decide +kernel⟩
  have h : (List.range 960).map
      (fun i => (validating (bankWith 8 0)).memory.byte ((validating (bankWith 8 0)).bankAddress .a (64 + i)))
      = bankBody.flatMap bytesOf := by decide +kernel
  rw [h, crc_bankBody]
  decide +kernel

/-- R48, R50, R178: an uncorrectable Deny Count damages the bank; a wrong check leaves it STAGING. -/
theorem test_bankDamage :
    (after (validating { bankMemory with upsets := [(65540, 3)] }) .bankValidationEnd).banks.a.state = some .damaged
    ∧ (after (validating { bankMemory with upsets := [(65540, 3)] }) .bankValidationEnd).noticed .bank = true := by
  decide +kernel

/-- R48: where the tests of `bankTests` stop at a table that is out of order. -/
theorem test_bankTests :
    ((bankTests 0 bankBody).drop 1).map id = [none, none, none, none, none, none]
    ∧ ((bankTests 0 (bankBody.set 128 2)).drop 1).findSome? id = some (.bandOrder, some 1)
    ∧ ((bankTests 0 (bankBody.set 167 0x03E90001)).drop 1).findSome? id = some (.productFactor, some 15) := by
  decide +kernel

/-! ### Selection between two banks -/

/-- The bank of `bankMemory` in bank B. -/
def bankMemoryB : Memory := { bankMemory with bytes := bankMemory.bytes.map (fun c => (c.1 + 65536, c.2)) }

theorem validation_b {s : State} (hm : s.memory = bankMemoryB) (hc : s.cfg = configured) :
    (s.validate .b).1 = ⟨none, some 41⟩ := by
  refine validation_at (base := 131072) (fun o => ?_) (fun a => ?_) ?_ ?_ ?_ ?_
  · simp [State.bankAddress, State.regionBase, State.region, hc, configured, regionsUsed, bankKind]
  · rw [hm]; exact Memory.health_of_upset rfl
  · rw [hm]; decide +kernel
  · rw [hm]; decide +kernel
  · rw [hm]; decide +kernel
  · rw [hm]
    have h : ∀ i < 240, bankMemoryB.word (131136 + 4 * i) = bankWord i := by decide +kernel
    unfold wordRun bankBody
    rw [List.map_map]
    exact List.map_congr_left fun i hi => h i (List.mem_range.1 hi)

/-- A first copy of the Unit Record, of Released 3, naming a bank by its number, with its Version, before the bytes of the
banks. -/
def recorded (bank version mark : Byte) (m : Memory) : Memory :=
  { m with bytes := (16384, 3) :: (16388, bank) :: (16392, version) :: (16396, mark)
      :: [(16397, 145), (16398, 58), (16399, 109)] ++ m.bytes }

/-- Selection states: a named bank that fails while the other passes, and while neither does, one that passes with another
Version than the recorded one, no named bank with B the one that passes, and with none, and a header that cannot be read. -/
theorem witness_BankSelection_more :
    ({ scanning with memory := recorded 2 41 236 bankMemory } : State).readUnitRecord.1 = some ⟨3, some .b, 41⟩
    ∧ (({ scanning with memory := recorded 2 41 236 bankMemory } : State).readUnitRecord.2.validate .b).1.failure
        = some (.version, none)
    ∧ ({ scanning with memory := recorded 1 40 238 bankMemory } : State).readUnitRecord.1 = some ⟨3, some .a, 40⟩
    ∧ ({ scanning with memory := recorded 1 41 239 ⟨[], []⟩ } : State).readUnitRecord.1 = some ⟨3, some .a, 41⟩
    ∧ (({ scanning with memory := recorded 1 41 239 ⟨[], []⟩ } : State).readUnitRecord.2.validate .a).1.failure
        = some (.version, none)
    ∧ ({ scanning with memory := bankMemoryB } : State).readUnitRecord.1 = none
    ∧ (({ scanning with memory := bankMemoryB } : State).readUnitRecord.2.validate .a).1.failure = some (.version, none)
    ∧ (({ scanning with memory := bankMemoryB } : State).readUnitRecord.2.validate .b).1.failure = none
    ∧ scanning.readUnitRecord.1 = none ∧ (scanning.readUnitRecord.2.validate .a).1.failure = some (.version, none)
    ∧ ({ scanning with memory := { bankMemory with upsets := [(131072, 3)] } } : State).memory.health
        (scanning.bankAddress .b 0) = .uncorrectable := by
  refine ⟨by decide +kernel, by decide +kernel, by decide +kernel, by decide +kernel, by decide +kernel,
    by decide +kernel, by decide +kernel, ?_, by decide +kernel, by decide +kernel, by decide +kernel⟩
  rw [validation_b (by decide +kernel) (by decide +kernel)]

/-- R55: without a bank that passes, the BANK_FALLBACK entry that is due names the bank that failed, and no other. -/
theorem test_selectionNamed :
    (after { scanning with memory := recorded 1 41 239 ⟨[], []⟩ } .bankSelection).banks.due = some (.bankFallback .a none)
    ∧ (after { scanning with memory := recorded 1 41 239 ⟨[], []⟩ } .bankSelection).noticed .bank = true
    ∧ (after { scanning with memory := recorded 1 41 239 ⟨[], []⟩ } .bankSelection).banks.fallback = false
    ∧ (after { scanning with memory := recorded 1 41 239 ⟨[], []⟩ } .bankSelection).journal.released = 3 := by
  decide +kernel

/-! ### A journal to restore -/

/-- A transaction entry of lane 1 for the card, at a sequence. -/
def entryAt (kind : TransactionKind) (q : Nat) (reference : Option Nat) : List Word :=
  (EntryDraft.words { lane := some 1, time := some ⟨900, 10⟩, flags := FareFlags.none, degraded := true
                      body := .transaction kind (cardSerial card) 13 215 785 reference, reserved := none } q).toList

/-- Released 0; a PENDING at 1, a PENDING at 2 that the CANCELLED of 3 resolves, an uncorrectable slot 4, valid entries at 5
to 10, and a BANK_FALLBACK entry due. -/
def restoring : State :=
  let put (s : State) (q : Nat) (kind : TransactionKind) (r : Option Nat) : State :=
    s.writeWords (s.entryAddress q) (entryAt kind q r)
  let s1 := put selected 1 .pending none
  let s2 := put s1 2 .pending none
  let s3 := put s2 3 .notCharged (some 2)
  let s4 := upset 3 (s3.entryAddress 4 + 8) s3
  let s5 := [5, 6, 7, 8, 9, 10].foldl (fun s q => put s q .expired none) s4
  { s5 with banks := { s5.banks with due := some (.bankFallback .a none) } }

theorem witness_ScanRestores :
    restoring.unit = .scanning ∧ restoring.startUp.selectionDone = true ∧ restoring.startUp.scanDone = false
    ∧ restoring.journal.job = none ∧ restoring.memory.wf = true ∧ 64 ≤ restoring.regionSize .journal
    ∧ restoring.readUnitRecord.1 = none
    ∧ ({ selected with memory := recordMemory } : State).readUnitRecord.1 = some ⟨3, some .a, 41⟩
    ∧ ready.unit ≠ .scanning := by decide +kernel

/-- The probes over, with slot 4 uncorrectable in its third word: the Journal Writer is to read the slot of sequence 5. -/
def readingOn : State :=
  let word (a : Nat) : Option Word := (restoring.readWord a).1
  let entries := [1, 2, 3].flatMap (fun q => (List.range 8).map (fun j => word (restoring.entryAddress q + 4 * j)))
  State.enrol { restoring with startUp := { restoring.startUp with
    got := (List.range 8).map (fun j => word (16384 + 4 * j)) ++ entries ++ [some 0, some 0, none] } }

theorem witness_ScanReadsOn :
    readingOn.Chooses .journal ∧ readingOn.Offers .journal [] []
    ∧ readingOn.nextRead .journal = some (readingOn.entryAddress 5) ∧ readingOn.memory.wf = true := by
  have h : (readingOn.waits .journal && (!readingOn.processor.taken || decide (readingOn.arbiter.losses < 4))
      && requesters.all (fun y => decide (Requester.journal.place ≤ y.place) || !readingOn.waits y)) = true := by
    decide +kernel
  have h' : readingOn.arbiter.requests = [.journal] ∧ readingOn.nextRead .journal = some (readingOn.entryAddress 5)
      ∧ readingOn.memory.wf = true := by decide +kernel
  exact ⟨chooses_of (by decide) h, ⟨h'.1, fun _ h => nomatch h⟩, h'.2⟩

/-- R116 to R118: the probes end at the uncorrectable slot 4, whose place and the two after it take the UNCERTAIN entry for
the PENDING of 1, the entry due and RESTART; the entries of 7 to 10 are invalidated, and the record is written. -/
theorem test_scanRestores :
    let t := after restoring .startUpScan
    let at_ (q j : Nat) : Word := t.memory.word (t.entryAddress q + 4 * j)
    t.journal.next = 7 ∧ t.journal.resolutions = 1 ∧ t.banks.due = none ∧ t.startUp.scanDone = true
    ∧ [1, 2, 3, 4, 5, 6, 7, 8, 9, 10].map (fun q => at_ q 7) = [1, 2, 3, 4, 5, 6, 0, 0, 0, 0]
    ∧ [4, 5, 6].map (fun q => bits (at_ q 1) 0 5) = [9, 27, 28]
    ∧ at_ 4 2 = card[1] ∧ bits (at_ 4 6) 16 16 = 3 ∧ t.faultRecord.first.map (·.kind) = some .uncorrectable
    ∧ t.memory.word 16396 = 0x6D3A91C4 := by decide +kernel

/-! ### Images that fail by one test, and values out of range -/

/-- The number in four bytes of an image, low byte first. -/
def numberAt (rom : List Byte) (i : Nat) : Nat :=
  (rom.getD i 0xFF).toNat + 256 * (rom.getD (i + 1) 0xFF).toNat
    + 65536 * ((rom.getD (i + 2) 0xFF).toNat + 256 * (rom.getD (i + 3) 0xFF).toNat)

/-- R186: such an image's check agrees. -/
theorem checkedImage_agrees (body : List Byte) (h : body.length = 1020) :
    (crc32 ((List.range 1020).map (fun i => (checkedImage body).getD i 0xFF))).toNat
      = numberAt (checkedImage body) 1020 := by
  have hb : (List.range 1020).map (fun i => (checkedImage body).getD i 0xFF) = body := by
    refine List.ext_getElem (by simp [h]) fun i h1 h2 => ?_
    rw [List.getElem_map, List.getElem_range, checkedImage_below h (by omega), List.getD_eq_getElem _ _ h2]
  rw [hb]
  generalize hw : crc32 body = w
  have ht (j : Nat) (hj : 1020 ≤ j) : (checkedImage body).getD j 0xFF = (bytesOf w).getD (j - 1020) 0xFF := by
    unfold checkedImage
    rw [List.getD_append_right _ _ _ _ (by omega), h, hw]
  unfold numberAt
  rw [ht _ (by omega), ht _ (by omega), ht _ (by omega), ht _ (by omega)]
  simp only [bytesOf, byteOf, bits, List.getD, Nat.sub_self, List.getElem?_cons_zero,
    List.getElem?_cons_succ, Option.getD_some, BitVec.toNat_ofNat]
  have := w.isLt
  omega

/-- `imageBody` with one byte changed. -/
def bodyWith (i : Nat) (b : Byte) : List Byte := imageBody.set i b

/-- R187: with `checkedImage_agrees`, an image with an unknown Kind, one that lacks the COMMAND region, one whose regions
overlap, one with two CURRENT keys and one with none, each good in what is judged before. -/
theorem witness_LoadIsJudged :
    (∀ i b, (bodyWith i b).length = 1020)
    ∧ 7 < ((bodyWith 112 8).getD (16 * 7) 0xFF).toNat
    ∧ (∀ r, r < 16 → ((bodyWith 16 0).getD (16 * r) 0xFF).toNat ≠ 2 ∧ ((bodyWith 16 0).getD (16 * r) 0xFF).toNat ≤ 7)
    ∧ (numberAt (bodyWith 24 0) (16 * 1 + 8) = 0 ∧ numberAt (bodyWith 24 0) (16 * 0 + 8) = 0
        ∧ numberAt (bodyWith 24 0) (16 * 0 + 12) = 1 ∧ ∀ r, r < 16 → ((bodyWith 24 0).getD (16 * r) 0xFF).toNat ≤ 7)
    ∧ ((bodyWith 265 1).getD (256 + 8 * 0 + 1) 0xFF = 1 ∧ (bodyWith 265 1).getD (256 + 8 * 1 + 1) 0xFF = 1)
    ∧ (∀ k, k < 4 → (bodyWith 257 2).getD (256 + 8 * k + 1) 0xFF ≠ 1)
    ∧ loadFaultOf image = none :=
  ⟨fun i b => by rw [bodyWith, List.length_set]; decide +kernel, by decide +kernel, by decide +kernel,
   by decide +kernel, by decide +kernel, by decide +kernel, image_sound⟩

/-- R187: the first cause, in its order. -/
theorem test_loadFault :
    loadFaultOf (checkedImage (bodyWith 112 8)) = some .kind
    ∧ loadFaultOf (checkedImage (bodyWith 16 0)) = some .region
    ∧ loadFaultOf (checkedImage (bodyWith 24 0)) = some .region
    ∧ loadFaultOf (checkedImage (bodyWith 265 1)) = some .key
    ∧ loadFaultOf (checkedImage (bodyWith 257 2)) = some .key := by
  have h (i : Nat) (b : Byte) : (bodyWith i b).length = 1020 := by
    rw [bodyWith, List.length_set]; decide +kernel
  exact ⟨loadFault_checked (h _ _) (by decide +kernel), loadFault_checked (h _ _) (by decide +kernel),
    loadFault_checked (h _ _) (by decide +kernel), loadFault_checked (h _ _) (by decide +kernel),
    loadFault_checked (h _ _) (by decide +kernel)⟩

/-- R187: a slot length of 0 and one of 9, a penalty fare above its ceiling, no lane present, and a right that is none. -/
theorem test_clamping :
    [0, 9].map (fun b => (loadImage (bodyWith 290 b)).1.slotLength) = [1, 8]
    ∧ (loadImage (bodyWith 335 0x20)).1.penaltyFare = 1500 ∧ (loadImage (bodyWith 335 0x20)).2 = true
    ∧ (loadImage (((imageBody.set 296 2).set 297 2).set 298 4)).1.present = ⟨true, false, false, false⟩
    ∧ ((loadImage (bodyWith 1 3)).1.regions.head?.map (·.service)) = some .denied ∧ (loadImage (bodyWith 1 3)).2 = true
    ∧ (loadImage (bodyWith 291 9)).1.slotLength = 2 := by decide +kernel

/-! ### The Journal Writer's queue -/

/-- An entry that is requested, into free space or against lane 1's reservation. -/
def asked (reserved : Option Lane) : JournalRequest :=
  .append { lane := none, time := none, flags := FareFlags.none, degraded := false, body := .tailgate .closed
            reserved := reserved } .nothing

/-- The Journal Writer at the end of a request, others waiting, the free space that is left. -/
def waitingJournal (free : Nat) (l : List JournalRequest) : State :=
  { ready with journal := { ready.journal with
      next := 8, reservationTotal := 248 - free, queue := l, release := some (1, 4) } }

theorem witness_NextRequest :
    (waitingJournal 1 []).journal.queue = [] ∧ (waitingJournal 1 [.reserve 0]).journal.queue = .reserve 0 :: []
    ∧ (waitingJournal 1 [.giveBack 2, asked none]).journal.queue = .giveBack 2 :: [asked none]
    ∧ (waitingJournal 1 [asked none]).freeSpace = 1 ∧ (waitingJournal 0 [asked none]).freeSpace = 0
    ∧ (waitingJournal 0 [asked (some 1)]).journal.queue = asked (some 1) :: []
    ∧ (waitingJournal 0 [.rewrite false]).journal.queue = .rewrite false :: []
    ∧ (waitingJournal 0 [.rewrite true]).journal.release = some (1, 4) := by decide +kernel

/-- R109, R111, R112: a return that waits behind an append frees nothing for it; one before it does. -/
theorem test_returnsInTurn :
    (waitingJournal 0 [asked none, .giveBack 2]).nextRequest.journal.unrecorded = 1
    ∧ (waitingJournal 0 [asked none, .giveBack 2]).nextRequest.journal.reservationTotal = 246
    ∧ ((waitingJournal 0 [.giveBack 2, asked none]).nextRequest.journal.job.map (·.written)) = some 0
    ∧ (waitingJournal 0 [.giveBack 2, asked none]).nextRequest.journal.unrecorded = 0 := by decide +kernel

/-- Appends of the other steps that follow, a run's refusal being handed over among them, and a full Journal. -/
theorem witness_AppendCompletes_more :
    ({ appending (screeningLane card) (.handOver 0) with screening := { queue := [], run := some { runAt .refusing with
        decision := some .passback } } } : State).screening.run
        = some { runAt .refusing with decision := some .passback }
    ∧ (appending decidedLane (.inconsistent 0 card)).journal.job
        = some (.append 8 #v[8, 2, 0, 0, 0, 0, 0, 8] 0 (some 0) (.inconsistent 0 card))
    ∧ 7 * 255 / 8 ≤ ({ appending decidedLane .nothing with journal := { (appending decidedLane .nothing).journal with
        next := 223 } } : State).journal.next - 0 := by decide +kernel

theorem test_handOverAppend :
    let t := after { appending (screeningLane card) (.handOver 0) with
      screening := { queue := [], run := some { runAt .refusing with decision := some .passback } } } .journalAppendComplete
    t.status.records.map (·.next) = [.idle] ∧ (t.lane 0).reservation = 0 ∧ t.screening.run = none
    ∧ ((after (appending decidedLane (.inconsistent 0 card)) .journalAppendComplete).status.records.map (·.next))
      = [.idle] := by decide +kernel

/-! ### Beams before READY, and check frames -/

theorem witness_BeamsBeforeReady :
    State.reset.unit = .inReset ∧ ready.present 3 = false ∧ scanning.present 0 = true ∧ loading.unit = .loading
    ∧ faulted.unit = .faulted ∧ (loading.gate 3).beams = .clear ∧ (loading.gate 3).inputA = false := by decide

/-- R122, R124: an absent lane's levels are taken and not followed; before READY a path moves no gate. -/
theorem test_beamsBeforeReady :
    ((after ready (.beamChange 3 .a true)).gate 3).inputA = true
    ∧ ((after ready (.beamChange 3 .a true)).gate 3).beams = .clear
    ∧ ((after State.reset (.beamChange 0 .b true)).gate 0).entryBeam = .unknown
    ∧ ((after { onPath .closed .a true .b [] false with startUp := unitAt .loading } (.beamChange 0 .b false)).gate 0).state
      = .closed := by decide +kernel

/-- A check whose generator stands where its send Index says, before and at the Index that is injected. -/
def checking (index : Nat) (mode : CheckMode) : State :=
  { lineIn .check (some mode) 1 none with line := { (lineIn .check (some mode) 1 none).line with
      sendIndex := index, generator := generatorRun generatorSeed (64 * index), injection := true } }

theorem witness_CheckFrames :
    (checking 124 .line).line.sendIndex < 65536
    ∧ (checking 124 .line).line.generator = generatorRun generatorSeed (64 * (checking 124 .line).line.sendIndex)
    ∧ (checking 124 .line).line.injection = true
    ∧ (checking 0 .wrap).line.generator = generatorRun generatorSeed (64 * (checking 0 .wrap).line.sendIndex) :=
  ⟨by decide, rfl, rfl, rfl⟩

/-- R157: of Indices 124 to 127 the one that is 126 mod 127 goes with bit 0 of its first byte inverted. -/
theorem test_injection :
    (after (checking 124 .wrap) .slotBoundary).line.sending.map (fun f => f.looped)
      = some [.check 124 (patternOf 124), .check 125 (patternOf 125),
              .check 126 ((patternOf 126).set 0 ((patternOf 126)[0] ^^^ 1)), .check 127 (patternOf 127)]
    ∧ (after (checking 124 .wrap) .slotBoundary).line.sendIndex = 128 := by decide +kernel

/-- A looped frame on the line. -/
theorem witness_Looped :
    (lineIn .check (some .wrap) 2 (some ⟨255, [], [.check 0 (patternOf 0)]⟩)).line.sending
        = some ⟨255, [], [.check 0 (patternOf 0)]⟩
    ∧ [ReceivedMessage.check 0 (patternOf 0)] ≠ [] := ⟨rfl, by simp⟩

theorem test_looped :
    (after (lineIn .check (some .wrap) 2 (some ⟨255, [], [.check 0 (patternOf 0)]⟩)) .collision).line.membership = .check
    ∧ (after (lineIn .check (some .wrap) 2 (some ⟨255, [], [.check 0 (patternOf 0)]⟩)) .frameComplete).line.inbox
      = [(2, .check 0 (patternOf 0))] := by decide +kernel

/-- A JOINED frame still on the line in CHECK in WRAP mode. -/
theorem test_wrapCollision :
    (after (lineIn .check (some .wrap) 2 (some ⟨255, [], []⟩)) .collision).line.membership = .resync := by decide +kernel

/-- A run that ends by a waiting LANE_RESET while the Journal Writer is at work: the return waits (R109). -/
theorem witness_ReturnWaits :
    ({ queued true with journal := { (queued true).journal with job := some (.rewrite (unitRecordWords 4 none 0) 0 false) }
        } : State).journal.job ≠ none
    ∧ ((queued true).lane 0).reservation = 2 := by decide

/-! ### Waiting commands, the Region Map and the full Sightings Table -/

/-- `s` with a command of `code` for lane 0 in slot 1, its third argument as given. -/
def slotHolds (code arg3 : Nat) (s : State) : State :=
  let r : CommandRecord := ⟨BitVec.ofNat 32 code, 0, BitVec.ofNat 32 arg3, 0, 0, .service⟩
  let x : CommandSlot :=
    { busy := true, lastTaken := 41, reading := none, command := some r, result := none, detailValue := 0 }
  { s with slots := s.slots.set 1 x }

/-- Commands that waited, by code and third argument: at a lane that appends, at one that decides, and in each further
state. -/
def waitCases : List (Nat × Nat × State) :=
  [(1, 9, laneAt { decidedLane with appending := true }), (1, 9, decided), (2, 9, reissued), (2, 0, released),
   (1, 8, released), (1, 9, released), (3, 0, ready), (3, 0, recovering), (3, 0, queued true),
   (3, 0, recording .decided decidedLane), (3, 0, refusingLane)]

theorem witness_CommandWaits : ∀ c ∈ waitCases, (slotHolds c.1 c.2.1 c.2.2).CommandWaits 1
    ⟨BitVec.ofNat 32 c.1, 0, BitVec.ofNat 32 c.2.1, 0, 0, .service⟩ 0 := by
  have sound : ∀ c ∈ waitCases, c.2.2.memory.wf = true ∧ c.2.2.present 0 = true := by decide +kernel
  exact fun c hc => ⟨(sound c hc).1, by simp [slotHolds, State.slot], rfl, (sound c hc).2⟩

/-- R80: a command that waited for a lane that appends waits on; at a lane that has decided it is taken. -/
theorem test_waitingCommand :
    (((slotHolds 1 9 (laneAt { decidedLane with appending := true })).laneCommand 1).lane 0).waiting = [1]
    ∧ (((slotHolds 1 9 decided).laneCommand 1).lane 0).appending = true
    ∧ (((slotHolds 1 9 released).laneCommand 1).slot 1).result
      = some ⟨resultWord 41 .refusedState .none, false⟩ := by decide +kernel

/-- The same state with the command waiting for lane 0. -/
def oneWaits (s : State) : State := { s with lanes := s.lanes.set 0 { s.lane 0 with waiting := [1] } }

theorem witness_CommandsAreTaken :
    (oneWaits (slotHolds 3 0 (recording .decided { decidedLane with state := .screening }))).status.records.find?
        (fun i => i.lane == 0) = some ⟨0, 10, #v[10, 1, 2, 3, 4, 5, 6, 7], 0, .decided⟩
    ∧ ((oneWaits (slotHolds 3 0 (comparing 12 232 1))).lane 0).comparing = true
    ∧ ((oneWaits (slotHolds 3 0 (comparing 12 232 1))).lane 0).waiting = [1]
    ∧ (∀ j ∈ (oneWaits (slotHolds 3 0 (comparing 12 232 1))).status.records, j.lane = 0 → j.next = .answeredInRecovery)
    ∧ (∀ i : Fin 16, (oneWaits (slotHolds 3 0 (comparing 12 232 1))).memory.health
        ((oneWaits (slotHolds 3 0 (comparing 12 232 1))).laneAddress 0 (4 * i.val)) = .clean)
    ∧ (oneWaits (slotHolds 3 0 (appending decidedLane (.toIdle 0 none)))).journal.queue = []
    ∧ AfterAppend.lane (.toIdle 0 none) = some 0 := by decide +kernel

/-- R80: the LANE_RESET that waited for an append meets the lane in IDLE; one that waited for a record, in DECIDED. -/
theorem test_commandsAreTaken :
    (after (oneWaits (slotHolds 3 0 (appending decidedLane (.toIdle 0 none)))) .journalAppendComplete).memory.word
      (4096 + 32 + 24) = resultWord 41 .done .idle
    ∧ ((after (oneWaits (slotHolds 3 0 (recording .decided { decidedLane with state := .screening })))
        (.verdictRecordWritten 0)).lane 0).appending = true := by decide +kernel

theorem mapsTo_of {s : State} {a : Nat} {r : RegionEntry} {o : Nat}
    (h : s.unit ≠ .faulted ∧ s.cfg.regions.filter (fun q => q.holds a) = [r] ∧ a = 4096 * r.base + o) :
    s.MapsTo a r o := by
  obtain ⟨hu, hf, ha⟩ := h
  have covers (q : RegionEntry) : q.Covers a ↔ q.holds a = true := by
    simp [RegionEntry.Covers, RegionEntry.holds, and_assoc]
  have member (q : RegionEntry) : q ∈ s.cfg.regions ∧ q.holds a = true ↔ q = r := by
    rw [← List.mem_singleton (a := q), ← hf, List.mem_filter]
  exact ⟨hu, ((member r).2 rfl).1, (covers r).2 ((member r).2 rfl).2, fun q hq hc => (member q).1 ⟨hq, (covers q).1 hc⟩, ha⟩

/-- A word of every area of the map, each at a boundary of its range (R162): its address, region and offset. -/
def mapCases : List (Nat × Fin 7 × Nat) :=
  [(60, 0, 60), (64, 0, 64), (1212, 0, 1212), (192, 0, 192), (68, 0, 68), (284, 0, 284), (4348, 1, 252), (4120, 1, 24),
   (4352, 1, 256), (12284, 2, 4092), (24572, 3, 8188), (65536, 4, 0), (196604, 5, 65532), (266236, 6, 4092)]

theorem witness_MapsTo : ∀ c ∈ mapCases, ready.MapsTo c.1 (regionsUsed[c.2.1]'c.2.1.isLt) c.2.2 := by
  have sound : ∀ c ∈ mapCases, ready.unit ≠ .faulted
      ∧ ready.cfg.regions.filter (fun q => q.holds c.1) = [regionsUsed[c.2.1]'c.2.1.isLt]
      ∧ c.1 = 4096 * (regionsUsed[c.2.1]'c.2.1.isLt).base + c.2.2 := by decide +kernel
  exact fun c hc => mapsTo_of (sound c hc)

/-- The words that the part owns, first and last of each kind, with the conditions of the two ports (R163). -/
theorem witness_PartOwned :
    regionsUsed[0].PartOwned 284 ∧ regionsUsed[0].PartOwned 1212 ∧ regionsUsed[2].PartOwned 4092
    ∧ regionsUsed[3].PartOwned 8188 ∧ regionsUsed[1].PartOwned 24 ∧ regionsUsed[1].PartOwned 248
    ∧ ready.ProcessorTurn ∧ (granted ready).ReaderTurn 0 ∧ (granted ready).MapsTo 284 regionsUsed[0] 284
    ∧ ((284 : BitVec 32).toNat / 4 * 4) = 284 :=
  ⟨.inl (by decide), .inl (by decide), .inr (.inl rfl), .inr (.inr (.inl rfl)), .inr (.inr (.inr (by decide))),
   .inr (.inr (.inr (by decide))), ⟨sound_of (by decide +kernel), rfl, rfl⟩, readerTurn_of (by decide +kernel) rfl rfl,
   mapsTo_of (by decide), by decide⟩

/-- What the map tests by state: a slot that is busy, a bank in each state, a lane's landing area (R164). -/
theorem witness_StateTests :
    ((slotHolds 1 9 ready).slot 1).busy = true ∧ ((slotHolds 1 9 ready).slot 1).lastTaken ≠ 5
    ∧ (ready.bank .a).state = some .active ∧ (ready.bank .b).state = some .staging
    ∧ ((validating ⟨[], []⟩).bank .a).state = some .validating ∧ (ready.lane 0).state = .idle
    ∧ (decided.lane 0).state = .decided ∧ ((comparing 12 232 1).lane 0).comparing = true
    ∧ (ready.cfg.regions.filter (fun q => q.holds 12288)) = [] ∧ regionsUsed[6].admitted.get 3 = true := by decide +kernel

theorem test_regionMap :
    (slotHolds 1 9 ready).judge 4156 (.processor .service) (.write 1 41) = .error .slotBusy
    ∧ (slotHolds 1 9 ready).judge 4156 (.processor .service) (.write 0xC 5) = .ok (.commandWord 1 7)
    ∧ ready.judge 65536 (.processor .maint) (.write 0xF 5) = .error .bankLocked
    ∧ ready.judge 131072 (.processor .maint) (.write 0xF 5) = .ok (.bank .b)
    ∧ ready.judge 131072 (.processor .service) (.write 0xF 5) = .error .rights
    ∧ decided.judge 60 (.reader 0) (.write 0xF 5) = .error .landingLocked
    ∧ ready.judge 60 (.reader 1) .read = .error .rights := by decide +kernel

/-- A write of word 7 that takes no command: sequence 0, the last one taken, no byte enabled, and a busy slot (R175). -/
theorem witness_GoWordTakesNone :
    ready.judge 4124 (.processor .service) (.write 0xF 0x10000) = .ok (.commandWord 0 7)
    ∧ goSequence (mergeBytes 0xF (ready.memory.word 4124) 0x10000) = 0
    ∧ (slotHolds 1 9 ready).judge 4156 (.processor .maint) (.write 0xF 41) = .ok (.commandWord 1 7)
    ∧ goSequence (mergeBytes 0xF ((slotHolds 1 9 ready).memory.word 4156) 41) = ((slotHolds 1 9 ready).slot 1).lastTaken
    ∧ ready.judge 4124 (.processor .service) (.write 0 5) = .ok (.commandWord 0 7) ∧ ready.memory.health 4124 = .clean
    ∧ (ready.slot 0).busy = false ∧ ready.memory.wf = true := by decide +kernel

theorem test_goWordTakesNone :
    let t := after ready (.processorWordWrite 4124 .service 0xF 0x10000)
    t.processor.taken = true ∧ (after t .memoryArbiterChoice).memory.word 4124 = 0x10000
    ∧ (after t .memoryArbiterChoice).slots = ready.slots := by decide +kernel

/-- The recovery map in FAULTED, with and without usable command slots (R188). -/
theorem witness_RecoveryMap :
    faulted.unit = .faulted ∧ faulted.startUp.usableSlots = some 4096
    ∧ 4096 + 32 * (7 : SlotId).val + 28 ≤ 4348 ∧ 4348 < 4096 + 32 * (7 : SlotId).val + 32 ∧ (faulted.slot 7).busy = false
    ∧ ({ faulted with startUp := { faulted.startUp with usableSlots := none } } : State).unit = .faulted := by decide

/-- A Sightings Table of `n` entries of other Serials, each a second younger than the one before, and at the same seconds
one of NEIGHBOR for each of LOCAL. -/
def sightingsFull (n : Nat) : List Sighting :=
  (List.range n).map (fun i =>
    ⟨BitVec.ofNat 64 (100000 - i), 1, 5, 3, ⟨900, i / 2⟩, if i % 2 = 0 then .own else .neighbor⟩)

theorem witness_FullSightings :
    (sightingsFull 512).length = 512 ∧ (sightingsFull 511).length < 512
    ∧ (∀ f ∈ sightingsFull 512, f.serial ≠ cardSerial card)
    ∧ ({ granted released with clock := none } : State).clock = none
    ∧ ({ heard (report 13 785 4) known with clock := none } : State).clock = none
    ∧ ({ heard (report 13 785 4) known with clock := none } : State).line.inbox = (5, report 13 785 4) :: [] := by
  decide +kernel

/-- R36: of the two entries of the oldest second, the one of Origin NEIGHBOR gives way; with the clock UNSET nothing is
set. -/
theorem test_fullSightings :
    (after { granted released with sightings := sightingsFull 512 } (.resultWordWrite ⟨0, 0⟩ 0xF 1)).sightings
      = (sightingsFull 512).eraseIdx 1 ++ [⟨cardSerial card, 13, 785, 2, ⟨900, 3600⟩, .own⟩]
    ∧ (after { granted released with clock := none } (.resultWordWrite ⟨0, 0⟩ 0xF 1)).sightings = [] := by decide +kernel

/-- The composed image's values at the ends of their ranges, on an entry and on an exit. -/
theorem witness_Composed :
    cardCounter card = 12 ∧ (2147483647 : Int) ≤ 2147483647 ∧ (65535 : Nat) < 65536 ∧ (86399 : Nat) < 86400
    ∧ (4095 : Nat) < 4096 ∧ (15 : Nat) < 16 ∧ (3 : Nat) < 4 ∧ cardCarryCount card = 0 := by decide

theorem test_composed :
    let w : WriteBack := ⟨-2147483648, 65535, 65535, 3, true, true, .exit ⟨65535, 86399⟩ 4095⟩
    let out := composeImage configured.keys (card.set 12 7) w
    cardBalance out = -2147483648 ∧ cardTransferCount out = 3 ∧ cardLastExitStation out = 4095
    ∧ cardEntryStation out = cardEntryStation card ∧ cardCarryWord out 2 = 0 := by decide +kernel

/-- A word becomes stale in an empty set while an even value is still due, and one in a set that is not empty (R184). -/
theorem witness_MakeStale :
    (stale [] true).status.stale = [] ∧ (stale [] true).status.due.getLast? = some 4 ∧ (stale [] true).memory.wf = true
    ∧ (stale [] true).status.changeCount = some 4 ∧ (stale [3] false).status.stale ≠ [] ∧ ([2, 5] : List Nat) ≠ [] := by
  decide

theorem test_makeStale :
    ((stale [] true).makeStale [2, 5]).status.due = [4, 5] ∧ ((stale [] true).makeStale [2, 5]).status.stale = [2, 5]
    ∧ ((stale [3] false).makeStale [2, 5]).status.stale = [2, 3, 5]
    ∧ ((stale [3] false).makeStale [2, 5]).status.changeCount = some 4
    ∧ (after (stale [] true) .statusWordWrite).memory.word 8192 = 4 := by decide +kernel

/-- R164, R176, R184: with the sixth read of the slot the command acknowledges FAULT, whose Detail Value is to be shown before
the result word, and the word behind it is refused; the flag, set again, is stale once more. -/
theorem test_burstIsSettledByWord :
    let t := after acknowledging.enrol .memoryArbiterChoice
    t.status.notices = 0x400 ∧ 4 ∈ t.status.stale ∧ t.memory.word (8192 + 16) = 0 ∧ (t.slot 0).detailValue = 0x400
    ∧ (t.slot 0).result = some ⟨resultWord 1 .done .none, true⟩
    ∧ t.processor.answers = [.done none, .failed (some (BitVec.allOnes 32))] := by decide +kernel

/-! ### The path to the words of a row -/

/-- The hypotheses of `State.PathFree`, as one computation. -/
def freely (s : State) (x : Block) (p : Nat) : Bool :=
  !s.reader.taken && !s.processor.taken && s.arbiter.requests.all (fun y => decide (y = x) || decide (p < y.requester.place))

theorem pathFree_of {s : State} {x : Block} {p : Nat} (h : freely s x p = true) : s.PathFree x p := by
  simp only [freely, Bool.and_eq_true, Bool.not_eq_true', List.all_eq_true, Bool.or_eq_true, decide_eq_true_eq] at h
  exact ⟨h.1.1, h.1.2, h.2⟩

/-- Nothing that a row reads has been read by a choice before it, and no result word waits. -/
def unread (s : State) : Bool :=
  decide (s.startUp.got = [] ∧ s.banks.got = [] ∧ (s.screening.run.map (·.got)).getD [] = [] ∧ (∀ n, (s.lane n).got = [])
    ∧ ∀ k, (s.slot k).result = none)

/-- A state of each row that makes words, its block, and the place up to which nothing else waits. -/
def pathCases : List (State × Block × Nat) :=
  [(loading, .statusArea, 5), (scanning, .startUp, 7), (selected, .startUp, 7), (restoring, .startUp, 7),
   (queued true, .commandSlot 3, 5), (arrived id, .run, 4), (running .format card, .run, 4), (denyRun 3 3, .run, 4),
   (running .fare card, .run, 4), (runningOut .fare card, .run, 4), (composing 0, .composer, 3),
   (handing .accept false true, .commandSlot 3, 5), (recording .decided decidedLane, .verdictRecord 0, 5),
   (comparing 12 232 1, .comparison 0, 5), (appending decidedLane (.release 0 0), .journal, 5), (rewriting true, .journal, 5),
   (validating ⟨[], []⟩, .bankControl, 6), (stale [2, 3] true, .statusArea, 5)]

/-- The same with the requests of their blocks at the arbiter. -/
theorem witness_PathFree : ∀ c ∈ pathCases, c.1.PathFree c.2.1 c.2.2 ∧ c.1.enrol.PathFree c.2.1 c.2.2 ∧ c.1.Sound
    ∧ unread c.1 = true := by
  have h : pathCases.all (fun c => freely c.1 c.2.1 c.2.2 && freely c.1.enrol c.2.1 c.2.2 && soundly c.1 && unread c.1)
      = true := by decide +kernel
  intro c hc
  have := List.all_eq_true.1 h c hc
  simp only [Bool.and_eq_true] at this
  exact ⟨pathFree_of this.1.1.1, pathFree_of this.1.1.2, sound_of this.1.2, this.2⟩

end Sys2Proof.Tests
end

/-! ### Requests move the grant (R13, R14, R16) -/

namespace Sys2Proof.Machine

variable {s : State} {n : Lane}

/-- The port after the requests of `modems` have joined the others (R13). -/
def ReaderPort.raised (p : ReaderPort) (modems : Quad Bool) : ReaderPort :=
  { p with requests := ⟨p.requests.l0 || modems.l0, p.requests.l1 || modems.l1,
                        p.requests.l2 || modems.l2, p.requests.l3 || modems.l3⟩ }

/-- The port after modem `n` has dropped its request, which clears its barred mark (R16); a grant of its own still stands. -/
def ReaderPort.lowered (p : ReaderPort) (n : Lane) : ReaderPort :=
  { p with requests := p.requests.set n false, barred := p.barred.set n false }

/-- A row that ends with `settle` yields what it settles. -/
theorem yields_of_settle {i : Instr} {t : State} (h : exec i s = .next (s.settle t)) : s.Yields i t :=
  ⟨s.settle t, h, settle_mirrored s t⟩

theorem exec_requestRise (modems : Quad Bool) :
    exec (.requestRise modems) s = .next (s.settle { s with reader := s.reader.raised modems }.chooseModem) := rfl

theorem exec_requestDrop (n : Lane) : exec (.requestDrop n) s = .next (s.settle (s.dropRequest n)) := rfl

/-- A port that has an owner does not choose (R13). -/
theorem chooseModem_owned (ho : s.reader.owner ≠ none) : s.chooseModem = s :=
  if_neg fun h => ho h.2

/-- The owner's access is in progress while one of its words waits or has still to be presented (R14). -/
theorem busy_iff {p : ReaderPort} (ho : p.owner = some n) :
    p.busy = true ↔ (∃ w ∈ p.words, w.lane = n) ∨ p.left ≠ 0 := by
  rw [ReaderPort.busy, ho, or_comm]
  simp [eq_comm (a := n)]

/-- The drop of a modem that is not the owner leaves the grant as it is (R14, R16). -/
theorem dropRequest_of_ne_owner (ho : s.reader.owner ≠ some n) :
    s.dropRequest n = { s with reader := s.reader.lowered n } :=
  if_neg ho

/-- The owner's drop marks its grant as ending, and ends it if it may end now (R14). -/
theorem dropRequest_of_owner (ho : s.reader.owner = some n) :
    s.dropRequest n = { s with reader := { s.reader.lowered n with ending := true } }.endIfDropped :=
  if_pos ho

/-- A grant that is ending stands while an access of the owner is in progress (R14). -/
theorem endIfDropped_busy (hb : s.reader.busy = true) : s.endIfDropped = s := by
  simp [State.endIfDropped, hb]

/-- A grant that is ending ends once no access of the owner is in progress, and the port chooses again (R14). -/
theorem endIfDropped_free (hr : s.unit = .ready) (he : s.reader.ending = true) (hb : s.reader.busy = false) :
    s.endIfDropped = { s with reader := s.reader.ended s.cfg.present } := by
  simp [State.endIfDropped, he, hb, endGrant_ready hr]

/-- REQUEST_RISE in READY: a free port chooses among all the requests at once (R13). -/
theorem requestRise_yields (hr : s.unit = .ready) (modems : Quad Bool) :
    s.Yields (.requestRise modems) { s with reader :=
      if s.reader.owner = none then (s.reader.raised modems).chosen s.cfg.present else s.reader.raised modems } := by
  apply yields_of_settle
  rw [exec_requestRise]
  split
  next ho => rw [chooseModem_ready (s := { s with reader := s.reader.raised modems }) hr ho]
  next ho => rw [chooseModem_owned (s := { s with reader := s.reader.raised modems }) ho]

/-- REQUEST_DROP of a modem without the grant (R16). -/
theorem requestDrop_yields_of_ne_owner (ho : s.reader.owner ≠ some n) :
    s.Yields (.requestDrop n) { s with reader := s.reader.lowered n } := by
  apply yields_of_settle
  rw [exec_requestDrop, dropRequest_of_ne_owner ho]

/-- REQUEST_DROP of the owner during its access: the grant is to end with the access (R14). -/
theorem requestDrop_yields_of_busy (ho : s.reader.owner = some n) (hb : s.reader.busy = true) :
    s.Yields (.requestDrop n) { s with reader := { s.reader.lowered n with ending := true } } := by
  apply yields_of_settle
  rw [exec_requestDrop, dropRequest_of_owner ho, endIfDropped_busy (by exact hb)]

/-- REQUEST_DROP of the owner with no access in progress: the grant ends at once, and the port chooses again (R14). -/
theorem requestDrop_yields_of_free (hr : s.unit = .ready) (ho : s.reader.owner = some n) (hb : s.reader.busy = false) :
    s.Yields (.requestDrop n) { s with reader := (s.reader.lowered n).ended s.cfg.present } := by
  apply yields_of_settle
  rw [exec_requestDrop, dropRequest_of_owner ho, endIfDropped_free (by exact hr) rfl (by exact hb)]
  rfl

/-- Settles O30: the rise by whether the port has an owner, the drop by whether the modem is the owner and its access is in
progress. -/
theorem requestsMoveTheGrant : Obligations.RequestsMoveTheGrant := by
  intro s hr
  refine ⟨requestRise_yields hr, fun n => ⟨requestDrop_yields_of_ne_owner, fun ho hb => ?_, fun ho hw hl => ?_⟩⟩
  · exact requestDrop_yields_of_busy ho ((busy_iff ho).2 hb)
  · have hfree : s.reader.busy = false := by
      rw [Bool.eq_false_iff, ne_eq, busy_iff ho]
      rintro (⟨w, hmem, hlane⟩ | hleft)
      · exact hw w hmem hlane
      · exact hleft hl
    exact requestDrop_yields_of_free hr ho hfree

end Sys2Proof.Machine

/-! ### The sightings lookup of a run (R31, R35, R37, R38, R150, R151) -/

namespace Sys2Proof.Machine

variable {s t u : State} {r : Run} {x : Serial} {img : Image} {now : ServiceTime} {e : Sighting} {d : Decision}

theorem State.Mirrored.denyList (h : u.Mirrored t) : t.denyList = u.denyList := by rw [h]

/-! #### The Transmit Queue (R150, R151) -/

/-- What a message that is to join makes of the line, with what gives way by its name in the model (R150, R151). -/
theorem Line.joined_eq (l : Line) (enabled : Bool) (m : TransmitMessage) :
    l.joined enabled m =
      if enabled = false then l
      else if l.queue.length < Config.transmitQueueSize then { l with queue := l.queue ++ [⟨m, false⟩] }
      else if l.queue.any QueuedMessage.givesWay then
        { l with
          queue := l.queue.eraseP QueuedMessage.givesWay ++ [⟨m, false⟩], dropped := min 65535 (l.dropped + 1) }
      else { l with dropped := min 65535 (l.dropped + 1) } := rfl

/-- A message that joins changes the queue and the count of those dropped alone. -/
theorem Line.joined_frame (l : Line) (enabled : Bool) (m : TransmitMessage) :
    l.joined enabled m =
      { l with queue := (l.joined enabled m).queue, dropped := (l.joined enabled m).dropped } := by
  rw [Line.joined_eq]
  split_ifs <;> rfl

/-- A message that is to join the Transmit Queue changes the line alone (R150, R151). -/
theorem transmit_eq (m : TransmitMessage) : s.transmit m = { s with line := s.line.joined s.cfg.lineEnabled m } := by
  unfold State.transmit
  cases he : s.cfg.lineEnabled with
  | false => rfl
  | true =>
    simp only [Line.joined_eq, joinQueue, Bool.true_eq_false, if_true, if_false]
    by_cases hroom : s.line.queue.length < Config.transmitQueueSize
    · simp only [if_pos hroom]; rfl
    · by_cases hgive : s.line.queue.any QueuedMessage.givesWay = true
      · simp only [if_neg hroom, if_pos hgive]; rfl
      · simp only [if_neg hroom, if_neg hgive]; rfl

/-! #### The Local Deny List (R31, R32) -/

theorem denied_eq_none_iff : s.denied x = none ↔ ∀ f ∈ s.denyList, f.serial ≠ x := by
  simp [State.denied, List.find?_eq_none]

/-- The room made for an entry that joins, and the Serial that its DENY_ADDED entry names as displaced (R31). -/
theorem roomMade_eq (s : State) (f : DenyEntry) :
    let made : List DenyEntry × Option Serial :=
      if s.denyList.length < Config.denyListSize then (s.denyList, none) else displaceDeny s.denyList
    made.1 ++ [f] = s.denyJoined f ∧ made.2 = s.displaced := by
  unfold displaceDeny State.denyJoined State.displaced Config.denyListSize
  by_cases hroom : s.denyList.length < 256
  · simp only [if_pos hroom, and_self]
  · simp only [if_neg hroom]
    cases hf : s.denyList.find? (fun g => g.origin == .neighbor) with
    | none =>
      have hno : s.denyList.any (fun g => g.origin == .neighbor) = false := by
        rw [List.any_eq_false]
        exact List.find?_eq_none.1 hf
      simp only [hno, Bool.false_eq_true, if_false, and_self]
    | some g =>
      have hg := List.find?_some hf
      have hyes : s.denyList.any (fun g => g.origin == .neighbor) = true :=
        List.any_eq_true.2 ⟨g, List.mem_of_find?_eq_some hf, hg⟩
      simp only [hyes, if_true, and_self]

/-- The state after a Serial that was not denied has joined the Local Deny List: the list, the DENY notice and the request
for the DENY_ADDED entry (R31). -/
def State.denyAdded (s : State) (x : Serial) (origin : Origin) (reason : DenyReason) (originUnit : UnitId) : State :=
  { s with
    denyList := s.denyJoined ⟨x, origin, reason, s.clock⟩
    journal := (s.request (s.denyEntry x origin reason originUnit)).journal
    status := { s.status with notices := s.status.notices ||| BitVec.ofNat 18 (2 ^ Notice.deny.bit) } }

/-- A Serial that is denied is not added again (R31). -/
theorem addDeny_of_denied (h : ∃ f ∈ s.denyList, f.serial = x) (origin : Origin) (reason : DenyReason) (v : UnitId) :
    s.addDeny x origin reason v = (false, s) := by
  obtain ⟨f, hmem, hser⟩ := h
  cases hd : s.denied x with
  | none => exact absurd hser (denied_eq_none_iff.1 hd f hmem)
  | some g => simp [State.addDeny, hd]

/-- A Serial that is not denied joins the Local Deny List (R31). -/
theorem addDeny_of_absent (h : ∀ f ∈ s.denyList, f.serial ≠ x) (origin : Origin) (reason : DenyReason) (v : UnitId) :
    s.addDeny x origin reason v = (true, s.denyAdded x origin reason v) := by
  obtain ⟨hlist, hserial⟩ := roomMade_eq s ⟨x, origin, reason, s.clock⟩
  unfold State.addDeny
  rw [denied_eq_none_iff.2 h]
  dsimp only
  rw [hlist, hserial, State.requestEntry, request_frame, request_congr (s := s) (by rfl) (by rfl)]
  rfl

/-- An add of this unit's own that changes nothing sends nothing (R32, R38). -/
theorem addOwnDeny_of_denied (h : ∃ f ∈ s.denyList, f.serial = x) (reason : DenyReason) :
    s.addOwnDeny x reason = (false, s) := by
  rw [State.addOwnDeny, addDeny_of_denied h]

/-- An add of this unit's own that changes the list is sent to the neighbors (R32, R38). -/
theorem addOwnDeny_of_absent (h : ∀ f ∈ s.denyList, f.serial ≠ x) (reason : DenyReason) :
    s.addOwnDeny x reason =
      (true, { s.denyAdded x .own reason 0 with line := s.line.joined s.cfg.lineEnabled (.deny x reason) }) := by
  rw [State.addOwnDeny, addDeny_of_absent h]
  exact congrArg (Prod.mk true) (transmit_eq _)

/-- An add of this unit's own changes the Local Deny List, the journal, the Transmit Queue with its count, and the notices
alone. -/
theorem addOwnDeny_frame (s : State) (x : Serial) (reason : DenyReason) :
    let a := (s.addOwnDeny x reason).2
    a = { s with
      denyList := a.denyList, journal := a.journal
      line := { s.line with queue := a.line.queue, dropped := a.line.dropped }
      status := { s.status with notices := a.status.notices } } := by
  by_cases h : ∃ f ∈ s.denyList, f.serial = x
  · rw [addOwnDeny_of_denied h]
  · rw [addOwnDeny_of_absent (by simpa using h)]
    simp only [← Line.joined_frame]
    rfl

/-! #### The lookup (R35) and the clone test (R37) -/

theorem lookSighting_none (h : s.sightings.find? (fun f => f.serial == x) = none) :
    s.lookSighting x (some now) = (none, s) := by
  simp [State.lookSighting, h]

/-- An entry past the sightings window is removed, and is no entry (R35). -/
theorem lookSighting_old (h : s.sightings.find? (fun f => f.serial == x) = some e)
    (hold : s.cfg.sightingsWindow * 60 < now.absolute - e.time.absolute) :
    s.lookSighting x (some now) = (none, { s with sightings := s.sightings.eraseP (fun f => f.serial == x) }) := by
  simp [State.lookSighting, h, Sighting.age, hold]

theorem lookSighting_live (h : s.sightings.find? (fun f => f.serial == x) = some e)
    (hlive : ¬s.cfg.sightingsWindow * 60 < now.absolute - e.time.absolute) :
    s.lookSighting x (some now) = (some e, s) := by
  simp [State.lookSighting, h, Sighting.age, hlive]

/-- A lower Counter passes, and so does the same one with the same Balance (R37). -/
theorem cloneRefusal_passes
    (h : e.counter < cardCounter img ∨ (e.counter = cardCounter img ∧ e.balance = img[4])) :
    cloneRefusal img (some e) = none := by
  obtain hlow | ⟨hsame, hbal⟩ := h
  · simp [cloneRefusal, hlow.not_gt, hlow.ne']
  · simp [cloneRefusal, hsame, hbal]

/-- A higher Counter is a REGRESSION, the same one with another Balance DIVERGED (R37). -/
theorem cloneRefusal_refuses
    (h : cardCounter img < e.counter ∨ (e.counter = cardCounter img ∧ e.balance ≠ img[4])) :
    cloneRefusal img (some e) =
      some (if cardCounter img < e.counter then .cloneRegression else .cloneDiverged) := by
  obtain hhigh | ⟨hsame, hbal⟩ := h
  · simp [cloneRefusal, hhigh]
  · simp [cloneRefusal, hsame, hbal.symm]

/-! #### The row -/

theorem advanceRun_eq (hr : s.screening.run = some r) (y : RunStage) :
    s.advanceRun y = { s with screening := { s.screening with run := some { r with stage := y, got := [] } } } := by
  simp [State.advanceRun, State.changeRun, State.setScreening, hr]

theorem decideRun_eq (hr : s.screening.run = some r) (d : Decision) :
    s.decideRun d = { s with
      screening := { s.screening with run := some { r with stage := .decided, got := [], decision := some d } } } := by
  simp [State.decideRun, State.changeRun, State.setScreening, hr]

/-- SIGHTINGS_LOOKUP with a run that stands before it makes the sightings check (R37). -/
theorem exec_sightingsLookup {z : BankId} (hr : s.screening.run = some r) (hs : r.stage = .sightings)
    (hp : (s.lane r.lane).pinned = some z) (hl : (s.lane r.lane).landed = some img) (hn : r.now = some now) :
    exec .sightingsLookup s = .next (s.settle (s.sightingsCheck img now)) := by
  have hdata : (s.runAt .sightings).bind s.runData = some (z, img, now) := by
    simp [State.runAt, State.runData, hr, hs, hp, hl, hn]
  have harm : exec .sightingsLookup s = execSightingsLookup s := rfl
  rw [harm, execSightingsLookup, hdata]

theorem sightingsCheck_passes {found : Option Sighting} (hlook : s.lookSighting (cardSerial img) (some now) = (found, t))
    (hc : cloneRefusal img found = none) : s.sightingsCheck img now = t.advanceRun .fare := by
  simp [State.sightingsCheck, hlook, hc]

theorem sightingsCheck_refuses {found : Option Sighting} (hlook : s.lookSighting (cardSerial img) (some now) = (found, t))
    (hc : cloneRefusal img found = some d) :
    s.sightingsCheck img now = (t.addOwnDeny (cardSerial img) .clone).2.decideRun d := by
  simp [State.sightingsCheck, hlook, hc]

/-- SIGHTINGS_LOOKUP where the clone test passes: the run goes on to the fare with what the lookup left (R35, R37). -/
theorem sightingsLookup_passes {found : Option Sighting}
    (hexec : exec .sightingsLookup s = .next (s.settle (s.sightingsCheck img now)))
    (hlook : s.lookSighting (cardSerial img) (some now) = (found, t)) (hc : cloneRefusal img found = none)
    (hr : t.screening.run = some r) :
    s.Yields .sightingsLookup
      { t with screening := { t.screening with run := some { r with stage := .fare, got := [] } } } := by
  apply yields_of_settle
  rw [hexec, sightingsCheck_passes hlook hc, advanceRun_eq hr]

/-- A CLONE verdict (R38): but for what the add of the Serial may change, the run alone changes. -/
theorem addOwnDeny_decideRun_mirrored (hr : s.screening.run = some r)
    (hm : ((s.addOwnDeny x .clone).2.decideRun d).Mirrored t) :
    ({ s with
        denyList := t.denyList, journal := t.journal, line := { s.line with
          queue := t.line.queue, dropped := t.line.dropped }
        status := { s.status with notices := t.status.notices }
        screening := { s.screening with run := some { r with
          stage := .decided, got := [], decision := some d } } }).Mirrored t := by
  have hframe := addOwnDeny_frame s x .clone
  generalize (s.addOwnDeny x .clone).2 = a at hm hframe
  have hscr : a.screening = s.screening := by rw [hframe]
  rw [decideRun_eq (hscr ▸ hr)] at hm
  rw [hm.denyList, hm.journal, hm.line, hm.notices]
  rw [hframe] at hm
  exact hm

/-- Settles O38: the lookup finds no entry, an old one or a live one (R35); a live one passes or refuses (R37), and a refusal
adds the Serial to the Local Deny List unless it is there (R38). -/
theorem sightingsLookupCatchesClones : Obligations.SightingsLookupCatchesClones := by
  intro s r z img now hr hs hp hl hn
  have hexec := exec_sightingsLookup hr hs hp hl hn
  refine ⟨fun hnone => ?_, fun e hfound => ⟨fun hold => ?_, fun hlive hpass => ?_, fun hlive hclone => ?_⟩⟩
  · exact sightingsLookup_passes hexec (lookSighting_none hnone) rfl hr
  · exact sightingsLookup_passes hexec (lookSighting_old hfound hold) rfl hr
  · exact sightingsLookup_passes hexec (lookSighting_live hfound hlive) (cloneRefusal_passes hpass) hr
  · have hcheck := sightingsCheck_refuses (lookSighting_live hfound hlive) (cloneRefusal_refuses hclone)
    rw [hcheck] at hexec
    have hm := settle_mirrored s ((s.addOwnDeny (cardSerial img) .clone).2.decideRun
      (if cardCounter img < e.counter then .cloneRegression else .cloneDiverged))
    refine ⟨_, hexec, addOwnDeny_decideRun_mirrored hr hm, fun hdenied => ?_, fun habsent => ?_⟩
    · rw [addOwnDeny_of_denied hdenied] at hm ⊢
      exact ⟨hm.denyList, hm.journal, hm.line, hm.notices⟩
    · rw [addOwnDeny_of_absent habsent] at hm ⊢
      exact ⟨hm.denyList, hm.notices, hm.journal, hm.line⟩

end Sys2Proof.Machine

/-! ### Beams, passages and gates (R124, R125, R128 to R132) -/

namespace Sys2Proof.Machine

variable {s u : State} {n : Lane} {beam : Beam} {blocked : Bool} {g : Gate} {x : BeamState} {body : EntryBody}

/-! #### The Beam Sequencer (R124, R125) -/

theorem beamsOf_eq (inputA inputB : Bool) :
    beamsOf inputA inputB = if inputA then (if inputB then .ab else .a) else if inputB then .b else .clear := by
  cases inputA <;> cases inputB <;> rfl

theorem setInput_eq (g : Gate) (beam : Beam) (blocked : Bool) :
    g.setInput beam blocked =
      { g with inputA := if beam = .a then blocked else g.inputA, inputB := if beam = .b then blocked else g.inputB } := by
  cases beam <;> rfl

theorem resetBeams_eq (g : Gate) :
    g.resetBeams =
      { g with
        beams := beamsOf g.inputA g.inputB
        entryBeam := if beamsOf g.inputA g.inputB = .clear then .absent else .unknown, crossed := false } := rfl

/-- A return to CLEAR ends the path, and starts the alarm hold of a gate in ALARM (R124, R132). -/
theorem moveBeams_clear (hb : g.beams ≠ .clear) :
    g.moveBeams .clear =
      { g with
        beams := .clear, entryBeam := .absent, crossed := false
        alarmTimer := if g.state = .alarm then true else g.alarmTimer } := by
  by_cases ha : g.state = .alarm <;> simp [Gate.moveBeams, ha, hb]

/-- A move that does not end in CLEAR begins the path or goes on with it, and stops the alarm hold (R124, R132). -/
theorem moveBeams_blocked (hx : x ≠ .clear) (hb : x ≠ g.beams) :
    g.moveBeams x =
      { g with
        beams := x
        entryBeam := if g.beams = .clear then (if x = .a then .a else if x = .b then .b else g.entryBeam)
                     else g.entryBeam
        crossed := if x = .ab then true else if g.beams = .clear then false else g.crossed
        alarmTimer := if g.state = .alarm then false else g.alarmTimer } := by
  have hhold : (x == .clear) = false := beq_false_of_ne hx
  by_cases ha : g.state = .alarm <;> simp only [Gate.moveBeams, ha, hb.symm, hhold, ne_eq, not_false_eq_true, and_true,
    if_true, if_false]
  all_goals
    cases x with
    | clear => exact absurd rfl hx
    | a | ab | b => cases g.beams <;> simp

theorem judgePath_forward (he : g.entryBeam = .a) (hc : g.crossed = true) (hb : g.beams = .b) :
    g.judgePath = .forward := by
  simp [Gate.judgePath, he, hc, hb]

theorem judgePath_reverse (he : g.entryBeam = .b) (hc : g.crossed = true) (hb : g.beams = .a) :
    g.judgePath = .reverse := by
  simp [Gate.judgePath, he, hc, hb]

theorem judgePath_absent (hf : ¬(g.entryBeam = .a ∧ g.crossed = true ∧ g.beams = .b))
    (hr : ¬(g.entryBeam = .b ∧ g.crossed = true ∧ g.beams = .a)) : g.judgePath = .absent := by
  unfold Gate.judgePath
  split
  next he hc hb => exact absurd ⟨he, hc, hb⟩ hf
  next he hc hb => exact absurd ⟨he, hc, hb⟩ hr
  next => rfl

/-! #### The gate and its entries (R128 to R132, R139) -/

theorem onCredits_eq (g : Gate) :
    g.onCredits =
      { g with
        state := if g.credits = [] then .closed else .opened, headTimer := decide (g.credits ≠ [])
        expiryPending := false, alarmTimer := false } := by
  cases h : g.credits <;> simp [Gate.onCredits, h]

/-- The gate in ALARM with the alarm hold running (R131, R132). -/
def Gate.alarmed (g : Gate) : Gate :=
  { g with state := .alarm, headTimer := false, expiryPending := false, alarmTimer := true }

/-- Lane `n`'s gate at `g`, and the request for an entry of that lane (R139). -/
def State.gateEntry (s : State) (n : Lane) (g : Gate) (body : EntryBody) : State :=
  (s.setGate n g).request (.append { lane := some n, time := s.clock, flags := FareFlags.none, degraded := false
                                     body := body, reserved := none } .nothing)

theorem gateEntry_status : (s.gateEntry n g body).status = s.status := by
  rw [State.gateEntry, request_frame]
  rfl

theorem alarm_setGate : (s.setGate n g).alarm n body = (s.gateEntry n g.alarmed body).notify (.alarm n) := by
  simp only [State.alarm, State.setGate_setGate, State.gate_setGate_self]
  rfl

theorem lapse_setGate {c : Credit} {rest : List Credit} (hc : g.credits = c :: rest) :
    (s.setGate n g).lapse n =
      s.gateEntry n { g with credits := rest }.onCredits (.unusedPassage (heldSeconds c.grant s.clock) c.commitSeq) := by
  simp only [State.lapse, State.setGate_setGate, State.gate_setGate_self, hc, Gate.dropHead, List.tail_cons]
  rfl

/-- A forward passage takes the head credit of an OPEN gate (R128). -/
theorem forwardPassage_opened (hg : g.state = .opened) :
    (s.setGate n g).forwardPassage n = s.setGate n { g with credits := g.credits.tail }.onCredits := by
  simp [State.forwardPassage, hg, Gate.dropHead]

theorem forwardPassage_alarms (hg : g.state = .closed ∨ g.state = .alarm) :
    (s.setGate n g).forwardPassage n = (s.gateEntry n g.alarmed (.tailgate g.state)).notify (.alarm n) := by
  rw [← alarm_setGate]
  obtain hg | hg := hg <;> simp [State.forwardPassage, hg]

/-- FREE and EMERGENCY ignore a forward passage (R128). -/
theorem forwardPassage_ignored (hg : g.state = .free ∨ g.state = .emergency) :
    (s.setGate n g).forwardPassage n = s.setGate n g := by
  obtain hg | hg := hg <;> simp [State.forwardPassage, hg]

/-- A reverse passage raises its alarm and leaves the credits (R129). -/
theorem reversePassage_alarms (hg : g.state = .opened ∨ g.state = .closed ∨ g.state = .alarm) :
    (s.setGate n g).reversePassage n =
      (s.gateEntry n g.alarmed (.wrongWay g.state (g.credits.head?.map (·.commitSeq)))).notify (.alarm n) := by
  rw [← alarm_setGate]
  obtain hg | hg | hg := hg <;> simp [State.reversePassage, hg]

/-- FREE and EMERGENCY ignore a reverse passage (R129). -/
theorem reversePassage_ignored (hg : g.state = .free ∨ g.state = .emergency) :
    (s.setGate n g).reversePassage n = s.setGate n g := by
  obtain hg | hg := hg <;> simp [State.reversePassage, hg]

/-- A path that is no passage leaves a gate without a deferred expiry as it is (R125). -/
theorem noPassage_settled (hg : g.expiryPending = false) :
    (s.setGate n g).laneCleared n .absent = s.setGate n g := by
  simp [State.laneCleared, hg]

/-- A path that is no passage lets a deferred expiry take the head credit (R130). -/
theorem noPassage_lapses {c : Credit} {rest : List Credit} (hg : g.expiryPending = true) (hc : g.credits = c :: rest) :
    (s.setGate n g).laneCleared n .absent =
      s.gateEntry n { g with credits := rest }.onCredits
        (.unusedPassage (heldSeconds c.grant s.clock) c.commitSeq) := by
  rw [← lapse_setGate hc]
  simp [State.laneCleared, hg]

/-! #### The row -/

/-- Where the inputs of lane `n` are followed: before the end of LOADING at every lane, and from then on at a present one
(R122, R124). -/
def State.Follows (s : State) (n : Lane) : Prop :=
  s.unit = .loading ∨ s.unit = .faulted ∨ ((s.unit = .scanning ∨ s.unit = .ready) ∧ s.present n = true)

theorem exec_beamChange :
    exec (.beamChange n beam blocked) s = .next (s.settle (s.beamChange n beam blocked)) := rfl

theorem beamChange_inReset (hu : s.unit = .inReset) :
    s.beamChange n beam blocked = s.setGate n ((s.gate n).setInput beam blocked).resetBeams := by
  simp [State.beamChange, hu]

theorem beamChange_absent (hu : s.unit = .scanning ∨ s.unit = .ready) (hp : s.present n = false) :
    s.beamChange n beam blocked = s.setGate n ((s.gate n).setInput beam blocked) := by
  obtain hu | hu := hu <;> simp [State.beamChange, hu, hp]

theorem beamChange_of_follows (h : s.Follows n) :
    s.beamChange n beam blocked = s.followBeams n ((s.gate n).setInput beam blocked) := by
  obtain hu | hu | ⟨hu | hu, hp⟩ := h <;> simp [State.beamChange, *]

/-- No passage is handed over while a beam is blocked, nor before READY (R124). -/
theorem followBeams_no_passage (h : beamsOf g.inputA g.inputB ≠ .clear ∨ s.unit ≠ .ready) :
    s.followBeams n g = s.setGate n (g.moveBeams (beamsOf g.inputA g.inputB)) :=
  if_neg fun ⟨hx, _, hr⟩ => h.elim (· hx) (· hr)

/-- In READY a return to CLEAR hands over the judgment of its path (R125). -/
theorem followBeams_closes (hx : beamsOf g.inputA g.inputB = .clear) (hb : g.beams ≠ .clear) (hr : s.unit = .ready) :
    s.followBeams n g = (s.setGate n (g.moveBeams .clear)).laneCleared n g.judgePath := by
  simp [State.followBeams, hx, hb, hr]

/-- A row that ends with a notice sets its flag and leaves the rest of what it settles (R181). -/
theorem notified_of_settle {i : Instr} {m : Notice} (h : exec i s = .next (s.settle (u.notify m)))
    (hu : u.status = s.status) :
    ∃ t, exec i s = .next t ∧ s.Notified t [m]
      ∧ ({ u with status := { s.status with notices := t.status.notices } }).Mirrored t := by
  have hm := settle_mirrored s (u.notify m)
  have hn : (s.settle (u.notify m)).status.notices = s.status.notices ||| BitVec.ofNat 18 (2 ^ m.bit) := by
    rw [hm.notices, ← hu]
    rfl
  refine ⟨_, h, hn, ?_⟩
  rw [hn, ← hu]
  exact hm

/-- Settles O51: the row by the unit state and the lane's presence, and in READY a return to CLEAR by the judgment of its
path (R125) and the Gate State. -/
theorem beamsMovePassages : Obligations.BeamsMovePassages := by
  intro s n beam blocked show_ g i inputA inputB x follows entered cleared gates requested onCredits alarmed head moved
  have hin : (s.gate n).setInput beam blocked = entered := setInput_eq g beam blocked
  have hx : beamsOf entered.inputA entered.inputB = x := beamsOf_eq inputA inputB
  have hexec : exec i s = .next (s.settle (s.beamChange n beam blocked)) := exec_beamChange
  have hfollow (h : s.Follows n) : s.beamChange n beam blocked = s.followBeams n entered := by
    rw [beamChange_of_follows h, hin]
  have hcleared (hf : follows) (hc : x = .clear) : entered.moveBeams .clear = cleared :=
    moveBeams_clear (g := entered) (hc ▸ hf.2.symm)
  have hmoved (h : s.Follows n) (hf : follows) (hne : x ≠ .clear) : s.Yields i (gates moved) := by
    apply yields_of_settle
    rw [hexec, hfollow h, followBeams_no_passage (.inl (hx ▸ hne)), hx, moveBeams_blocked (g := entered) hne hf.2]
    rfl
  have hclosed (h : s.Follows n) (hr : s.unit ≠ .ready) (hf : follows) (hc : x = .clear) :
      s.Yields i (gates cleared) := by
    apply yields_of_settle
    rw [hexec, hfollow h, followBeams_no_passage (.inr hr), hx, hc, hcleared hf hc]
    rfl
  refine ⟨fun hu => ?inReset, fun hu hp => ?absent, fun hu hf => ?early, fun hr hp hf => ?ready⟩
  case inReset =>
    apply yields_of_settle
    rw [hexec, beamChange_inReset hu, hin, resetBeams_eq, hx]
    rfl
  case absent =>
    apply yields_of_settle
    rw [hexec, beamChange_absent hu hp, hin]
    rfl
  case early =>
    have hfol : s.Follows n := hu.imp_right (·.imp_right fun ⟨hs, hp⟩ => ⟨.inl hs, hp⟩)
    have hr : s.unit ≠ .ready := by
      obtain hu | hu | ⟨hu, -⟩ := hu <;> simp [hu]
    exact ⟨hmoved hfol hf, hclosed hfol hr hf⟩
  case ready =>
    have hfol : s.Follows n := .inr (.inr ⟨.inr hr, hp⟩)
    have hcloses {p : Passage} (hc : x = .clear) (hj : entered.judgePath = p) :
        exec i s = .next (s.settle ((s.setGate n cleared).laneCleared n p)) := by
      rw [hexec, hfollow hfol, followBeams_closes (hx.trans hc) (hc ▸ hf.2.symm) hr, hcleared hf hc, hj]
    have hyields {p : Passage} {u : State} (hc : x = .clear) (hj : entered.judgePath = p)
        (h : (s.setGate n cleared).laneCleared n p = u) : s.Yields i u :=
      yields_of_settle (h ▸ hcloses hc hj)
    have halarmed {p : Passage} {body : EntryBody} (hc : x = .clear) (hj : entered.judgePath = p)
        (h : (s.setGate n cleared).laneCleared n p = (s.gateEntry n cleared.alarmed body).notify (.alarm n)) :
        alarmed body :=
      notified_of_settle (h ▸ hcloses hc hj) gateEntry_status
    refine ⟨hmoved hfol hf, fun hc he hcr hb => ?forward, fun hc he hcr hb => ?reverse, fun hc hnf hnr => ?absent⟩
    case forward =>
      have hj : entered.judgePath = .forward := judgePath_forward he hcr hb
      refine ⟨fun hg => ?_, fun hg => ?_, fun hg => ?_, fun hg => ?_⟩
      · exact hyields hc hj ((forwardPassage_opened (g := cleared) hg).trans (by rw [onCredits_eq]; rfl))
      · exact halarmed hc hj (hg ▸ forwardPassage_alarms (g := cleared) (.inl hg))
      · exact halarmed hc hj (hg ▸ forwardPassage_alarms (g := cleared) (.inr hg))
      · exact hyields hc hj (forwardPassage_ignored hg)
    case reverse =>
      have hj : entered.judgePath = .reverse := judgePath_reverse he hcr hb
      refine ⟨fun hg => ?_, fun hg => ?_, fun hg => ?_, fun hg => ?_⟩
      · exact halarmed hc hj (hg ▸ reversePassage_alarms (g := cleared) (.inl hg))
      · exact halarmed hc hj (hg ▸ reversePassage_alarms (g := cleared) (.inr (.inl hg)))
      · exact halarmed hc hj (hg ▸ reversePassage_alarms (g := cleared) (.inr (.inr hg)))
      · exact hyields hc hj (reversePassage_ignored hg)
    case absent =>
      have hj : entered.judgePath = .absent := judgePath_absent hnf hnr
      refine ⟨fun hg => ?_, fun c rest hg hcredits => ?_⟩
      · exact hyields hc hj (noPassage_settled hg)
      · refine hyields hc hj ((noPassage_lapses (g := cleared) hg hcredits).trans ?_)
        rw [onCredits_eq]
        rfl

end Sys2Proof.Machine

/-! ### What every operation keeps: the queue, the form of memory, the bounds, the gate timers and soundness -/

namespace Sys2Proof.Machine

variable {L P : Prop}

section
variable {r s t : State}

/-- The STATUS region and the command slots are apart wherever the Status Area exists (R161, R187). -/
def State.MapApart (s : State) : Prop := (s.unit = .scanning ∨ s.unit = .ready) → s.StatusApart

/-- What every operation of the part keeps, from `s` to `t`: the queue of commands, the canonical form of memory, the bounds,
the gate timers, soundness, one request for each block, and the STATUS region apart from the command slots. An operation that
makes no choice of the arbiter keeps the loss count (`L`), and one that makes no word of the Processor Port's keeps a port whose
word waits (`P`); of a row that makes choices neither is said. -/
structure State.Keeps (s t : State) (L P : Prop := False) : Prop where
  pending : t.pending = s.pending
  form    : s.memory.wf = true → t.memory.wf = true
  bounded : s.Bounded → t.Bounded
  timed   : (∀ n, (s.gate n).Timed) → ∀ n, (t.gate n).Timed
  sound   : s.Sound → t.Sound
  apart   : s.MapApart → t.MapApart
  nodup   : s.arbiter.requests.Nodup → t.arbiter.requests.Nodup
  losses  : L → t.arbiter.losses = s.arbiter.losses
  port    : P → s.processor.taken = true → s.processor.held = none → t.processor = s.processor

theorem State.Keeps.refl (s : State) : s.Keeps s L P :=
  ⟨rfl, id, id, id, id, id, id, fun _ => rfl, fun _ _ _ => rfl⟩

theorem State.Keeps.trans (h : r.Keeps s L P) (h' : s.Keeps t L P) : r.Keeps t L P where
  pending := h'.pending.trans h.pending
  form := h'.form ∘ h.form
  bounded := h'.bounded ∘ h.bounded
  timed := h'.timed ∘ h.timed
  sound := h'.sound ∘ h.sound
  apart := h'.apart ∘ h.apart
  nodup := h'.nodup ∘ h.nodup
  losses hl := (h'.losses hl).trans (h.losses hl)
  port hp ht hh := by
    have hs := h.port hp ht hh
    exact (h'.port hp (by rw [hs]; exact ht) (by rw [hs]; exact hh)).trans hs

/-- What is kept of the loss count and of the port need not be said. -/
theorem State.Keeps.weaken (h : s.Keeps t True True) : s.Keeps t L P :=
  ⟨h.pending, h.form, h.bounded, h.timed, h.sound, h.apart, h.nodup, fun _ => h.losses trivial, fun _ => h.port trivial⟩

/-- As `State.Keeps.trans`, the last operation named first. -/
theorem State.Keeps.after (h' : s.Keeps t L P) (h : r.Keeps s L P) : r.Keeps t L P := h.trans h'

/-- Nothing that the invariants speak of differs in `t`: every other field may. -/
theorem State.Keeps.of_frame
    (h : t = { s with
      startUp := { t.startUp with unit := s.startUp.unit }
      lanes := t.lanes, screening := t.screening, banks := t.banks, fareUnit := t.fareUnit, clock := t.clock
      emergency := t.emergency, verdictCount := t.verdictCount, freeDraws := t.freeDraws
      journal := { t.journal with unrecorded := s.journal.unrecorded }
      line := { t.line with
        queue := s.line.queue, dropped := s.line.dropped, framingErrors := s.line.framingErrors }
      status := { t.status with stale := s.status.stale } }) : s.Keeps t L P := by
  rw [h]
  exact ⟨rfl, id,
    fun ⟨h1, h2, h3, h4, h5, h6, h7, h8, h9⟩ => ⟨h1, h2, h3, h4, h5, h6, h7, h8, h9⟩, id,
    fun ⟨h1, h2, h3, h4, h5, h6, h7⟩ => ⟨h1, h2, h3, h4, h5, h6, h7⟩, id, id, fun _ => rfl, fun _ _ _ => rfl⟩

/-! #### One rule for each update of State -/

theorem setLane_keeps (s : State) (n : Lane) (x : LaneContext) : s.Keeps (s.setLane n x) L P := .of_frame rfl
theorem setScreening_keeps (s : State) (x : Screening) : s.Keeps (s.setScreening x) L P := .of_frame rfl
theorem notify_keeps (s : State) (n : Notice) : s.Keeps (s.notify n) L P := .of_frame rfl

theorem setBank_keeps (s : State) (x : BankId) (y : Bank) : s.Keeps (s.setBank x y) L P := by
  cases x <;> exact .of_frame rfl

/-- A journal with its Unrecorded count within its bound (R106). -/
theorem setJournal_keeps {j : Journal} (h : s.journal.unrecorded ≤ 65535 → j.unrecorded ≤ 65535) :
    s.Keeps (s.setJournal j) L P :=
  ⟨rfl, id, fun ⟨h1, h2, h3, h4, h5, h6, h7, h8, h9⟩ => ⟨h1, h2, h3, h4, h5, h6, h h7, h8, h9⟩, id,
    fun ⟨h1, h2, h3, h4, h5, h6, h7⟩ => ⟨h1, h2, h3, h4, h5, h6, h7⟩, id, id, fun _ => rfl, fun _ _ _ => rfl⟩

/-- A line whose queue and counts stay within their bounds (R141, R150, R151). -/
theorem setLine_keeps {l : Line}
    (hq : s.line.queue.length ≤ Config.transmitQueueSize → l.queue.length ≤ Config.transmitQueueSize)
    (hd : s.line.dropped ≤ 65535 → l.dropped ≤ 65535)
    (hf : s.line.framingErrors ≤ 255 → l.framingErrors ≤ 255) : s.Keeps (s.setLine l) L P :=
  ⟨rfl, id, fun ⟨h1, h2, h3, h4, h5, h6, h7, h8, h9⟩ => ⟨h1, h2, hq h3, h4, h5, h6, h7, hd h8, hf h9⟩, id,
    fun ⟨h1, h2, h3, h4, h5, h6, h7⟩ => ⟨h1, h2, h3, h4, h5, h6, h7⟩, id, id, fun _ => rfl, fun _ _ _ => rfl⟩

/-- Memory in another canonical form (log 7). -/
theorem setMemory_keeps {m : Memory} (h : s.memory.wf = true → m.wf = true) : s.Keeps (s.setMemory m) L P :=
  ⟨rfl, h, fun ⟨h1, h2, h3, h4, h5, h6, h7, h8, h9⟩ => ⟨h1, h2, h3, h4, h5, h6, h7, h8, h9⟩, id,
    fun ⟨h1, h2, h3, h4, h5, h6, h7⟩ => ⟨h1, h2, h3, h4, h5, h6, h7⟩, id, id, fun _ => rfl, fun _ _ _ => rfl⟩

/-- Gates whose timers run where they may (R122, R130, R132). -/
theorem setGates_keeps {g : Quad Gate} (h : (∀ n, (s.gate n).Timed) → ∀ n, (g.get n).Timed) :
    s.Keeps { s with gates := g } L P :=
  ⟨rfl, id, fun ⟨h1, h2, h3, h4, h5, h6, h7, h8, h9⟩ => ⟨h1, h2, h3, h4, h5, h6, h7, h8, h9⟩, h,
    fun ⟨h1, h2, h3, h4, h5, h6, h7⟩ => ⟨h1, h2, h3, h4, h5, h6, h7⟩, id, id, fun _ => rfl, fun _ _ _ => rfl⟩

theorem setGate_keeps {n : Lane} {g : Gate} (h : (s.gate n).Timed → g.Timed) : s.Keeps (s.setGate n g) L P := by
  refine setGates_keeps fun ht m => ?_
  obtain rfl | hm := eq_or_ne m n
  · rw [Quad.get_set_self]
    exact h (ht m)
  · rw [Quad.get_set_other _ _ hm]
    exact ht m

/-- A Status Writer whose stale set is still rising (R184). -/
theorem setStatus_keeps {w : StatusWriter} (h : s.status.stale.Pairwise (· < ·) → w.stale.Pairwise (· < ·)) :
    s.Keeps (s.setStatus w) L P :=
  ⟨rfl, id, fun ⟨h1, h2, h3, h4, h5, h6, h7, h8, h9⟩ => ⟨h1, h2, h3, h4, h5, h6, h7, h8, h9⟩, id,
    fun ⟨h1, h2, h3, h4, h5, h6, h7⟩ => ⟨h1, h2, h3, h4, h5, h h6, h7⟩, id, id, fun _ => rfl, fun _ _ _ => rfl⟩

/-- Requests at the arbiter that are still one for each block, and a loss count within its bound (R166). -/
theorem setArbiter_keeps {x : Arbiter} (hl : s.arbiter.losses ≤ 4 → x.losses ≤ 4)
    (h : s.arbiter.requests.Nodup → x.requests.Nodup) (hsame : L → x.losses = s.arbiter.losses) :
    s.Keeps { s with arbiter := x } L P :=
  ⟨rfl, id, fun ⟨h1, h2, h3, h4, h5, h6, h7, h8, h9⟩ => ⟨h1, h2, h3, h4, h5, hl h6, h7, h8, h9⟩, id,
    fun ⟨h1, h2, h3, h4, h5, h6, h7⟩ => ⟨h1, h2, h3, h4, h5, h6, h h7⟩, id, h, hsame, fun _ _ _ => rfl⟩

/-- A command slot that is still sound: free it has nothing to make, and behind a result word it has no reads (R176, R178). -/
structure CommandSlot.Sound (x : CommandSlot) : Prop where
  free   : x.busy = false → x.reading = none ∧ x.result = none
  result : x.result ≠ none → x.reading = none

theorem State.Sound.slot (h : s.Sound) (k : SlotId) : (s.slot k).Sound := ⟨h.slots k, h.results k⟩

theorem setSlot_keeps {k : SlotId} {x : CommandSlot} (h : (s.slot k).Sound → x.Sound) : s.Keeps (s.setSlot k x) L P := by
  have hslot (hs : s.Sound) (j : SlotId) : ((s.setSlot k x).slot j).Sound := by
    obtain rfl | hj := eq_or_ne j k
    · rw [State.slot_setSlot_self]
      exact h (hs.slot j)
    · rw [State.slot_setSlot_other _ _ hj]
      exact hs.slot j
  exact ⟨rfl, id, fun ⟨h1, h2, h3, h4, h5, h6, h7, h8, h9⟩ => ⟨h1, h2, h3, h4, h5, h6, h7, h8, h9⟩, id,
    fun hs => ⟨hs.processor, hs.held, hs.reader, fun j => (hslot hs j).free, fun j => (hslot hs j).result, hs.stale,
      hs.requests⟩, id, id, fun _ => rfl, fun _ _ _ => rfl⟩

/-- The Processor Port is sound: without a word none waits or is held, and a word that waits is not held (R159, R176). -/
structure ProcessorPort.Sound (p : ProcessorPort) : Prop where
  empty : p.words = [] → p.taken = false ∧ p.held = none
  held  : p.taken = true → p.held = none

theorem setProcessor_keeps {p : ProcessorPort} (h : s.processor.Sound → p.Sound) : s.Keeps { s with processor := p } L :=
  ⟨rfl, id, fun ⟨h1, h2, h3, h4, h5, h6, h7, h8, h9⟩ => ⟨h1, h2, h3, h4, h5, h6, h7, h8, h9⟩, id,
    fun ⟨h1, h2, h3, h4, h5, h6, h7⟩ => ⟨(h ⟨h1, h2⟩).empty, (h ⟨h1, h2⟩).held, h3, h4, h5, h6, h7⟩, id, id, fun _ => rfl, nofun⟩

/-- The Reader Port without a word has none waiting at the arbiter (R160). -/
theorem setReader_keeps {p : ReaderPort}
    (h : (s.reader.words = [] → s.reader.taken = false) → p.words = [] → p.taken = false) :
    s.Keeps { s with reader := p } L P :=
  ⟨rfl, id, fun ⟨h1, h2, h3, h4, h5, h6, h7, h8, h9⟩ => ⟨h1, h2, h3, h4, h5, h6, h7, h8, h9⟩, id,
    fun ⟨h1, h2, h3, h4, h5, h6, h7⟩ => ⟨h1, h2, h h3, h4, h5, h6, h7⟩, id, id, fun _ => rfl, fun _ _ _ => rfl⟩

theorem setBudget_keeps {b : Nat} (h : s.budget ≤ 255 → b ≤ 255) : s.Keeps { s with budget := b } L P :=
  ⟨rfl, id, fun ⟨h1, h2, h3, h4, h5, h6, h7, h8, h9⟩ => ⟨h1, h2, h3, h h4, h5, h6, h7, h8, h9⟩, id,
    fun ⟨h1, h2, h3, h4, h5, h6, h7⟩ => ⟨h1, h2, h3, h4, h5, h6, h7⟩, id, id, fun _ => rfl, fun _ _ _ => rfl⟩

theorem setFaultRecord_keeps {f : FaultRecord} (h : s.faultRecord.further ≤ 255 → f.further ≤ 255) :
    s.Keeps { s with faultRecord := f } L P :=
  ⟨rfl, id, fun ⟨h1, h2, h3, h4, h5, h6, h7, h8, h9⟩ => ⟨h1, h2, h3, h4, h h5, h6, h7, h8, h9⟩, id,
    fun ⟨h1, h2, h3, h4, h5, h6, h7⟩ => ⟨h1, h2, h3, h4, h5, h6, h7⟩, id, id, fun _ => rfl, fun _ _ _ => rfl⟩

theorem setDenyList_keeps {l : List DenyEntry}
    (h : s.denyList.length ≤ Config.denyListSize → l.length ≤ Config.denyListSize) : s.Keeps { s with denyList := l } L P :=
  ⟨rfl, id, fun ⟨h1, h2, h3, h4, h5, h6, h7, h8, h9⟩ => ⟨h h1, h2, h3, h4, h5, h6, h7, h8, h9⟩, id,
    fun ⟨h1, h2, h3, h4, h5, h6, h7⟩ => ⟨h1, h2, h3, h4, h5, h6, h7⟩, id, id, fun _ => rfl, fun _ _ _ => rfl⟩

theorem setSightings_keeps {l : List Sighting}
    (h : s.sightings.length ≤ Config.sightingsSize → l.length ≤ Config.sightingsSize) :
    s.Keeps { s with sightings := l } L P :=
  ⟨rfl, id, fun ⟨h1, h2, h3, h4, h5, h6, h7, h8, h9⟩ => ⟨h1, h h2, h3, h4, h5, h6, h7, h8, h9⟩, id,
    fun ⟨h1, h2, h3, h4, h5, h6, h7⟩ => ⟨h1, h2, h3, h4, h5, h6, h7⟩, id, id, fun _ => rfl, fun _ _ _ => rfl⟩

/-- A fold of operations that keep what the invariants speak of. -/
theorem foldl_keeps {α : Type} {f : State → α → State} (h : ∀ (s : State) x, s.Keeps (f s x) L P) (l : List α) (s : State) :
    s.Keeps (l.foldl f s) L P := by
  induction l generalizing s with
  | nil => exact .refl s
  | cons x rest ih => exact (h s x).trans (ih _)

end

/-! #### Shared operations -/

theorem saturate_le (m v : Nat) : saturate m v ≤ m := by
  unfold saturate; omega

theorem reportFault_keeps (s : State) (kind : PathFault) (source : FaultSource) (a : Option Nat)
    (d : Option AccessDirection) (m : Option Mode) : s.Keeps (s.reportFault kind source a d m) L P := by
  unfold State.reportFault
  split
  · exact .refl s
  · refine (setFaultRecord_keeps ?_).trans (notify_keeps _ _)
    split
    · exact id
    · exact fun _ => saturate_le _ _

theorem spendCorrection_keeps (s : State) : s.Keeps s.spendCorrection L P := by
  have hb : s.Keeps { s with budget := s.budget - 1 } L P := setBudget_keeps (Nat.sub_le_of_le_add <| Nat.le_add_right_of_le ·)
  unfold State.spendCorrection
  split
  · exact .refl s
  · dsimp only
    split
    · exact hb.trans (notify_keeps _ _)
    · exact hb

theorem scrub_keeps (s : State) (a : Nat) : s.Keeps (s.setMemory (s.memory.scrub a)) L P :=
  setMemory_keeps (Memory.wf_scrub a)

theorem writeWord_keeps (s : State) (a : Nat) (w : Word) : s.Keeps (s.writeWord a w) L P :=
  setMemory_keeps (Memory.wf_writeWord a w)

theorem readWord_keeps (s : State) (a : Nat) : s.Keeps (s.readWord a).2 L P := by
  unfold State.readWord
  split
  · exact .refl s
  · exact (scrub_keeps s a).trans (spendCorrection_keeps _)
  · exact reportFault_keeps ..

theorem portRead_keeps (s : State) (a : Nat) (x : FaultSource) (m : Option Mode) : s.Keeps (s.portRead a x m).2 L P := by
  unfold State.portRead
  split
  · exact .refl s
  · exact (scrub_keeps s a).trans (spendCorrection_keeps _)
  · exact reportFault_keeps ..

theorem portWrite_keeps (s : State) (a : Nat) (e : BitVec 4) (d : Word) (x : FaultSource) (m : Option Mode) :
    s.Keeps (s.portWrite a e d x m).2 L P := by
  unfold State.portWrite
  split
  · exact .refl s
  split
  · exact writeWord_keeps ..
  split
  · exact writeWord_keeps ..
  · exact (writeWord_keeps ..).trans (spendCorrection_keeps _)
  · exact reportFault_keeps ..

theorem standing_keeps (s : State) (a : Nat) : s.Keeps (s.standing a).2 L P := by
  unfold State.standing
  split <;> exact .of_frame rfl

theorem offer_keeps (s : State) (x : Block) : s.Keeps (s.offer x) L P := by
  unfold State.offer
  split
  · exact .refl s
  · rename_i hx
    refine setArbiter_keeps id (fun h => ?_) fun _ => rfl
    simp only [List.contains_iff_mem] at hx
    exact List.nodup_append.2 ⟨h, List.nodup_singleton x, fun a ha b hb => by
      rintro rfl
      exact hx (List.mem_singleton.1 hb ▸ ha)⟩

theorem retract_keeps (s : State) (x : Block) : s.Keeps (s.retract x) L P :=
  setArbiter_keeps id (fun h => h.erase x) fun _ => rfl

theorem makeStale_keeps (s : State) (l : List Nat) : s.Keeps (s.makeStale l) L P := by
  rw [makeStale_frame]
  exact setStatus_keeps makeStale_rising

theorem note_keeps (s t : State) : t.Keeps (s.note t) L P := by
  rw [note_frame]
  exact setStatus_keeps note_rising

theorem allBlocks_nodup : allBlocks.Nodup := by decide

theorem enrol_keeps (s : State) : s.Keeps s.enrol L P := by
  refine setArbiter_keeps id (fun h => List.nodup_append.2 ⟨h.filter _, allBlocks_nodup.filter _, fun x hx y hy => ?_⟩)
    fun _ => rfl
  rintro rfl
  have hy' := (List.mem_filter.1 hy).2
  rw [Bool.and_eq_true, Bool.not_eq_true', List.contains_eq_mem, decide_eq_false_iff_not] at hy'
  exact hy'.2 hx

theorem settle_keeps (s t : State) : t.Keeps (s.settle t) L P := (note_keeps s t).trans (enrol_keeps _)

/-! #### The Journal Writer -/

theorem passed_unrecorded {j : Journal} (q : JournalRequest) (h : j.unrecorded ≤ 65535) :
    (j.passed q).unrecorded ≤ 65535 := by
  cases q with
  | append => exact saturate_le _ _
  | reserve | giveBack | rewrite => exact h

theorem serveFrom_keeps (s : State) (l : List JournalRequest) : s.Keeps (s.serveFrom l) L P := by
  induction l generalizing s with
  | nil => exact setJournal_keeps id
  | cons q rest ih =>
    unfold State.serveFrom
    split
    · exact setJournal_keeps id
    · exact (setJournal_keeps (passed_unrecorded q)).trans (ih _)

theorem request_keeps (s : State) (q : JournalRequest) : s.Keeps (s.request q) L P := by
  unfold State.request
  split
  · exact setJournal_keeps id
  · exact serveFrom_keeps ..

theorem nextRequest_keeps (s : State) : s.Keeps s.nextRequest L P := serveFrom_keeps ..
theorem requestEntry_keeps (s : State) (d : EntryDraft) : s.Keeps (s.requestEntry d) L P := request_keeps ..

theorem giveBack_keeps (s : State) (n : Lane) : s.Keeps (s.giveBack n) L P := by
  unfold State.giveBack
  dsimp only
  split
  · exact setLane_keeps ..
  · exact (setLane_keeps ..).trans (request_keeps ..)

theorem noticeHigh_keeps (s : State) : s.Keeps s.noticeHigh L P := by
  unfold State.noticeHigh
  split
  · exact notify_keeps ..
  · exact .refl s

theorem useReserved_keeps (s : State) (n : Lane) : s.Keeps (s.useReserved n) L P :=
  (setLane_keeps ..).trans (setJournal_keeps id)

theorem countAppend_keeps (s : State) (reserved : Option Lane) : s.Keeps (s.countAppend reserved) L P := by
  have hj : s.Keeps (s.setJournal { s.journal with next := s.journal.next + 1 }) L P := setJournal_keeps id
  unfold State.countAppend
  cases reserved with
  | none => exact hj.trans (noticeHigh_keeps _)
  | some n => exact (hj.trans (useReserved_keeps _ n)).trans (noticeHigh_keeps _)

/-! #### Commands that complete, and the Status Writer -/

theorem placeDetail_keeps (s : State) (k : SlotId) (v : Word) : s.Keeps (s.placeDetail k v) L P := by
  have hk : s.Keeps (s.setSlot k { s.slot k with detailValue := v }) L P := setSlot_keeps fun h => ⟨h.free, h.result⟩
  unfold State.placeDetail
  dsimp only
  split
  · exact hk.trans (makeStale_keeps ..)
  · exact hk

theorem placeResult_keeps (s : State) (k : SlotId) (outcome : CommandOutcome) (detail : Detail) (b : Bool) :
    s.Keeps (s.placeResult k outcome detail b) L P :=
  setSlot_keeps fun _ => ⟨nofun, fun _ => rfl⟩

theorem complete_keeps (s : State) (k : SlotId) (outcome : CommandOutcome) (detail : Detail) (v : Option Word) :
    s.Keeps (s.complete k outcome detail v) L P := by
  cases v with
  | none => exact (placeResult_keeps ..).trans (offer_keeps ..)
  | some v =>
    unfold State.complete
    dsimp only
    split
    · exact ((placeDetail_keeps ..).trans (placeResult_keeps ..)).trans (offer_keeps ..)
    · exact ((placeDetail_keeps ..).trans (placeResult_keeps ..)).trans (offer_keeps ..)

theorem writeResult_keeps (s : State) (k : SlotId) : s.Keeps (s.writeResult k) L P := by
  unfold State.writeResult
  split
  · rename_i r hr
    refine (writeWord_keeps ..).trans (setSlot_keeps fun h => ⟨fun _ => ⟨h.result ?_, rfl⟩, nofun⟩)
    exact ne_of_eq_of_ne hr nofun
  · exact .refl s

theorem writeCount_keeps (s : State) : s.Keeps s.writeCount L P := by
  unfold State.writeCount
  split
  · exact .refl s
  · exact (writeWord_keeps ..).trans (setStatus_keeps id)

theorem detailWritten_keeps (s : State) (i : Nat) : s.Keeps (s.detailWritten i) L P := by
  unfold State.detailWritten
  split
  · dsimp only
    split
    · rename_i r hr
      split
      · refine .trans (setSlot_keeps fun h => ?_) (offer_keeps ..)
        have hsome : (s.slot ⟨i - 208, by omega⟩).result ≠ none := ne_of_eq_of_ne hr nofun
        exact ⟨fun hb => absurd (h.free hb).2 hsome, fun _ => h.result hsome⟩
      · exact .refl s
    · exact .refl s
  · exact .refl s

theorem writeStale_keeps {s : State} {i : Nat} {rest : List Nat} (h : s.status.stale = i :: rest) :
    s.Keeps (s.writeStale i rest) L P := by
  have ht : s.Keeps
      (((s.writeWord (s.statusAddress i) (s.mirrorWord i)).setStatus { s.status with stale := rest }).detailWritten i) L P :=
    ((writeWord_keeps ..).trans (setStatus_keeps fun hr => (h ▸ hr : (i :: rest).Pairwise (· < ·)).tail)).trans
      (detailWritten_keeps ..)
  unfold State.writeStale
  dsimp only
  split
  · exact ht.trans (setStatus_keeps id)
  · exact ht

theorem statusOperation_keeps (s : State) : s.Keeps s.statusOperation L P := by
  unfold State.statusOperation
  split
  · exact writeCount_keeps s
  · rename_i h
    exact writeStale_keeps h
  · exact .refl s

end Sys2Proof.Machine

namespace Sys2Proof.Machine

variable {L P : Prop}

/-! #### The lists (R30, R34, R150) -/

theorem joinQueue_length {q : List QueuedMessage} (m : TransmitMessage) (h : q.length ≤ Config.transmitQueueSize) :
    (joinQueue q m).1.length ≤ Config.transmitQueueSize := by
  unfold joinQueue
  split
  · simpa using ‹q.length < Config.transmitQueueSize›
  split
  · rename_i hany
    obtain ⟨a, ha, hp⟩ := List.any_eq_true.1 hany
    have hpos := List.length_pos_of_mem ha
    simp only [List.length_append, List.length_eraseP_of_mem ha hp, List.length_singleton]
    omega
  · exact h

theorem transmit_keeps (s : State) (m : TransmitMessage) : s.Keeps (s.transmit m) L P := by
  unfold State.transmit
  split
  · refine setLine_keeps (joinQueue_length m) (fun h => ?_) id
    dsimp only
    split
    · exact saturate_le _ _
    · exact h
  · exact .refl s

theorem displaceDeny_length {l : List DenyEntry} (h : 0 < l.length) : (displaceDeny l).1.length + 1 = l.length := by
  unfold displaceDeny
  split
  · rename_i e he
    rw [List.length_eraseP_of_mem (List.mem_of_find?_eq_some he) (List.find?_some he)]
    omega
  · rw [List.length_tail]
    omega

theorem addDeny_keeps (s : State) (x : Serial) (origin : Origin) (reason : DenyReason) (u : UnitId) :
    s.Keeps (s.addDeny x origin reason u).2 L P := by
  unfold State.addDeny
  split
  · exact .refl s
  · refine .trans (setDenyList_keeps fun h => ?_) ((notify_keeps ..).trans (requestEntry_keeps ..))
    rw [List.length_append, List.length_singleton]
    split
    · assumption
    · rename_i hfull
      rw [displaceDeny_length (Nat.lt_of_lt_of_le (by decide) (Nat.not_lt.1 hfull))]
      exact h

theorem addOwnDeny_keeps (s : State) (x : Serial) (reason : DenyReason) : s.Keeps (s.addOwnDeny x reason).2 L P := by
  have hadd := addDeny_keeps (L := L) (P := P) s x .own reason 0
  unfold State.addOwnDeny
  split
  · rename_i t ht
    rw [ht] at hadd
    exact hadd.trans (transmit_keeps ..)
  · rename_i t ht
    rwa [ht] at hadd

theorem lookSighting_keeps (s : State) (x : Serial) (now : Option ServiceTime) : s.Keeps (s.lookSighting x now).2 L P := by
  unfold State.lookSighting
  split
  · exact .refl s
  · exact .refl s
  · split
    · exact setSightings_keeps fun h => (List.eraseP_sublist.length_le).trans h
    · exact .refl s

theorem evicted_mem {l : List Sighting} {v : Sighting} (h : evicted l = some v) : v ∈ l := by
  induction l generalizing v with
  | nil => exact nomatch h
  | cons e rest ih =>
    unfold evicted at h
    split at h
    · obtain rfl := Option.some.inj h
      exact List.mem_cons_self
    · rename_i f hf
      split at h
      · obtain rfl := Option.some.inj h
        exact List.mem_cons_of_mem _ (ih hf)
      · obtain rfl := Option.some.inj h
        exact List.mem_cons_self

theorem setSightingIn_length {l : List Sighting} (e : Sighting) (h : l.length ≤ Config.sightingsSize) :
    (setSightingIn l e).length ≤ Config.sightingsSize := by
  unfold setSightingIn
  split
  · simpa using h
  split
  · simpa using ‹l.length < Config.sightingsSize›
  split
  · rename_i v hv
    have hmem := evicted_mem hv
    have hpos := List.length_pos_of_mem hmem
    rw [List.length_append, List.length_eraseP_of_mem hmem (by simp), List.length_singleton]
    omega
  · show 1 ≤ 512
    decide

theorem setSighting_keeps (s : State) (x : Serial) (c : Nat) (b : Word) (u : UnitId) (o : Origin) :
    s.Keeps (s.setSighting x c b u o) L P := by
  unfold State.setSighting
  split
  · exact .refl s
  · exact setSightings_keeps (setSightingIn_length _)

/-! #### The banks (03) -/

theorem takePin_keeps (s : State) (n : Lane) : s.Keeps (s.takePin n) L P := by
  unfold State.takePin
  split
  · exact setLane_keeps ..
  · exact (setBank_keeps ..).trans (setLane_keeps ..)

theorem releasePin_keeps (s : State) (n : Lane) : s.Keeps (s.releasePin n) L P := by
  unfold State.releasePin
  split
  · exact .refl s
  · exact (setBank_keeps ..).trans (setLane_keeps ..)

theorem recordBank_keeps (s : State) (x : BankId) : s.Keeps (s.recordBank x) L P :=
  (request_keeps ..).after (setJournal_keeps id)

theorem markRun_keeps (s : State) (x : BankId) : s.Keeps (s.markRun x) L P := by
  unfold State.markRun
  split
  · split
    · exact setScreening_keeps ..
    · exact .refl s
  · exact .refl s

/-- Bank Control may hold anything: no invariant speaks of it. -/
theorem setBanks_keeps (s : State) (c : BankControl) : s.Keeps { s with banks := c } L P := .of_frame rfl

theorem fallBack_keeps (s : State) (x : BankId) : s.Keeps (s.fallBack x) L P := by
  unfold State.fallBack
  dsimp only
  split
  · exact (((setBank_keeps s ..).trans (setBanks_keeps ..)).trans (recordBank_keeps ..)).trans (requestEntry_keeps ..)
  · exact requestEntry_keeps ..

theorem damageBank_keeps (s : State) (x : BankId) : s.Keeps (s.damageBank x) L P := by
  have ht : s.Keeps (((s.setBank x { s.bank x with state := some .damaged }).notify .bank).markRun x) L P :=
    ((setBank_keeps ..).trans (notify_keeps ..)).trans (markRun_keeps ..)
  unfold State.damageBank
  dsimp only
  split
  · exact ht.trans (fallBack_keeps ..)
  · exact ht

theorem settleBank_keeps (s : State) (x : BankId) (y : BankState) (v : Option Word) : s.Keeps (s.settleBank x y v) L P :=
  setBank_keeps ..

theorem retireActive_keeps (s : State) : s.Keeps s.retireActive L P := by
  unfold State.retireActive
  split
  · exact setBank_keeps ..
  · exact .refl s

theorem switchTo_keeps (s : State) (x : BankId) (k : SlotId) (v : Option Word) : s.Keeps (s.switchTo x k v) L P := by
  unfold State.switchTo
  exact (complete_keeps ..).after <| (notify_keeps ..).after <| (requestEntry_keeps ..).after <|
    (recordBank_keeps ..).after <| (setBanks_keeps ..).after <| (settleBank_keeps ..).after (retireActive_keeps s)

theorem failValidation_keeps (s : State) (x : BankId) (k : SlotId) (v : Option Word) (f : BankFailure) :
    s.Keeps (s.failValidation x k v f) L P := by
  have hu := (setBanks_keeps (L := L) (P := P) s { s.banks with validation := none, got := [] }).trans (settleBank_keeps _ x .staging v)
  unfold State.failValidation
  dsimp only
  split
  · exact (hu.trans (damageBank_keeps ..)).trans (complete_keeps ..)
  · exact hu.trans (complete_keeps ..)

theorem endValidation_keeps (s : State) (x : BankId) (k : SlotId) (v : Validation) : s.Keeps (s.endValidation x k v) L P := by
  unfold State.endValidation
  split
  · exact switchTo_keeps ..
  · exact failValidation_keeps ..

theorem selectBank_keeps (s : State) (x : BankId) (v : Validation) : s.Keeps (s.selectBank x v).2 L P := by
  unfold State.selectBank
  split
  · exact settleBank_keeps ..
  · exact (settleBank_keeps ..).trans (notify_keeps ..)
  · exact settleBank_keeps ..

theorem examineBank_keeps (s : State) (x : BankId) (w : Option Word) : s.Keeps (s.examineBank x w) L P := by
  unfold State.examineBank
  split
  · split
    · exact (setBank_keeps ..).trans (notify_keeps ..)
    · exact settleBank_keeps ..
  · exact .refl s

theorem dueFallback_keeps (s : State) (x : BankId) (new : Option (BankId × Word)) : s.Keeps (s.dueFallback x new) L P :=
  (setBanks_keeps ..).trans (notify_keeps ..)

theorem recordSelected_keeps (s : State) (r : Option UnitRecord) (x : BankId) : s.Keeps (s.recordSelected r x) L P := by
  unfold State.recordSelected
  split
  · exact setJournal_keeps id
  · split
    · exact .refl s
    · exact recordBank_keeps ..

theorem selectNamed_keeps (s : State) (r : UnitRecord) (x : BankId) (f : Selection) : s.Keeps (s.selectNamed r x f) L P := by
  have h := selectBank_keeps (L := L) (P := P) s x f.first
  unfold State.selectNamed
  split
  · rename_i t heq
    rw [heq] at h
    dsimp only
    split
    · exact h.trans (recordSelected_keeps ..)
    · exact (h.trans (recordSelected_keeps ..)).trans (notify_keeps ..)
  · rename_i t w heq _
    rw [heq] at h
    have hw := selectBank_keeps (L := L) (P := P) t x.other w
    split
    · rename_i u hu
      rw [hu] at hw
      exact (((h.trans hw).trans (setBanks_keeps ..)).trans (recordSelected_keeps ..)).trans (dueFallback_keeps ..)
    · rename_i u hu
      rw [hu] at hw
      exact (h.trans hw).trans (dueFallback_keeps ..)
  · rename_i t heq _
    rwa [heq] at h

theorem selectUnnamed_keeps (s : State) (f : Selection) : s.Keeps (s.selectUnnamed f) L P := by
  have h := selectBank_keeps (L := L) (P := P) s .a f.first
  unfold State.selectUnnamed
  split
  · rename_i t heq
    rw [heq] at h
    exact h.trans (recordSelected_keeps ..)
  · rename_i t w heq _
    rw [heq] at h
    have hw := selectBank_keeps (L := L) (P := P) t .b w
    split
    · rename_i u hu
      rw [hu] at hw
      exact (h.trans hw).trans (recordSelected_keeps ..)
    · rename_i u hu
      rw [hu] at hw
      exact h.trans hw
  · rename_i t heq _
    rwa [heq] at h

theorem leaveUnvalidated_keeps (s : State) (x : BankId) : s.Keeps (s.leaveUnvalidated x) L P := by
  unfold State.leaveUnvalidated
  split
  · exact setBank_keeps ..
  · exact .refl s

theorem takeRecord_keeps (s : State) (r : Option UnitRecord) : s.Keeps (s.takeRecord r) L P := by
  unfold State.takeRecord
  split
  · exact .refl s
  · exact setJournal_keeps id

/-- The header of a bank is examined where it was read (R54, step 5). -/
def State.examineRead (s : State) (x : BankId) : Option (Option Word) → State
  | some h => s.examineBank x h
  | none => s

theorem examineRead_keeps (s : State) (x : BankId) (h : Option (Option Word)) : s.Keeps (s.examineRead x h) L P := by
  cases h with
  | none => exact .refl s
  | some h => exact examineBank_keeps ..

/-- What the Start-up Controller notes of its works, the unit state apart, is free (R189). -/
theorem selectionDone_keeps (s : State) :
    s.Keeps { s with startUp := { s.startUp with selectionDone := true, got := [] } } L P := .of_frame rfl

theorem endSelection_keeps (s : State) (f : Selection) : s.Keeps (s.endSelection f) L P := by
  have hu : s.Keeps
      (match f.record.bind (fun r => r.bank.map (fun x => (r, x))) with
       | some (r, x) => (s.takeRecord f.record).selectNamed r x f
       | none => (s.takeRecord f.record).selectUnnamed f) L P := by
    split
    · exact (takeRecord_keeps ..).trans (selectNamed_keeps ..)
    · exact (takeRecord_keeps ..).trans (selectUnnamed_keeps ..)
  exact ((((hu.trans (leaveUnvalidated_keeps _ .a)).trans (leaveUnvalidated_keeps _ .b)).trans
    (examineRead_keeps _ .a f.headerA)).trans (examineRead_keeps _ .b f.headerB)).trans (selectionDone_keeps _)

theorem bankWritten_keeps (s : State) (x : BankId) : s.Keeps (s.bankWritten x) L P := by
  unfold State.bankWritten
  split
  · exact setBank_keeps ..
  · exact setBank_keeps ..
  · exact .refl s

/-! #### The gates (07) -/

theorem onCredits_timed (g : Gate) : g.onCredits.Timed := by
  unfold Gate.onCredits
  cases g.credits with
  | nil => exact ⟨nofun, nofun, nofun⟩
  | cons => exact ⟨fun _ => rfl, nofun, nofun⟩

theorem untimed_timed (g : Gate) (x : GateState) : (g.untimed x).Timed := ⟨nofun, nofun, nofun⟩

theorem joinCredit_timed {g : Gate} (x : Credit) (h : g.Timed) : (g.joinCredit x).Timed := by
  unfold Gate.joinCredit
  dsimp only
  split
  · rename_i hg
    refine ⟨fun _ => rfl, fun hp => ?_, fun ha => ?_⟩
    · exact absurd (h.pending hp).1 (by simp [hg])
    · exact absurd (h.hold ha) (by simp [hg])
  all_goals exact ⟨h.head, h.pending, h.hold⟩

theorem lapse_keeps (s : State) (n : Lane) : s.Keeps (s.lapse n) L P := by
  unfold State.lapse
  split
  · exact .refl s
  · exact (requestEntry_keeps ..).after (setGate_keeps fun _ => onCredits_timed _)

theorem alarm_keeps (s : State) (n : Lane) (body : EntryBody) : s.Keeps (s.alarm n body) L P :=
  (notify_keeps ..).after <| (requestEntry_keeps ..).after <| setGate_keeps fun _ => ⟨nofun, nofun, fun _ => rfl⟩

theorem forwardPassage_keeps (s : State) (n : Lane) : s.Keeps (s.forwardPassage n) L P := by
  unfold State.forwardPassage
  split
  · exact setGate_keeps fun _ => onCredits_timed _
  · exact alarm_keeps ..
  · exact alarm_keeps ..
  · exact .refl s
  · exact .refl s

theorem reversePassage_keeps (s : State) (n : Lane) : s.Keeps (s.reversePassage n) L P := by
  unfold State.reversePassage
  dsimp only
  split
  · exact alarm_keeps ..
  · exact alarm_keeps ..
  · exact alarm_keeps ..
  · exact .refl s
  · exact .refl s

theorem laneCleared_keeps (s : State) (n : Lane) (p : Passage) : s.Keeps (s.laneCleared n p) L P := by
  unfold State.laneCleared
  split
  · exact forwardPassage_keeps ..
  · exact reversePassage_keeps ..
  · split
    · exact lapse_keeps ..
    · exact .refl s

/-- A change of a gate's beams alone leaves its timers where they run. -/
theorem Gate.Timed.of_eq {g h : Gate} (hg : g.Timed) (hs : h.state = g.state) (hh : h.headTimer = g.headTimer)
    (hp : h.expiryPending = g.expiryPending) (ha : h.alarmTimer = g.alarmTimer) : h.Timed := by
  refine ⟨?_, ?_, ?_⟩
  · rw [hh, hs]; exact hg.head
  · rw [hp, hs, hh]; exact hg.pending
  · rw [ha, hs]; exact hg.hold

theorem moveBeams_timed {g : Gate} (x : BeamState) (h : g.Timed) : (g.moveBeams x).Timed := by
  by_cases hx : x = .clear
  · subst hx
    by_cases hb : g.beams = .clear
    · have hn : ¬(g.state = .alarm ∧ g.beams ≠ .clear) := by simp [hb]
      unfold Gate.moveBeams
      rw [if_neg hn]
      exact h.of_eq rfl rfl rfl rfl
    · rw [moveBeams_clear hb]
      refine ⟨h.head, h.pending, fun ha => ?_⟩
      dsimp only at ha ⊢
      split at ha
      · assumption
      · exact h.hold ha
  · by_cases hb : x = g.beams
    · subst hb
      have hn : ¬(g.state = .alarm ∧ g.beams ≠ g.beams) := by simp
      unfold Gate.moveBeams
      rw [if_neg hn]
      cases g.beams <;> exact h.of_eq rfl rfl rfl rfl
    · rw [moveBeams_blocked hx hb]
      refine ⟨h.head, h.pending, fun ha => ?_⟩
      dsimp only at ha ⊢
      split at ha
      · assumption
      · exact h.hold ha

theorem setInput_timed {g : Gate} (beam : Beam) (b : Bool) (h : g.Timed) : (g.setInput beam b).Timed := by
  cases beam <;> exact h.of_eq rfl rfl rfl rfl

theorem resetBeams_timed {g : Gate} (h : g.Timed) : g.resetBeams.Timed := h.of_eq rfl rfl rfl rfl

theorem followBeams_keeps {s : State} {n : Lane} {g : Gate} (h : (s.gate n).Timed → g.Timed) :
    s.Keeps (s.followBeams n g) L P := by
  have ht : s.Keeps (s.setGate n (g.moveBeams (beamsOf g.inputA g.inputB))) L P :=
    setGate_keeps fun hg => moveBeams_timed _ (h hg)
  unfold State.followBeams
  dsimp only
  split
  · exact ht.trans (laneCleared_keeps ..)
  · exact ht

theorem beamChange_keeps (s : State) (n : Lane) (beam : Beam) (b : Bool) : s.Keeps (s.beamChange n beam b) L P := by
  unfold State.beamChange
  dsimp only
  split
  · exact setGate_keeps fun h => resetBeams_timed (setInput_timed beam b h)
  · exact followBeams_keeps (setInput_timed beam b)
  · exact followBeams_keeps (setInput_timed beam b)
  all_goals
    split
    · exact followBeams_keeps (setInput_timed beam b)
    · exact setGate_keeps (setInput_timed beam b)

theorem headExpiry_keeps (s : State) (n : Lane) : s.Keeps (s.headExpiry n) L P := by
  unfold State.headExpiry
  dsimp only
  split
  · rename_i ht
    split
    · exact lapse_keeps ..
    · refine setGate_keeps fun h => ⟨nofun, fun _ => ⟨h.head ht, rfl⟩, fun ha => ?_⟩
      exact absurd (h.hold ha) (by simp [h.head ht])
  · exact .refl s

theorem commandClearAlarm_keeps (s : State) (k : SlotId) (r : CommandRecord) : s.Keeps (s.commandClearAlarm k r) L P := by
  unfold State.commandClearAlarm
  split
  · exact complete_keeps ..
  · split
    · exact (complete_keeps ..).after (setGate_keeps fun _ => onCredits_timed _)
    · exact complete_keeps ..

theorem commandGateFree_keeps (s : State) (k : SlotId) (r : CommandRecord) : s.Keeps (s.commandGateFree k r) L P := by
  unfold State.commandGateFree
  split
  · exact complete_keeps ..
  · split
    · exact (complete_keeps ..).after (setGate_keeps fun _ => untimed_timed ..)
    · exact (complete_keeps ..).after (setGate_keeps fun _ => untimed_timed ..)
    · exact (complete_keeps ..).after (setGate_keeps fun _ => untimed_timed ..)
    · exact complete_keeps ..
    · exact complete_keeps ..

theorem commandGateNormal_keeps (s : State) (k : SlotId) (r : CommandRecord) : s.Keeps (s.commandGateNormal k r) L P := by
  unfold State.commandGateNormal
  split
  · exact complete_keeps ..
  · split
    · exact (complete_keeps ..).after (setGate_keeps fun _ => onCredits_timed _)
    · exact complete_keeps ..

theorem commandSetDirection_keeps (s : State) (k : SlotId) (r : CommandRecord) :
    s.Keeps (s.commandSetDirection k r) L P := by
  unfold State.commandSetDirection
  split
  · exact complete_keeps ..
  · exact complete_keeps ..
  · dsimp only
    split
    · exact (complete_keeps ..).after (setGate_keeps fun h => h.of_eq rfl rfl rfl rfl)
    · exact complete_keeps ..

/-- The gates moved by one function, each where it is moved at all (R138). -/
theorem moveGates_keeps (s : State) {f : Gate → Gate} (h : ∀ g, g.Timed → (f g).Timed) : s.Keeps (s.moveGates f) L P := by
  have hm (n : Lane) (ht : (s.gate n).Timed) :
      Gate.Timed (match s.unit with
        | .scanning | .ready => if s.present n then f (s.gate n) else s.gate n
        | .inReset | .loading | .faulted => f (s.gate n)) := by
    split
    · split
      · exact h _ ht
      · exact ht
    · split
      · exact h _ ht
      · exact ht
    all_goals exact h _ ht
  refine setGates_keeps fun ht n => ?_
  match n with
  | 0 => exact hm 0 (ht 0)
  | 1 => exact hm 1 (ht 1)
  | 2 => exact hm 2 (ht 2)
  | 3 => exact hm 3 (ht 3)

theorem gatesByInput_keeps (s : State) : s.Keeps s.gatesByInput L P := moveGates_keeps s fun _ _ => untimed_timed ..

theorem emergencyStart_keeps (s : State) : s.Keeps s.emergencyStart L P := (requestEntry_keeps ..).trans (notify_keeps ..)
theorem emergencyEnd_keeps (s : State) : s.Keeps s.emergencyEnd L P := (requestEntry_keeps ..).trans (notify_keeps ..)

theorem emergencyInput_keeps (s : State) (b : Bool) : s.Keeps (s.emergencyInput b) L P := by
  have ht : s.Keeps { s with emergency := b } L P := .of_frame rfl
  unfold State.emergencyInput
  split
  · exact .refl s
  · dsimp only
    split
    · exact ht
    · exact ht.trans (gatesByInput_keeps _)
    · exact ht.trans (gatesByInput_keeps _)
    · exact ht.trans (gatesByInput_keeps _)
    · split
      · exact (ht.trans (moveGates_keeps _ fun _ _ => untimed_timed ..)).trans (emergencyStart_keeps _)
      · exact (ht.trans (moveGates_keeps _ fun _ _ => onCredits_timed _)).trans (emergencyEnd_keeps _)

/-! #### The line (08) -/

theorem enterMembership_keeps (s : State) (m : Membership) : s.Keeps (s.enterMembership m) L P := by
  have ht : s.Keeps (s.setLine { s.line with membership := m }) L P := setLine_keeps id id id
  unfold State.enterMembership
  dsimp only
  split
  · exact ht
  · exact ht.trans (notify_keeps ..)

theorem setPresence_keeps (s : State) (p : Vector Presence 16) : s.Keeps (s.setPresence p) L P := by
  have ht : s.Keeps (s.setLine { s.line with presence := p }) L P := setLine_keeps id id id
  unfold State.setPresence
  dsimp only
  split
  · exact ht
  · exact ht.trans (notify_keeps ..)

theorem abandonFrame_queue (l : Line) : l.abandonFrame.queue.length = l.queue.length := List.length_map ..

theorem enterSilent_keeps (s : State) : s.Keeps s.enterSilent L P :=
  (enterMembership_keeps ..).after <| (setPresence_keeps ..).after <|
    setLine_keeps (fun h => (abandonFrame_queue s.line).trans_le h) id id

theorem enterListen_keeps (s : State) : s.Keeps s.enterListen L P :=
  (enterMembership_keeps ..).after <| setLine_keeps (fun h => (abandonFrame_queue s.line).trans_le h) id id

theorem enterResync_keeps (s : State) : s.Keeps s.enterResync L P :=
  (enterMembership_keeps ..).after <| setLine_keeps (fun h => (abandonFrame_queue s.line).trans_le h) id id

theorem listenIfEnabled_keeps (s : State) : s.Keeps s.listenIfEnabled L P := by
  unfold State.listenIfEnabled
  split
  · exact enterListen_keeps s
  · exact .refl s

theorem formFrame_queue (l : Line) (u : UnitId) : (l.formFrame u).queue.length = l.queue.length := by
  show ((l.queue.take 4).map _ ++ l.queue.drop 4).length = _
  rw [List.length_append, List.length_map, ← List.length_append, List.take_append_drop]

theorem ownSlot_keeps (s : State) : s.Keeps s.ownSlot L P := by
  unfold State.ownSlot
  dsimp only
  split
  · exact setLine_keeps (fun h => ((formFrame_queue ..).trans (abandonFrame_queue _)).trans_le h) id id
  · exact setLine_keeps (fun h => (abandonFrame_queue s.line).trans_le h) id id
  all_goals exact .refl s

theorem advanceSlot_keeps (s : State) : s.Keeps s.advanceSlot L P := by
  unfold State.advanceSlot
  split
  · exact (setPresence_keeps ..).after (setLine_keeps id id id)
  · exact setLine_keeps id id id

theorem joinIfDue_keeps (s : State) : s.Keeps s.joinIfDue L P := by
  unfold State.joinIfDue
  split
  · exact (enterMembership_keeps ..).after (setLine_keeps id id id)
  · exact .refl s

theorem slotBoundary_keeps (s : State) : s.Keeps s.slotBoundary L P := by
  have ht : s.Keeps s.advanceSlot.joinIfDue L P := (advanceSlot_keeps s).trans (joinIfDue_keeps _)
  unfold State.slotBoundary
  dsimp only
  split
  · split
    · exact ht.trans (ownSlot_keeps _)
    · exact ht
  · exact .refl s

theorem frameComplete_keeps (s : State) : s.Keeps s.frameComplete L P := by
  unfold State.frameComplete
  split
  · exact .refl s
  · exact (setPresence_keeps ..).after (setLine_keeps (fun h => (List.length_filter_le ..).trans h) id id)

theorem collide_keeps (s : State) : s.Keeps s.collide L P := by
  unfold State.collide
  split
  · exact .refl s
  · split
    · exact enterResync_keeps s
    · exact .refl s

theorem judgeFrame_keeps (s : State) (u : UnitId) (f : ReceivedFrame) : s.Keeps (s.judgeFrame u f) L P := by
  unfold State.judgeFrame
  split
  · exact setLine_keeps id id id
  split
  · exact enterResync_keeps s
  · exact setLine_keeps id id id

theorem takeFrame_keeps (s : State) (u : UnitId) (f : ReceivedFrame) : s.Keeps (s.takeFrame u f) L P := by
  have ht (l : List (UnitId × ReceivedMessage)) : s.Keeps
      ((s.refreshPresence f.sender f.cycle).setLine { (s.refreshPresence f.sender f.cycle).line with inbox := l }) L P :=
    (setPresence_keeps ..).trans (setLine_keeps id id id)
  unfold State.takeFrame
  dsimp only
  split
  · exact (ht _).trans (setLine_keeps id id id)
  · exact (ht _).trans (judgeFrame_keeps ..)
  · exact (ht _).trans (judgeFrame_keeps ..)
  · exact ht _
  · exact ht _

theorem frameReceived_keeps (s : State) (u : UnitId) (bytes : List Byte) : s.Keeps (s.frameReceived u bytes) L P := by
  unfold State.frameReceived
  split
  · split
    · exact setLine_keeps id id fun _ => saturate_le _ _
    · split
      · exact (enterSilent_keeps s).trans (notify_keeps ..)
      · exact takeFrame_keeps ..
  · exact .refl s

theorem silenceExpiry_keeps (s : State) : s.Keeps s.silenceExpiry L P := by
  unfold State.silenceExpiry
  split
  · exact (ownSlot_keeps _).after <| (enterMembership_keeps ..).after (setLine_keeps id id id)
  · exact .refl s

theorem popInbox_keeps (s : State) : s.Keeps s.popInbox L P := setLine_keeps id id id

theorem applySighting_keeps (s : State) (x : Serial) (c : Nat) (b : Word) (u : UnitId) :
    s.Keeps (s.applySighting x c b u) L P := by
  have h := lookSighting_keeps (L := L) (P := P) s x s.clock
  unfold State.applySighting
  split
  · exact .refl s
  split
  · rename_i t ht
    rw [ht] at h
    exact h.trans (setSighting_keeps ..)
  · rename_i e t ht
    rw [ht] at h
    split
    · exact h.trans (setSighting_keeps ..)
    split
    · exact (h.trans (requestEntry_keeps ..)).trans (addOwnDeny_keeps ..)
    · exact h

theorem applyDeny_keeps (s : State) (x : Serial) (reason : DenyReason) (u : UnitId) : s.Keeps (s.applyDeny x reason u) L P := by
  unfold State.applyDeny
  split
  · exact .refl s
  · exact addDeny_keeps ..

theorem sightingMessage_keeps (s : State) : s.Keeps s.sightingMessage L P := by
  unfold State.sightingMessage
  split
  · split
    · exact (popInbox_keeps s).trans (applySighting_keeps ..)
    · exact popInbox_keeps s
  · exact .refl s

theorem denyMessage_keeps (s : State) : s.Keeps s.denyMessage L P := by
  unfold State.denyMessage
  split
  · split
    · exact (popInbox_keeps s).trans (applyDeny_keeps ..)
    · exact popInbox_keeps s
  · exact .refl s

theorem checkMessage_keeps (s : State) : s.Keeps s.checkMessage L P := by
  unfold State.checkMessage
  split
  · dsimp only
    split
    · exact (popInbox_keeps s).trans (setLine_keeps id id id)
    · exact popInbox_keeps s
  · exact .refl s

theorem commandLineRestart_keeps (s : State) (k : SlotId) : s.Keeps (s.commandLineRestart k) L P := by
  unfold State.commandLineRestart
  exact (complete_keeps ..).after <| (listenIfEnabled_keeps _).after <|
    .after (setLine_keeps (fun _ => Nat.zero_le _) id id) (enterSilent_keeps s)

theorem commandLineCheckStart_keeps (s : State) (k : SlotId) (r : CommandRecord) :
    s.Keeps (s.commandLineCheckStart k r) L P := by
  unfold State.commandLineCheckStart
  split
  · exact complete_keeps ..
  · exact complete_keeps ..
  · split
    · exact (complete_keeps ..).after <| (enterMembership_keeps ..).after (setLine_keeps id id id)
    · exact complete_keeps ..

theorem commandLineCheckStop_keeps (s : State) (k : SlotId) : s.Keeps (s.commandLineCheckStop k) L P := by
  unfold State.commandLineCheckStop
  split
  · split
    · exact (enterListen_keeps s).trans (complete_keeps ..)
    · exact (complete_keeps ..).after <| (enterMembership_keeps ..).after (setLine_keeps id id id)
  · exact complete_keeps ..

end Sys2Proof.Machine

namespace Sys2Proof.Machine

variable {L P : Prop}

/-! #### The lanes (05) -/

theorem beginRecord_keeps (s : State) (v : VerdictRecord) (next : AfterRecord) : s.Keeps (s.beginRecord v next) L P :=
  .of_frame rfl

theorem returnToIdle_keeps (s : State) (n : Lane) : s.Keeps (s.returnToIdle n) L P :=
  (setLane_keeps ..).after <| (releasePin_keeps ..).after (giveBack_keeps s n)

theorem requestAppend_keeps (s : State) (n : Lane) (d : EntryDraft) (next : AfterAppend) :
    s.Keeps (s.requestAppend n d next) L P :=
  (request_keeps ..).after (setLane_keeps ..)

theorem withdraw_keeps (s : State) (n : Lane) (x y : TransactionKind) (k : Option SlotId) : s.Keeps (s.withdraw n x y k) L P := by
  unfold State.withdraw
  split <;> exact requestAppend_keeps ..

theorem resolveUncertain_keeps (s : State) (n : Lane) (x : TransactionKind) (next : AfterAppend) :
    s.Keeps (s.resolveUncertain n x next) L P := requestAppend_keeps ..

theorem commit_keeps (s : State) (n : Lane) (b : Bool) : s.Keeps (s.commit n b) L P := by
  have hlook := lookSighting_keeps (L := L) (P := P) s (cardSerial (s.lane n).image) s.clock
  unfold State.commit
  dsimp only
  refine (transmit_keeps ..).after ?_
  split
  · exact (addOwnDeny_keeps ..).after <| (requestAppend_keeps ..).after <| (setLane_keeps ..).after hlook
  · exact (requestAppend_keeps ..).after <| (setLane_keeps ..).after <| (setSighting_keeps ..).after hlook

theorem arrive_keeps (s : State) (n : Lane) (w : Word) : s.Keeps (s.arrive n w) L P := by
  unfold State.arrive
  dsimp only
  split
  · exact (setScreening_keeps ..).after <| (setLane_keeps ..).after (takePin_keeps ..)
  · split
    · exact setLane_keeps ..
    · exact (beginRecord_keeps ..).after (setLane_keeps ..)
  all_goals exact .refl s

theorem takeResult_keeps (s : State) (n : Lane) (w : Word) : s.Keeps (s.takeResult n w) L P := by
  unfold State.takeResult
  split
  · exact commit_keeps ..
  · exact (requestAppend_keeps ..).after (setLane_keeps ..)
  · exact setLane_keeps ..

theorem decisionExpiry_keeps (s : State) (n : Lane) : s.Keeps (s.decisionExpiry n) L P := by
  unfold State.decisionExpiry
  dsimp only
  split
  · exact withdraw_keeps ..
  · exact .refl s

theorem writeExpiry_keeps (s : State) (n : Lane) : s.Keeps (s.writeExpiry n) L P := by
  unfold State.writeExpiry
  dsimp only
  split
  · exact setLane_keeps ..
  · exact .refl s

theorem windowExpiry_keeps (s : State) (n : Lane) : s.Keeps (s.windowExpiry n) L P := by
  unfold State.windowExpiry
  dsimp only
  split
  · exact resolveUncertain_keeps ..
  · exact .refl s

theorem waitForLane_keeps (s : State) (n : Lane) (k : SlotId) : s.Keeps (s.waitForLane n k) L P := setLane_keeps ..

theorem commandProceed_keeps (s : State) (k : SlotId) (r : CommandRecord) : s.Keeps (s.commandProceed k r) L P := by
  unfold State.commandProceed
  split
  · exact complete_keeps ..
  dsimp only
  split
  · exact waitForLane_keeps ..
  split
  · exact complete_keeps ..
  · exact requestAppend_keeps ..
  · exact (complete_keeps ..).after (setLane_keeps ..)

theorem commandCancel_keeps (s : State) (k : SlotId) (r : CommandRecord) : s.Keeps (s.commandCancel k r) L P := by
  unfold State.commandCancel
  split
  · exact complete_keeps ..
  dsimp only
  split
  · exact waitForLane_keeps ..
  split
  · exact complete_keeps ..
  · exact withdraw_keeps ..

theorem commandLaneReset_keeps (s : State) (k : SlotId) (r : CommandRecord) : s.Keeps (s.commandLaneReset k r) L P := by
  unfold State.commandLaneReset
  split
  · exact complete_keeps ..
  dsimp only
  split
  · exact waitForLane_keeps ..
  split
  · exact complete_keeps ..
  · split
    · exact complete_keeps ..
    · exact setLane_keeps ..
  · exact withdraw_keeps ..
  all_goals exact resolveUncertain_keeps ..

theorem laneCommand_keeps (s : State) (k : SlotId) : s.Keeps (s.laneCommand k) L P := by
  unfold State.laneCommand
  split
  · exact .refl s
  split
  · exact commandProceed_keeps ..
  · exact commandCancel_keeps ..
  · exact commandLaneReset_keeps ..
  · exact .refl s

theorem drainLane_keeps (s : State) (n : Lane) : s.Keeps (s.drainLane n) L P :=
  (foldl_keeps laneCommand_keeps ..).after (setLane_keeps ..)

theorem afterRecord_keeps (s : State) (n : Lane) (x : AfterRecord) : s.Keeps (s.afterRecord n x) L P := by
  cases x with
  | idle => exact returnToIdle_keeps ..
  | answeredInRecovery => exact .refl s
  | decided | staysInRecovery | reissued => exact setLane_keeps ..

theorem finishRecord_keeps (s : State) (j : RecordJob) : s.Keeps (s.finishRecord j) L P :=
  (drainLane_keeps ..).after <| (afterRecord_keeps ..).after <| (notify_keeps ..).after <| (setLane_keeps ..).after
    (setStatus_keeps id)

theorem recordOperation_keeps (s : State) (n : Lane) : s.Keeps (s.recordOperation n) L P := by
  unfold State.recordOperation
  split
  · exact .refl s
  split
  · exact finishRecord_keeps ..
  · dsimp only
    split
    · exact (finishRecord_keeps ..).after (writeWord_keeps ..)
    · exact (writeWord_keeps ..).trans (setStatus_keeps id)

theorem compareLanding_keeps (s : State) (n : Lane) (img : Image) : s.Keeps (s.compareLanding n img) L P := by
  unfold State.compareLanding
  dsimp only
  split
  · exact (commit_keeps ..).after (setLane_keeps ..)
  split
  · split
    · exact (beginRecord_keeps ..).after (setLane_keeps ..)
    · exact (requestAppend_keeps ..).after (setLane_keeps ..)
  split
  · exact resolveUncertain_keeps ..
  · exact beginRecord_keeps ..

theorem endComparison_keeps (s : State) (n : Lane) (img : Option Image) : s.Keeps (s.endComparison n img) L P := by
  unfold State.endComparison
  dsimp only
  split
  · exact (drainLane_keeps ..).after <| (compareLanding_keeps ..).after (setLane_keeps ..)
  · exact (beginRecord_keeps ..).after (setLane_keeps ..)

/-! #### The run (02) -/

theorem changeRun_keeps (s : State) (f : Run → Run) : s.Keeps (s.changeRun f) L P := setScreening_keeps ..
theorem advanceRun_keeps (s : State) (x : RunStage) : s.Keeps (s.advanceRun x) L P := setScreening_keeps ..
theorem decideRun_keeps (s : State) (d : Decision) : s.Keeps (s.decideRun d) L P := setScreening_keeps ..

theorem discardRun_keeps (s : State) (n : Lane) : s.Keeps (s.discardRun n) L P := by
  unfold State.discardRun
  dsimp only
  split
  · exact (complete_keeps ..).after (returnToIdle_keeps ..)
  · exact returnToIdle_keeps ..

theorem startRun_keeps (s : State) : s.Keeps s.startRun L P := by
  unfold State.startRun
  split
  · dsimp only
    split
    · exact (discardRun_keeps ..).after (setScreening_keeps ..)
    · exact (setScreening_keeps ..).after (setScreening_keeps ..)
  · exact .refl s

theorem unitConditions_keeps (s : State) (n : Lane) : s.Keeps (s.unitConditions n) L P := by
  unfold State.unitConditions
  split
  · exact decideRun_keeps ..
  · dsimp only
    split
    · exact (decideRun_keeps ..).after (changeRun_keeps ..)
    · exact (request_keeps ..).after <| (advanceRun_keeps ..).after (changeRun_keeps ..)

theorem endFirstCheck_keeps (s : State) (n : Lane) (x : Except Decision Image) : s.Keeps (s.endFirstCheck n x) L P := by
  unfold State.endFirstCheck
  split
  · exact (decideRun_keeps ..).after (setLane_keeps ..)
  · exact (unitConditions_keeps ..).after (setLane_keeps ..)

theorem reserve_keeps (s : State) (n : Lane) : s.Keeps (s.reserve n) L P := by
  unfold State.reserve
  split
  · exact (advanceRun_keeps ..).after <| (setLane_keeps s n _).trans (setJournal_keeps id)
  · exact (decideRun_keeps ..).after (notify_keeps ..)

theorem stopRun_keeps (s : State) (x : BankId) : s.Keeps (s.stopRun x) L P := (decideRun_keeps ..).after (damageBank_keeps ..)

theorem endFormat_keeps (s : State) (x : BankId) (f : Option (Option Decision)) : s.Keeps (s.endFormat x f) L P := by
  unfold State.endFormat
  split
  · exact stopRun_keeps ..
  · exact decideRun_keeps ..
  · exact advanceRun_keeps ..

theorem endDeny_keeps (s : State) (x : BankId) (y : Serial) (f : CentralFind) : s.Keeps (s.endDeny x y f) L P := by
  unfold State.endDeny
  split
  · exact decideRun_keeps ..
  · exact stopRun_keeps ..
  · split
    · exact decideRun_keeps ..
    · exact advanceRun_keeps ..

theorem sightingsCheck_keeps (s : State) (img : Image) (now : ServiceTime) : s.Keeps (s.sightingsCheck img now) L P := by
  have h := lookSighting_keeps (L := L) (P := P) s (cardSerial img) (some now)
  unfold State.sightingsCheck
  dsimp only
  split
  · exact (decideRun_keeps ..).after <| (addOwnDeny_keeps ..).after h
  · exact (advanceRun_keeps ..).after h

theorem takeFare_keeps (s : State) (img : Image) (f : FareResult) : s.Keeps (s.takeFare img f) L P := by
  unfold State.takeFare
  split
  · exact changeRun_keeps ..
  · exact (decideRun_keeps ..).after (changeRun_keeps ..)

theorem endFare_keeps (s : State) (x : BankId) (img : Image) (f : Option (Except Decision FareResult)) :
    s.Keeps (s.endFare x img f) L P := by
  unfold State.endFare
  split
  · exact stopRun_keeps ..
  · exact decideRun_keeps ..
  · exact takeFare_keeps ..

theorem finishImage_keeps (s : State) (n : Lane) (img : Image) : s.Keeps (s.finishImage n img) L P :=
  (decideRun_keeps ..).after (setLane_keeps ..)

theorem composerOperation_keeps (s : State) : s.Keeps s.composerOperation L P := by
  unfold State.composerOperation
  split
  · exact .refl s
  split
  · exact finishImage_keeps ..
  · dsimp only
    split
    · exact (finishImage_keeps ..).after (writeWord_keeps ..)
    · exact (changeRun_keeps ..).after (writeWord_keeps ..)

theorem handRefusal_keeps (s : State) (r : Run) (b : Bool) : s.Keeps (s.handRefusal r b) L P := by
  unfold State.handRefusal
  exact (setScreening_keeps ..).after <| (beginRecord_keeps ..).after (giveBack_keeps ..)

theorem handAccept_keeps (s : State) (r : Run) : s.Keeps (s.handAccept r) L P := by
  unfold State.handAccept
  exact (setScreening_keeps ..).after <| (beginRecord_keeps ..).after (setLane_keeps ..)

theorem journalRefusal_keeps (s : State) (r : Run) : s.Keeps (s.journalRefusal r) L P := by
  unfold State.journalRefusal
  exact (request_keeps ..).after (changeRun_keeps ..)

theorem handOver_keeps (s : State) (r : Run) : s.Keeps (s.handOver r) L P := by
  unfold State.handOver
  split
  · exact (discardRun_keeps ..).after (setScreening_keeps ..)
  split
  · exact handAccept_keeps ..
  split
  · exact journalRefusal_keeps ..
  · exact handRefusal_keeps ..

/-! #### Appends and rewrites (06) -/

theorem completeIf_keeps (s : State) (k : Option SlotId) : s.Keeps (s.completeIf k) L P := by
  unfold State.completeIf
  split
  · exact complete_keeps ..
  · exact .refl s

theorem rescreen_keeps (s : State) (n : Lane) : s.Keeps (s.rescreen n) L P :=
  (setScreening_keeps ..).after <| (setLane_keeps ..).after <| (takePin_keeps ..).after <| (releasePin_keeps ..).after
    (giveBack_keeps s n)

theorem afterAppend_keeps (s : State) (seq : Nat) (x : AfterAppend) : s.Keeps (s.afterAppend seq x) L P := by
  unfold State.afterAppend
  split
  · exact .refl s
  · exact (complete_keeps ..).after <| (setLane_keeps ..).after <| (setLane_keeps ..).after (setLane_keeps ..)
  · exact (completeIf_keeps ..).after (returnToIdle_keeps ..)
  · split
    · exact handRefusal_keeps ..
    · exact .refl s
  · exact (setGate_keeps (joinCredit_timed _)).after (returnToIdle_keeps ..)
  · exact (rescreen_keeps ..).after (setLane_keeps ..)
  · exact (beginRecord_keeps ..).after <| (setLane_keeps ..).after (setLane_keeps ..)

theorem drainIf_keeps (s : State) (n : Option Lane) : s.Keeps (s.drainIf n) L P := by
  cases n with
  | none => exact .refl s
  | some n => exact drainLane_keeps ..

theorem finishAppend_keeps (s : State) (seq : Nat) (n : Option Lane) (x : AfterAppend) :
    s.Keeps (s.finishAppend seq n x) L P :=
  (nextRequest_keeps _).after <| (drainIf_keeps ..).after <| (afterAppend_keeps ..).after (countAppend_keeps ..)

theorem finishRewrite_keeps (s : State) (b : Bool) : s.Keeps (s.finishRewrite b) L P := by
  unfold State.finishRewrite
  split
  · exact (nextRequest_keeps _).after <| (complete_keeps ..).after (setJournal_keeps id)
  · exact nextRequest_keeps s

theorem finishJob_keeps (s : State) (j : JournalJob) : s.Keeps (s.finishJob j) L P := by
  cases j with
  | append => exact finishAppend_keeps ..
  | rewrite => exact finishRewrite_keeps ..
  | reserve => exact .refl s

theorem journalOperation_keeps (s : State) : s.Keeps s.journalOperation L P := by
  unfold State.journalOperation
  split
  · exact .refl s
  split
  · exact .refl s
  · dsimp only
    split
    · exact (finishJob_keeps ..).after (writeWord_keeps ..)
    · exact (writeWord_keeps ..).trans (setJournal_keeps id)

theorem commandJournalRelease_keeps (s : State) (k : SlotId) (r : CommandRecord) :
    s.Keeps (s.commandJournalRelease k r) L P := by
  unfold State.commandJournalRelease
  dsimp only
  split
  · exact complete_keeps ..
  split
  · exact complete_keeps ..
  split
  · exact complete_keeps ..
  · exact (request_keeps ..).after (setJournal_keeps id)

/-! #### The commands (10) -/

theorem commandBankSwitch_keeps (s : State) (k : SlotId) (r : CommandRecord) : s.Keeps (s.commandBankSwitch k r) L P := by
  unfold State.commandBankSwitch
  split
  · exact complete_keeps ..
  split
  · exact complete_keeps ..
  split
  · exact (setBanks_keeps ..).after (setBank_keeps ..)
  · exact complete_keeps ..

theorem commandDenyAdd_keeps (s : State) (k : SlotId) (r : CommandRecord) : s.Keeps (s.commandDenyAdd k r) L P := by
  have h := addOwnDeny_keeps (L := L) (P := P) s r.serial .operator
  unfold State.commandDenyAdd
  split
  · exact complete_keeps ..
  split
  · rename_i t ht
    rw [ht] at h
    exact (complete_keeps ..).after h
  · rename_i t ht
    rw [ht] at h
    exact (complete_keeps ..).after h

theorem commandDenyRemove_keeps (s : State) (k : SlotId) (r : CommandRecord) : s.Keeps (s.commandDenyRemove k r) L P := by
  unfold State.commandDenyRemove
  split
  · exact complete_keeps ..
  split
  · exact (complete_keeps ..).after <| (notify_keeps ..).after
      (setDenyList_keeps fun h => List.eraseP_sublist.length_le.trans h)
  · exact complete_keeps ..

theorem commandFaultRelease_keeps (s : State) (k : SlotId) : s.Keeps (s.commandFaultRelease k) L P := by
  unfold State.commandFaultRelease
  split
  · exact (complete_keeps ..).after (setFaultRecord_keeps fun _ => Nat.zero_le _)
  · exact complete_keeps ..

theorem commandEccBudgetReset_keeps (s : State) (k : SlotId) : s.Keeps (s.commandEccBudgetReset k) L P :=
  (complete_keeps ..).after (setBudget_keeps fun _ => Nat.le_refl _)

theorem commandAckNotices_keeps (s : State) (k : SlotId) (r : CommandRecord) : s.Keeps (s.commandAckNotices k r) L P :=
  (complete_keeps ..).after (setStatus_keeps id)

theorem commandSetTime_keeps (s : State) (k : SlotId) (r : CommandRecord) : s.Keeps (s.commandSetTime k r) L P := by
  unfold State.commandSetTime
  split
  · exact complete_keeps ..
  · exact (complete_keeps ..).after (.of_frame rfl)

theorem commandSetOverride_keeps (s : State) (k : SlotId) (r : CommandRecord) : s.Keeps (s.commandSetOverride k r) L P := by
  unfold State.commandSetOverride
  split
  · exact complete_keeps ..
  · exact (complete_keeps ..).after (.of_frame rfl)
  · split
    · exact (complete_keeps ..).after (.of_frame rfl)
    · exact complete_keeps ..

theorem advanceClock_keeps (s : State) : s.Keeps s.advanceClock L P := by
  unfold State.advanceClock
  split
  · exact .refl s
  split
  · exact .of_frame rfl
  · exact (setSightings_keeps (l := []) fun _ => Nat.zero_le _).trans (.of_frame rfl)

/-- The owner of a command keeps the invariants. -/
def Handler.Keeps (f : Handler) (L P : Prop := False) : Prop := ∀ (s : State) k r, s.Keeps (f s k r) L P

theorem handler_keeps (x : CommandCode) : x.handler.Keeps L P := by
  cases x with
  | proceed => exact commandProceed_keeps
  | cancel => exact commandCancel_keeps
  | laneReset => exact commandLaneReset_keeps
  | gateFree => exact commandGateFree_keeps
  | gateNormal => exact commandGateNormal_keeps
  | clearAlarm => exact commandClearAlarm_keeps
  | setDirection => exact commandSetDirection_keeps
  | setTime => exact commandSetTime_keeps
  | setOverride => exact commandSetOverride_keeps
  | bankSwitch => exact commandBankSwitch_keeps
  | denyAdd => exact commandDenyAdd_keeps
  | denyRemove => exact commandDenyRemove_keeps
  | journalRelease => exact commandJournalRelease_keeps
  | ackNotices => exact commandAckNotices_keeps
  | faultRelease => exact fun s k _ => commandFaultRelease_keeps s k
  | eccBudgetReset => exact fun s k _ => commandEccBudgetReset_keeps s k
  | lineRestart => exact fun s k _ => commandLineRestart_keeps s k
  | lineCheckStart => exact commandLineCheckStart_keeps
  | lineCheckStop => exact fun s k _ => commandLineCheckStop_keeps s k

theorem dispatch_keeps : Handler.Keeps State.dispatch L P := by
  intro s k r
  unfold State.dispatch
  split
  · exact complete_keeps ..
  split
  · exact complete_keeps ..
  · exact handler_keeps _ s k r

theorem ownJudge_keeps (x : CommandCode) : Handler.Keeps (ownJudge x x.handler) L P := by
  intro s k r
  unfold ownJudge
  split
  · split
    · exact complete_keeps ..
    · exact handler_keeps x s k r
  · exact dispatch_keeps s k r

theorem judgeUnknown_keeps : Handler.Keeps judgeUnknown L P := by
  intro s k r
  unfold judgeUnknown
  split
  · exact complete_keeps ..
  · exact dispatch_keeps s k r

theorem judgeSlot_keeps {judge : Handler} (h : judge.Keeps L P) (s : State) (k : SlotId) (m : Mode) (words : Fetched) :
    s.Keeps (s.judgeSlot k m words judge) L P := by
  unfold State.judgeSlot
  split
  · exact (h ..).after (setSlot_keeps fun hk => ⟨fun hb => ⟨rfl, (hk.free hb).2⟩, fun _ => rfl⟩)
  · exact complete_keeps ..

end Sys2Proof.Machine

namespace Sys2Proof.Machine

/-! #### The Processor Port (R159) -/

section
variable {L P : Prop} {s t u : State} {w : ProcessorWord}

/-- What the word operation of a processor write may do (R175, R176): what the invariants speak of is kept up to `v`, and the
port may then hold its word for the reads of a slot. -/
def State.Holds (s t : State) : Prop :=
  ∃ v h, s.Keeps v True True ∧ v.processor = s.processor ∧ t = { v with processor := { v.processor with held := h } }

theorem State.Keeps.holds (h : s.Keeps t True True) (hp : t.processor = s.processor) : s.Holds t :=
  ⟨t, t.processor.held, h, hp, rfl⟩

theorem State.Holds.after (h : s.Keeps t True True) (hp : t.processor = s.processor) : t.Holds u → s.Holds u :=
  fun ⟨v, x, hv, hvp, hu⟩ => ⟨v, x, h.trans hv, hvp.trans hp, hu⟩

theorem complete_processor (s : State) (k : SlotId) (outcome : CommandOutcome) (detail : Detail) (v : Option Word) :
    (s.complete k outcome detail v).processor = s.processor := by
  have hv (v : Word) : (s.placeDetail k v).processor = s.processor := by
    unfold State.placeDetail
    dsimp only
    split
    · rw [makeStale_frame]; rfl
    · rfl
  cases v with
  | none =>
    exact State.offer_processor (s.placeResult k outcome detail false) _
  | some v =>
    unfold State.complete
    dsimp only
    split
    · rw [State.offer_processor]; exact hv v
    · rw [State.offer_processor]; exact hv v

/-- The port's holding and a request at the arbiter do not meet. -/
theorem offer_setProcessor (s : State) (p : ProcessorPort) (x : Block) :
    ({ s with processor := p }).offer x = { s.offer x with processor := p } := by
  unfold State.offer
  split <;> rfl

theorem takeCommand_holds {k : SlotId} (q : Nat) (m : Mode) (hb : (s.slot k).busy = false) : s.Holds (s.takeCommand k q m) := by
  have htaken : s.Keeps (s.setSlot k { s.slot k with busy := true, lastTaken := q }) True True :=
    setSlot_keeps fun h => ⟨(fun hf => nomatch hf), h.result⟩
  have hreading : s.Keeps
      (s.setSlot k { s.slot k with busy := true, lastTaken := q, reading := some ⟨m, []⟩ }) True True :=
    setSlot_keeps fun h => ⟨(fun hf => nomatch hf), fun hr => absurd (h.free hb).2 hr⟩
  unfold State.takeCommand
  dsimp only
  split
  · refine ⟨_, some k, hreading.trans (offer_keeps _ (.commandSlot k)), State.offer_processor .., ?_⟩
    rw [offer_setProcessor, State.setSlot_setSlot, State.slot_setSlot_self, State.offer_processor]
    rfl
  all_goals exact (htaken.trans (complete_keeps ..)).holds (complete_processor ..)

theorem standing_processor (s : State) (a : Nat) : (s.standing a).2.processor = s.processor := by
  unfold State.standing
  split <;> rfl

theorem standing_slots (s : State) (a : Nat) : (s.standing a).2.slots = s.slots := by
  unfold State.standing
  split <;> rfl

theorem writtenWord_keeps (s : State) (a : Nat) (e : BitVec 4) : s.Keeps (s.writtenWord a e).2 L P := by
  unfold State.writtenWord
  split
  · exact standing_keeps ..
  · exact .refl s

theorem writtenWord_processor (s : State) (a : Nat) (e : BitVec 4) : (s.writtenWord a e).2.processor = s.processor := by
  unfold State.writtenWord
  split
  · exact standing_processor ..
  · rfl

theorem goWordWritten_holds (s : State) (k : SlotId) (w : ProcessorWord) (e : BitVec 4) :
    s.Holds (s.goWordWritten k w e) := by
  have hk := writtenWord_keeps (L := True) (P := True) s w.address e
  have hp := writtenWord_processor s w.address e
  unfold State.goWordWritten
  dsimp only
  split
  · exact hk.holds hp
  · rename_i hn
    exact (takeCommand_holds _ _ (by simpa using fun h => hn (.inr (.inr h)))).after hk hp

theorem bankWritten_processor (s : State) (x : BankId) : (s.bankWritten x).processor = s.processor := by
  unfold State.bankWritten
  split
  · cases x <;> rfl
  · cases x <;> rfl
  · rfl

theorem processorWritten_holds (s : State) (area : Area) (w : ProcessorWord) (e : BitVec 4) :
    s.Holds (s.processorWritten area w e) := by
  unfold State.processorWritten
  split
  · split
    · exact goWordWritten_holds ..
    · exact (State.Keeps.refl s).holds rfl
  · exact (bankWritten_keeps ..).holds (bankWritten_processor ..)
  · exact (State.Keeps.refl s).holds rfl

theorem reportFault_processor (s : State) (kind : PathFault) (source : FaultSource) (a : Option Nat)
    (d : Option AccessDirection) (m : Option Mode) : (s.reportFault kind source a d m).processor = s.processor := by
  rw [reportFault_frame]

theorem spendCorrection_processor (s : State) : s.spendCorrection.processor = s.processor := by
  rw [spendCorrection_frame]

theorem portWrite_processor (s : State) (a : Nat) (e : BitVec 4) (d : Word) (x : FaultSource) (m : Option Mode) :
    (s.portWrite a e d x m).2.processor = s.processor := by
  unfold State.portWrite
  split
  · rfl
  split
  · rfl
  split
  · rfl
  · exact spendCorrection_processor _
  · exact reportFault_processor ..

theorem processorWrite_holds (s : State) (w : ProcessorWord) (e : BitVec 4) (d : Word) :
    s.Holds (s.processorWrite w e d).2 := by
  unfold State.processorWrite
  split
  · exact (reportFault_keeps ..).holds (reportFault_processor ..)
  · rename_i area _
    have hk := portWrite_keeps (L := True) (P := True) s w.address e d .processor (some w.mode)
    have hp := portWrite_processor s w.address e d .processor (some w.mode)
    split
    · rename_i t ht
      rw [ht] at hk hp
      exact hk.holds hp
    · rename_i t ht
      rw [ht] at hk hp
      exact (processorWritten_holds t area w e).after hk hp

theorem answer_keeps (s : State) (a : Answer) : s.Keeps (s.answer a) L :=
  setProcessor_keeps fun _ => ⟨fun _ => ⟨rfl, rfl⟩, fun _ => rfl⟩

/-- A port that has a word may answer it, or hold it for the reads of a slot once it no longer waits (R176). -/
theorem performProcessor_keeps (w : ProcessorWord) (h : s.processor.words ≠ []) : s.Keeps (s.performProcessor w) L := by
  unfold State.performProcessor
  split
  · exact (answer_keeps ..).after (portRead_keeps ..)
  · rename_i e d _
    obtain ⟨v, x, hv, hp, ht⟩ := processorWrite_holds s w e d
    dsimp only
    rw [ht]
    split
    · exact hv.weaken.trans (setProcessor_keeps fun _ => ⟨fun hw => absurd (hp ▸ hw) h, fun hf => nomatch hf⟩)
    · exact hv.weaken.trans (setProcessor_keeps fun _ => ⟨fun _ => ⟨rfl, rfl⟩, fun _ => rfl⟩)

theorem takeProcessor_keeps (w : ProcessorWord) (h : s.processor.words ≠ []) (hh : s.processor.held = none) :
    s.Keeps (s.takeProcessor w) L := by
  unfold State.takeProcessor
  split
  · exact (answer_keeps ..).after (reportFault_keeps ..)
  split
  · exact performProcessor_keeps w h
  · exact setProcessor_keeps fun _ => ⟨fun hw => absurd hw h, fun _ => hh⟩

/-- A port that has no word waiting, or holds one, is not one whose word waits. -/
theorem State.Keeps.withPort (h : s.Keeps t L) (hn : s.processor.taken = true → s.processor.held = none → False) :
    s.Keeps t L P :=
  ⟨h.pending, h.form, h.bounded, h.timed, h.sound, h.apart, h.nodup, h.losses, fun _ ht hh => (hn ht hh).elim⟩

theorem pumpProcessor_keeps (n : Nat) (s : State) : s.Keeps (s.pumpProcessor n) L P := by
  induction n generalizing s with
  | zero => exact .refl s
  | succ n ih =>
    unfold State.pumpProcessor
    split
    · exact .refl s
    · rename_i w rest hw
      split
      · exact .refl s
      · rename_i hn
        simp only [Bool.or_eq_true, not_or, Option.isSome_iff_ne_none, not_not] at hn
        obtain ⟨⟨htaken, hheld⟩, -⟩ := hn
        have htake : s.Keeps (s.takeProcessor w) L P :=
          (takeProcessor_keeps w (by simp [hw]) hheld).withPort fun ht _ => htaken ht
        exact (ih _).after <| (note_keeps ..).after htake

theorem resumeProcessor_keeps (s : State) : s.Keeps s.resumeProcessor L P := pumpProcessor_keeps ..

theorem presentWord_keeps (s : State) (w : ProcessorWord) : s.Keeps (s.presentWord w) := by
  unfold State.presentWord
  split
  · exact .refl s
  · exact setProcessor_keeps fun h => ⟨h.empty, h.held⟩
  all_goals
    refine (resumeProcessor_keeps _).after (setProcessor_keeps fun h => ⟨fun hw => absurd hw ?_, h.held⟩)
    exact List.append_ne_nil_of_right_ne_nil _ (List.cons_ne_nil _ _)

theorem finishSlotReads_keeps {judge : Handler} (h : judge.Keeps L P) (s : State) (k : SlotId) (m : Mode) (words : Fetched) :
    s.Keeps (s.finishSlotReads k m words judge) L P := by
  unfold State.finishSlotReads
  dsimp only
  refine (resumeProcessor_keeps _).after <| (note_keeps ..).after <| (judgeSlot_keeps h ..).after ?_
  split
  · rename_i hk
    exact (answer_keeps ..).withPort fun _ hh => by simp [hk] at hh
  · exact .refl s

/-! #### The Reader Port (R160) -/

theorem chooseModem_keeps (s : State) : s.Keeps s.chooseModem L P := by
  unfold State.chooseModem
  split
  · split
    · exact setReader_keeps id
    · exact .refl s
  · exact .refl s

theorem endGrant_keeps (s : State) : s.Keeps s.endGrant L P := (chooseModem_keeps _).after (setReader_keeps id)

theorem endIfDropped_keeps (s : State) : s.Keeps s.endIfDropped L P := by
  unfold State.endIfDropped
  split
  · exact endGrant_keeps s
  · exact .refl s

theorem dropRequest_keeps (s : State) (n : Lane) : s.Keeps (s.dropRequest n) L P := by
  unfold State.dropRequest
  dsimp only
  split
  · exact (endIfDropped_keeps _).after (setReader_keeps id)
  · exact setReader_keeps id

theorem signal_keeps (s : State) (x : ReaderSignal) : s.Keeps (s.signal x) L P := setReader_keeps id

theorem setBarred_keeps (s : State) (q : Quad Bool) : s.Keeps { s with reader := { s.reader with barred := q } } L P :=
  setReader_keeps id

/-- A partial landing is discarded where the landing area is open (R15). -/
theorem discardLanding_keeps (s : State) (n : Lane) :
    s.Keeps (if s.landingOpen n then s.setLane n { s.lane n with mask := 0 } else s) L P := by
  split
  · exact setLane_keeps ..
  · exact .refl s

theorem withdrawGrant_keeps (s : State) (n : Lane) : s.Keeps (s.withdrawGrant n) L P := by
  have hkept : s.Keeps { s with reader := { s.reader with
      words := if s.reader.taken then s.reader.words.take 1 else [] } } L P := by
    refine setReader_keeps fun h hw => ?_
    dsimp only at hw ⊢
    split at hw
    · rename_i ht
      exact absurd (h (by simpa using hw)) (by simp [ht])
    · simpa using ‹¬s.reader.taken = true›
  unfold State.withdrawGrant
  exact (endGrant_keeps _).after <| (setBarred_keeps ..).after <| (discardLanding_keeps ..).after <|
    (reportFault_keeps ..).after <| (signal_keeps ..).after hkept

theorem readerWritten_keeps (s : State) (area : Area) (a : Nat) (e : BitVec 4) : s.Keeps (s.readerWritten area a e) L P := by
  unfold State.readerWritten
  split
  · exact setLane_keeps ..
  · exact (arrive_keeps ..).after (writtenWord_keeps ..)
  · exact (takeResult_keeps ..).after (writtenWord_keeps ..)
  · exact .refl s

theorem readerWrite_keeps (s : State) (w : ReaderWord) (e : BitVec 4) (d : Word) : s.Keeps (s.readerWrite w e d).2 L P := by
  unfold State.readerWrite
  split
  · exact reportFault_keeps ..
  · rename_i area _
    have hk := portWrite_keeps (L := L) (P := P) s w.address e d (.reader w.lane) none
    split
    · rename_i t ht
      rwa [ht] at hk
    · rename_i t ht
      rw [ht] at hk
      exact hk.trans (readerWritten_keeps t area w.address e)

theorem answerReader_keeps (s : State) (n : Lane) (a : Answer) : s.Keeps (s.answerReader n a) L P :=
  (signal_keeps ..).after (setReader_keeps fun _ _ => rfl)

theorem performReader_keeps (s : State) (w : ReaderWord) : s.Keeps (s.performReader w) L P := by
  unfold State.performReader
  split
  · exact (answerReader_keeps ..).after (portRead_keeps ..)
  · exact (answerReader_keeps ..).after (readerWrite_keeps ..)

theorem takeReader_keeps (w : ReaderWord) (h : s.reader.words ≠ []) : s.Keeps (s.takeReader w) L P := by
  unfold State.takeReader
  split
  · exact (answerReader_keeps ..).after (reportFault_keeps ..)
  split
  · exact performReader_keeps ..
  · exact setReader_keeps fun _ hw => absurd hw h

theorem pumpReader_keeps (n : Nat) (s : State) : s.Keeps (s.pumpReader n) L P := by
  induction n generalizing s with
  | zero => exact .refl s
  | succ n ih =>
    unfold State.pumpReader
    split
    · exact .refl s
    · rename_i w rest hw
      split
      · exact .refl s
      · exact (ih _).after <| (note_keeps ..).after (takeReader_keeps w (by simp [hw]))

theorem resumeReader_keeps (s : State) : s.Keeps s.resumeReader L P := (endIfDropped_keeps _).after (pumpReader_keeps ..)

theorem presentReader_keeps (s : State) (left : Fin 4) (w : ReaderWord) : s.Keeps (s.presentReader left w) L P := by
  unfold State.presentReader
  split
  · refine (resumeReader_keeps _).after (setReader_keeps fun _ hw => absurd hw ?_)
    exact List.append_ne_nil_of_right_ne_nil _ (List.cons_ne_nil _ _)
  · exact .refl s

/-! #### The Memory Arbiter (R166, R167) -/

theorem fetched_keeps (s : State) (x : Block) (w : Option Word) : s.Keeps (s.fetched x w) L P := by
  unfold State.fetched
  split
  · exact changeRun_keeps ..
  · exact setLane_keeps ..
  · refine setSlot_keeps fun h => ⟨fun hb => ⟨?_, (h.free hb).2⟩, fun hr => ?_⟩
    · rw [(h.free hb).1]; rfl
    · rw [h.result hr]; rfl
  · split
    · exact setBanks_keeps ..
    · exact .of_frame rfl
  · exact .of_frame rfl
  · exact .of_frame rfl
  all_goals exact .refl s

theorem readOperation_keeps (s : State) (x : Block) : s.Keeps (s.readOperation x) L P := by
  unfold State.readOperation
  split
  · exact .refl s
  · exact (fetched_keeps ..).after (readWord_keeps ..)

theorem countLoss_keeps (s : State) (x : Requester) : s.Keeps (s.countLoss x) := by
  unfold State.countLoss
  refine setArbiter_keeps (fun h => ?_) id False.elim
  dsimp only
  split
  · exact Nat.zero_le _
  split
  · exact saturate_le _ _
  · exact h

theorem serveReader_keeps (s : State) : s.Keeps s.serveReader L P := by
  unfold State.serveReader
  split
  · exact .refl s
  · exact (resumeReader_keeps _).after <| (note_keeps ..).after (performReader_keeps ..)

theorem serveProcessor_keeps (s : State) : s.Keeps s.serveProcessor L := by
  unfold State.serveProcessor
  split
  · exact .refl s
  · rename_i w rest hw
    exact (resumeProcessor_keeps _).after <| (note_keeps ..).after (performProcessor_keeps w (by simp [hw]))

theorem slotOperation_keeps (s : State) (k : SlotId) : s.Keeps (s.slotOperation k) L P := by
  unfold State.slotOperation
  split
  · exact writeResult_keeps ..
  · dsimp only
    split
    · split
      · exact (finishSlotReads_keeps dispatch_keeps ..).after (readOperation_keeps ..)
      · exact readOperation_keeps ..
    · exact readOperation_keeps ..

theorem blockOperation_keeps (s : State) (x : Block) : s.Keeps (s.blockOperation x) L P := by
  unfold State.blockOperation
  split
  · split
    · exact journalOperation_keeps s
    · exact readOperation_keeps ..
  · exact composerOperation_keeps s
  · exact recordOperation_keeps ..
  · exact statusOperation_keeps s
  · exact slotOperation_keeps ..
  all_goals exact readOperation_keeps ..

theorem serveBlock_keeps (s : State) (x : Block) : s.Keeps (s.serveBlock x) L P := by
  have ht : s.Keeps (s.note ((s.retract x).blockOperation x)) L P :=
    (note_keeps ..).after <| (blockOperation_keeps ..).after (retract_keeps ..)
  unfold State.serveBlock
  dsimp only
  split
  · exact ht.trans (offer_keeps ..)
  · exact ht

theorem arbitrate_keeps (s : State) : s.Keeps s.arbitrate := by
  unfold State.arbitrate
  split
  · exact .refl s
  · exact (serveReader_keeps _).after (countLoss_keeps ..)
  · exact (serveProcessor_keeps _).after (countLoss_keeps ..)
  · split
    · exact (serveBlock_keeps ..).after (countLoss_keeps ..)
    · exact .refl s

theorem waitTurn_keeps (n : Nat) (x : Block) (s : State) : s.Keeps (State.waitTurn n x s) := by
  induction n generalizing s with
  | zero => exact .refl s
  | succ n ih =>
    unfold State.waitTurn
    split
    · exact .refl s
    · exact (ih _).after (arbitrate_keeps s)

theorem turn_keeps (s : State) (x : Block) : s.Keeps (s.turn x) :=
  (retract_keeps ..).after <| (countLoss_keeps ..).after <| (waitTurn_keeps ..).after (offer_keeps ..)

theorem perform_keeps {α : Type} (p : Reads α) (s : State) : s.Keeps (s.perform p).2 := by
  induction p generalizing s with
  | done x => exact .refl s
  | read x a next ih => exact (ih _ _).after <| (readWord_keeps ..).after (turn_keeps ..)

theorem putWords_keeps (x : Block) (l : List (Nat × Word)) (s : State) : s.Keeps (State.putWords x l s) := by
  induction l generalizing s with
  | nil => exact .refl s
  | cons c rest ih => exact (ih _).after <| (writeWord_keeps ..).after (turn_keeps ..)

theorem statusTurns_keeps (n : Nat) (s : State) : s.Keeps (State.statusTurns n s) := by
  induction n generalizing s with
  | zero => exact .refl s
  | succ n ih => exact (ih _).after <| (statusOperation_keeps _).after (turn_keeps ..)

theorem showDetail_keeps (n : Nat) (k : SlotId) (s : State) : s.Keeps (State.showDetail n k s) := by
  induction n generalizing s with
  | zero => exact .refl s
  | succ n ih =>
    unfold State.showDetail
    split
    · split
      · exact (ih _).after <| (statusOperation_keeps _).after (turn_keeps ..)
      · exact .refl s
    · exact .refl s

theorem deliver_keeps (s : State) (k : SlotId) : s.Keeps (s.deliver k) := by
  unfold State.deliver
  dsimp only
  split
  · exact (writeResult_keeps ..).after <| (turn_keeps ..).after (showDetail_keeps ..)
  · exact showDetail_keeps ..

theorem deliverAll_keeps (s t : State) : t.Keeps (s.deliverAll t) := foldl_keeps deliver_keeps ..

theorem driveProcessor_keeps (n : Nat) (s : State) : s.Keeps (State.driveProcessor n s) := by
  induction n generalizing s with
  | zero => exact .refl s
  | succ n ih =>
    unfold State.driveProcessor
    split
    · exact (ih _).after (arbitrate_keeps s)
    · exact .refl s

theorem driveReader_keeps (n : Nat) (s : State) : s.Keeps (State.driveReader n s) := by
  induction n generalizing s with
  | zero => exact .refl s
  | succ n ih =>
    unfold State.driveReader
    split
    · exact (ih _).after (arbitrate_keeps s)
    · exact .refl s

theorem makeWord_keeps (s : State) (w : ProcessorWord) : s.Keeps (s.makeWord w) := by
  unfold State.makeWord
  dsimp only
  split
  · exact (driveProcessor_keeps ..).after (presentWord_keeps ..)
  · exact presentWord_keeps ..

theorem makeReaderWord_keeps (s : State) (left : Fin 4) (w : ReaderWord) : s.Keeps (s.makeReaderWord left w) := by
  unfold State.makeReaderWord
  dsimp only
  split
  · exact (driveReader_keeps ..).after (presentReader_keeps ..)
  · exact presentReader_keeps ..

theorem goWrite_keeps {judge : Handler} (h : judge.Keeps) (s : State) (g : GoWrite) : s.Keeps (s.goWrite g judge) := by
  unfold State.goWrite
  split
  · exact .refl s
  · dsimp only
    split
    · exact (finishSlotReads_keeps h ..).after <| (perform_keeps ..).after (makeWord_keeps ..)
    · exact makeWord_keeps ..

end

end Sys2Proof.Machine

namespace Sys2Proof.Machine

/-! #### Start-up (11) -/

theorem overlaps_comm (x y : RegionEntry) : x.overlaps y = y.overlaps x := Bool.and_comm ..

theorem disjointRegions_pairwise {l : List RegionEntry} (h : disjointRegions l = true) :
    l.Pairwise fun x y => x.overlaps y = false := by
  induction l with
  | nil => exact .nil
  | cons r rest ih =>
    obtain ⟨hr, hrest⟩ := (Bool.and_eq_true ..).mp h
    exact .cons (fun y hy => by simpa using List.all_eq_true.1 hr y hy) (ih hrest)

/-- A sound map has one entry of each mandatory Kind, and the map's region of that Kind is that entry (R161). -/
theorem soundMap_region {s : State} (h : soundMap s.cfg.regions = true) {k : RegionKind}
    (hk : k ∈ [RegionKind.lane, .command, .status, .journal, .bankA, .bankB]) :
    ∃ r, s.region k = some r ∧ r ∈ s.cfg.regions.filter (fun r => r.kind != .absent) ∧ r.kind = k ∧ r.sizeSound = true := by
  simp only [soundMap, Bool.and_eq_true, List.all_eq_true] at h
  obtain ⟨⟨⟨hone, hsize⟩, -⟩, -⟩ := h
  have hcount : 0 < (s.cfg.regions.filter (fun r => r.kind != .absent)).countP (fun r => r.kind == k) := by
    rw [eq_of_beq (hone k hk)]
    exact Nat.one_pos
  obtain ⟨x, hx, hxk⟩ := List.countP_pos_iff.1 hcount
  have hmem := (List.mem_filter.1 hx).1
  obtain ⟨r, hr⟩ : ∃ r, s.region k = some r := by
    refine Option.isSome_iff_exists.1 (List.find?_isSome.2 ⟨x, hmem, hxk⟩)
  have hrk : r.kind = k := by simpa using List.find?_some (p := fun r : RegionEntry => r.kind == k) hr
  have hne : k ≠ .absent := by
    rintro rfl
    simp at hk
  have hused : r ∈ s.cfg.regions.filter (fun r => r.kind != .absent) :=
    List.mem_filter.2 ⟨List.mem_of_find?_eq_some hr, by simp [hrk, hne]⟩
  exact ⟨r, hr, hused, hrk, hsize r hused⟩

/-- In a sound map the STATUS region and the command slots share no byte (R161). -/
theorem soundMap_apart {s : State} (h : soundMap s.cfg.regions = true) : s.StatusApart := by
  obtain ⟨x, hx, hxu, hxk, hxs⟩ := soundMap_region h (k := .status) (by simp)
  obtain ⟨y, hy, hyu, hyk, hys⟩ := soundMap_region h (k := .command) (by simp)
  have hpair : x.overlaps y = false := by
    simp only [soundMap, Bool.and_eq_true] at h
    have hsymm : Std.Symm fun x y : RegionEntry => x.overlaps y = false :=
      ⟨fun a b hab => (overlaps_comm b a).trans hab⟩
    refine (disjointRegions_pairwise h.2).forall hxu hyu (fun he => ?_)
    simp [he, hyk] at hxk
  have hx1 : x.size = 1 := by simpa [RegionEntry.sizeSound, hxk] using hxs
  have hy1 : y.size = 1 := by simpa [RegionEntry.sizeSound, hyk] using hys
  simp only [RegionEntry.overlaps, hx1, hy1, Bool.and_eq_false_iff, decide_eq_false_iff_not] at hpair
  simp only [State.StatusApart, State.regionBase, hx, hy]
  omega

/-- An image that is not structurally faulty has a sound map (R187). -/
theorem loadFaultOf_sound {rom : List Byte} (h : loadFaultOf rom = none) :
    soundMap (loadImage rom).1.regions = true := by
  simp only [loadFaultOf] at h
  by_contra hn
  rw [Bool.not_eq_true] at hn
  have hn' : soundMap ((List.range 16).map (romRegion rom)) = false := hn
  rw [hn'] at h
  simp only [Bool.not_false, if_true] at h
  split at h
  · exact nomatch h
  split at h
  · exact nomatch h
  · exact nomatch h

theorem reset_bounded : State.reset.Bounded := by
  constructor <;> decide

theorem reset_sound : State.reset.Sound :=
  ⟨fun _ => ⟨rfl, rfl⟩, nofun, fun _ => rfl, by decide, by decide, .nil, .nil⟩

theorem reset_timed (n : Lane) : (State.reset.gate n).Timed := by
  rw [show State.reset.gate n = Gate.reset from Quad.get_all _ n]
  exact ⟨nofun, nofun, nofun⟩

theorem resetAssert_keeps (s : State) : s.Keeps s.resetAssert where
  pending := rfl
  form := id
  bounded _ := by
    obtain ⟨h1, h2, h3, h4, h5, h6, h7, h8, h9⟩ := reset_bounded
    exact ⟨h1, h2, h3, h4, h5, h6, h7, h8, h9⟩
  timed _ n := by
    match n with
    | 0 | 1 | 2 | 3 => exact resetBeams_timed ⟨nofun, nofun, nofun⟩
  sound _ := by
    obtain ⟨h1, h2, h3, h4, h5, h6, h7⟩ := reset_sound
    exact ⟨h1, h2, h3, h4, h5, h6, h7⟩
  apart _ := nofun
  nodup _ := .nil
  losses := False.elim
  port := False.elim

theorem resetRelease_keeps (s : State) : s.Keeps s.resetRelease := by
  have ht : s.Keeps { s with startUp := { s.startUp with unit := .loading } } :=
    { pending := rfl, form := id, timed := id
      bounded := fun ⟨h1, h2, h3, h4, h5, h6, h7, h8, h9⟩ => ⟨h1, h2, h3, h4, h5, h6, h7, h8, h9⟩
      sound := fun ⟨h1, h2, h3, h4, h5, h6, h7⟩ => ⟨h1, h2, h3, h4, h5, h6, h7⟩
      apart := fun _ => nofun, nodup := id, losses := False.elim, port := False.elim }
  unfold State.resetRelease
  split
  · exact (gatesByInput_keeps _).after ht
  · exact .refl s

theorem enterFaulted_keeps (s : State) (rom : List Byte) (cause : LoadFault) : s.Keeps (s.enterFaulted rom cause) where
  pending := rfl
  form := id
  timed := id
  bounded := fun ⟨h1, h2, h3, h4, h5, h6, h7, h8, h9⟩ => ⟨h1, h2, h3, h4, h5, h6, h7, h8, h9⟩
  sound := fun ⟨h1, h2, h3, h4, h5, h6, h7⟩ => ⟨h1, h2, h3, h4, h5, h6, h7⟩
  apart _ := nofun
  nodup := id
  losses := False.elim
  port := False.elim

/-- The configuration of a sound image is loaded as SCANNING begins (R187). -/
theorem loaded_keeps (s : State) {rom : List Byte} (h : loadFaultOf rom = none) :
    s.Keeps { s with
      cfg := (loadImage rom).1, startUp := { s.startUp with unit := .scanning, clamped := (loadImage rom).2 } } where
  pending := rfl
  form := id
  timed := id
  bounded := fun ⟨h1, h2, h3, h4, h5, h6, h7, h8, h9⟩ => ⟨h1, h2, h3, h4, h5, h6, h7, h8, h9⟩
  sound := fun ⟨h1, h2, h3, h4, h5, h6, h7⟩ => ⟨h1, h2, h3, h4, h5, h6, h7⟩
  apart _ _ := soundMap_apart (loadFaultOf_sound h)
  nodup := id
  losses := False.elim
  port := False.elim

theorem loaded_timed {g : Gate} (b : Bool) (d : Direction) (h : g.Timed) : (g.loaded b d).Timed := by
  unfold Gate.loaded
  cases b
  · exact (untimed_timed g .closed).of_eq rfl rfl rfl rfl
  · exact h.of_eq rfl rfl rfl rfl

theorem loadGates_keeps (s : State) : s.Keeps s.loadGates := by
  refine setGates_keeps fun ht n => ?_
  match n with
  | 0 => exact loaded_timed _ _ (ht 0)
  | 1 => exact loaded_timed _ _ (ht 1)
  | 2 => exact loaded_timed _ _ (ht 2)
  | 3 => exact loaded_timed _ _ (ht 3)

theorem beginStatus_keeps (s : State) : s.Keeps s.beginStatus := by
  unfold State.beginStatus
  exact (makeStale_keeps ..).after <| .after (setStatus_keeps fun _ => .nil)
    (perform_keeps (Reads.word .statusArea (s.statusAddress 0)) s)

theorem loadEnd_keeps (s : State) (rom : List Byte) : s.Keeps (s.loadEnd rom) := by
  unfold State.loadEnd
  split
  · split
    · exact enterFaulted_keeps ..
    · rename_i h
      exact (beginStatus_keeps _).after <| (setBanks_keeps ..).after <| (loadGates_keeps _).after (loaded_keeps s h)
  · exact .refl s

theorem scanAppend_keeps (s : State) (d : EntryDraft) : s.Keeps (s.scanAppend d) := by
  unfold State.scanAppend
  split
  · exact (countAppend_keeps ..).after (putWords_keeps ..)
  · exact setJournal_keeps fun _ => saturate_le _ _

theorem resolveDangling_keeps (s : State) (l : List (Vector Word 8)) : s.Keeps (s.resolveDangling l) := by
  refine foldl_keeps (fun t e => ?_) l s
  exact .after (setJournal_keeps id) (scanAppend_keeps t (restartResolution e))

theorem appendDue_keeps (s : State) : s.Keeps s.appendDue := by
  unfold State.appendDue
  split
  · exact (scanAppend_keeps ..).trans (setBanks_keeps ..)
  · exact .refl s

theorem writeRecord_keeps (s : State) : s.Keeps s.writeRecord := putWords_keeps ..

/-- The scan's mark that it has ended is no part of what the invariants speak of (R189). -/
theorem scanDone_keeps (s : State) : s.Keeps { s with startUp := { s.startUp with scanDone := true, got := [] } } :=
  .of_frame rfl

theorem endScan_keeps (s : State) (f : Scan) : s.Keeps (s.endScan f) := by
  unfold State.endScan
  refine (scanDone_keeps _).after <| (noticeHigh_keeps _).after ?_
  split
  · exact (writeRecord_keeps _).after <| (scanAppend_keeps ..).after <| (appendDue_keeps _).after <|
      (resolveDangling_keeps ..).after <| (putWords_keeps ..).after (setJournal_keeps id)
  · exact (scanAppend_keeps ..).after <| (appendDue_keeps _).after <|
      (resolveDangling_keeps ..).after <| (putWords_keeps ..).after (setJournal_keeps id)

theorem enterReady_keeps {s : State} (h : s.unit = .scanning) : s.Keeps s.enterReady := by
  have ht : s.Keeps { s with startUp := { s.startUp with unit := .ready } } :=
    { pending := rfl, form := id, timed := id
      bounded := fun ⟨h1, h2, h3, h4, h5, h6, h7, h8, h9⟩ => ⟨h1, h2, h3, h4, h5, h6, h7, h8, h9⟩
      sound := fun ⟨h1, h2, h3, h4, h5, h6, h7⟩ => ⟨h1, h2, h3, h4, h5, h6, h7⟩
      apart := fun ha _ => ha (.inl h), nodup := id, losses := False.elim, port := False.elim }
  have hu := (listenIfEnabled_keeps _).after <| (chooseModem_keeps _).after <| (makeStale_keeps _ regionCopies).after <|
    (notify_keeps _ .ready).after ht
  unfold State.enterReady
  dsimp only
  split
  · exact hu.trans (emergencyStart_keeps _)
  · exact hu

/-! #### The rows -/

/-- What a row does before the end of the row keeps the invariants, and the end of the row follows it. -/
def State.Settles (s : State) (c : Instr) : Prop := ∃ u, exec c s = .next (s.settle u) ∧ s.Keeps u

theorem settles_of {s u : State} {c : Instr} (hc : exec c s = .next (s.settle u)) (h : s.Keeps u) : s.Settles c :=
  ⟨u, hc, h⟩

theorem settles_of_close {s u : State} {c : Instr} (hc : exec c s = .next (s.close u)) (h : s.Keeps u) : s.Settles c :=
  ⟨_, hc, h.trans (deliverAll_keeps s u)⟩

/-- The row of a command is a go-write that takes it (R175). -/
theorem settles_of_go {s : State} {c : Instr} {judge : Handler} {g : GoWrite}
    (hc : exec c s = .next (s.close (s.goWrite g judge))) (h : judge.Keeps) : s.Settles c :=
  settles_of_close hc (goWrite_keeps h s g)

theorem bankSelection_settles (s : State) : s.Settles .bankSelection := by
  refine settles_of rfl ?_
  split
  · exact (endSelection_keeps ..).after (perform_keeps ..)
  · exact .refl s

theorem startUpScan_settles (s : State) : s.Settles .startUpScan := by
  refine settles_of rfl ?_
  split
  · exact (resumeProcessor_keeps _).after <| (note_keeps ..).after <| (endScan_keeps ..).after (perform_keeps ..)
  · exact .refl s

theorem enterReady_settles (s : State) : s.Settles .enterReady := by
  refine settles_of rfl ?_
  split
  · rename_i h
    exact enterReady_keeps h.1
  · exact .refl s

theorem grantHoldExpiry_settles (s : State) : s.Settles .grantHoldExpiry := by
  refine settles_of rfl ?_
  split
  · split
    · exact withdrawGrant_keeps ..
    · exact .refl s
  · exact .refl s

theorem landedImageRead_settles (s : State) : s.Settles .landedImageRead := by
  refine settles_of rfl ?_
  split
  · exact (endFirstCheck_keeps ..).after (perform_keeps ..)
  · exact .refl s

theorem journalReservation_settles (s : State) : s.Settles .journalReservation := by
  refine settles_of rfl ?_
  split
  · exact (nextRequest_keeps _).after (reserve_keeps ..)
  · exact .refl s

theorem formatCheck_settles (s : State) : s.Settles .formatCheck := by
  refine settles_of rfl ?_
  split
  · split
    · exact (endFormat_keeps ..).after (perform_keeps ..)
    · exact .refl s
  · exact .refl s

theorem denyLookup_settles (s : State) : s.Settles .denyLookup := by
  refine settles_of rfl ?_
  split
  · split
    · exact (endDeny_keeps ..).after (perform_keeps ..)
    · exact .refl s
  · exact .refl s

theorem sightingsLookup_settles (s : State) : s.Settles .sightingsLookup := by
  refine settles_of rfl ?_
  split
  · exact sightingsCheck_keeps ..
  · exact .refl s

theorem fareComputation_settles (s : State) : s.Settles .fareComputation := by
  refine settles_of rfl ?_
  split
  · split
    · exact (endFare_keeps ..).after (perform_keeps ..)
    · exact .refl s
  · exact .refl s

theorem composeWriteBack_settles (s : State) : s.Settles .composeWriteBack := by
  refine settles_of rfl ?_
  split
  · exact (finishImage_keeps ..).after (putWords_keeps ..)
  · exact .refl s

theorem verdictHandover_settles (s : State) : s.Settles .verdictHandover := by
  refine settles_of_close rfl ?_
  split
  · exact handOver_keeps ..
  · exact .refl s

theorem verdictRecordWritten_settles (s : State) (n : Lane) : s.Settles (.verdictRecordWritten n) := by
  refine settles_of_close rfl ?_
  split
  · exact (finishRecord_keeps ..).after (putWords_keeps ..)
  · exact .refl s

theorem recoveryComparison_settles (s : State) (n : Lane) : s.Settles (.recoveryComparison n) := by
  refine settles_of_close rfl ?_
  split
  · exact (endComparison_keeps ..).after (perform_keeps ..)
  · exact .refl s

theorem writeJob_keeps (s : State) (job : JournalJob) : s.Keeps (s.writeJob job) :=
  (finishJob_keeps ..).after (putWords_keeps ..)

theorem journalAppendComplete_settles (s : State) : s.Settles .journalAppendComplete := by
  refine settles_of_close rfl ?_
  split
  · exact writeJob_keeps ..
  · exact .refl s

theorem unitRecordRewriteComplete_settles (s : State) : s.Settles .unitRecordRewriteComplete := by
  refine settles_of_close rfl ?_
  split
  · exact writeJob_keeps ..
  · exact .refl s

theorem bankValidationEnd_settles (s : State) : s.Settles .bankValidationEnd := by
  refine settles_of_close rfl ?_
  split
  · exact .refl s
  · exact (endValidation_keeps ..).after (perform_keeps ..)

theorem alarmHoldExpiry_settles (s : State) (n : Lane) : s.Settles (.alarmHoldExpiry n) := by
  refine settles_of rfl ?_
  split
  · exact setGate_keeps fun _ => onCredits_timed _
  · exact .refl s

theorem resyncEnd_settles (s : State) : s.Settles .resyncEnd := by
  refine settles_of rfl ?_
  split
  · exact enterListen_keeps s
  · exact .refl s

theorem writeStatusWord_keeps (s : State) : s.Keeps s.writeStatusWord := by
  unfold State.writeStatusWord
  dsimp only
  split
  · exact statusTurns_keeps ..
  · exact (statusTurns_keeps ..).after <| (statusTurns_keeps ..).after (statusTurns_keeps ..)

/-- Every row ends as a row ends, and what it does before keeps the invariants. -/
theorem exec_settles (c : Instr) (s : State) : s.Settles c := by
  cases c with
  | resetNAssert => exact settles_of rfl (resetAssert_keeps s)
  | resetNRelease => exact settles_of rfl (resetRelease_keeps s)
  | configurationLoadEnd rom => exact settles_of rfl (loadEnd_keeps s rom)
  | faultedGoWrite g => exact settles_of_go rfl dispatch_keeps
  | bankSelection => exact bankSelection_settles s
  | startUpScan => exact startUpScan_settles s
  | enterReady => exact enterReady_settles s
  | requestRise modems => exact settles_of rfl ((chooseModem_keeps _).after (setReader_keeps id))
  | requestDrop n => exact settles_of rfl (dropRequest_keeps ..)
  | grantHoldExpiry => exact grantHoldExpiry_settles s
  | landingWordWrite n k enables data => exact settles_of rfl (makeReaderWord_keeps ..)
  | tapWordWrite n enables data => exact settles_of rfl (makeReaderWord_keeps ..)
  | screeningRunStart => exact settles_of_close rfl (startRun_keeps s)
  | landedImageRead => exact landedImageRead_settles s
  | journalReservation => exact journalReservation_settles s
  | formatCheck => exact formatCheck_settles s
  | denyLookup => exact denyLookup_settles s
  | sightingsLookup => exact sightingsLookup_settles s
  | fareComputation => exact fareComputation_settles s
  | composeWriteBack => exact composeWriteBack_settles s
  | verdictHandover => exact verdictHandover_settles s
  | verdictRecordWritten n => exact verdictRecordWritten_settles s n
  | proceed g => exact settles_of_go rfl (ownJudge_keeps .proceed)
  | cancel g => exact settles_of_go rfl (ownJudge_keeps .cancel)
  | decisionHoldExpiry n => exact settles_of rfl (decisionExpiry_keeps ..)
  | writeBackRead n k => exact settles_of rfl (presentReader_keeps ..)
  | resultWordWrite n enables data => exact settles_of rfl (makeReaderWord_keeps ..)
  | writeTimeoutExpiry n => exact settles_of rfl (writeExpiry_keeps ..)
  | recoveryComparison n => exact recoveryComparison_settles s n
  | recoveryWindowExpiry n => exact settles_of rfl (windowExpiry_keeps ..)
  | laneReset g => exact settles_of_go rfl (ownJudge_keeps .laneReset)
  | journalAppendComplete => exact journalAppendComplete_settles s
  | journalRelease g => exact settles_of_go rfl (ownJudge_keeps .journalRelease)
  | unitRecordRewriteComplete => exact unitRecordRewriteComplete_settles s
  | bankSwitch g => exact settles_of_go rfl (ownJudge_keeps .bankSwitch)
  | bankValidationEnd => exact bankValidationEnd_settles s
  | bankWrite bank offset mode enables data => exact settles_of rfl (makeWord_keeps ..)
  | setOverride g => exact settles_of_go rfl (ownJudge_keeps .setOverride)
  | setDirection g => exact settles_of_go rfl (ownJudge_keeps .setDirection)
  | beamChange n beam blocked => exact settles_of rfl (beamChange_keeps ..)
  | headTimerExpiry n => exact settles_of rfl (headExpiry_keeps ..)
  | alarmHoldExpiry n => exact alarmHoldExpiry_settles s n
  | clearAlarm g => exact settles_of_go rfl (ownJudge_keeps .clearAlarm)
  | gateFree g => exact settles_of_go rfl (ownJudge_keeps .gateFree)
  | gateNormal g => exact settles_of_go rfl (ownJudge_keeps .gateNormal)
  | emergencyAssert => exact settles_of rfl (emergencyInput_keeps ..)
  | emergencyDeassert => exact settles_of rfl (emergencyInput_keeps ..)
  | emergencyInputBeforeReady asserted => exact settles_of rfl (emergencyInput_keeps ..)
  | slotBoundary => exact settles_of rfl (slotBoundary_keeps s)
  | frameComplete => exact settles_of rfl (frameComplete_keeps s)
  | collision => exact settles_of rfl (collide_keeps s)
  | frameReceived beganIn bytes => exact settles_of rfl (frameReceived_keeps ..)
  | sightingMessage => exact settles_of rfl (sightingMessage_keeps s)
  | denyMessage => exact settles_of rfl (denyMessage_keeps s)
  | checkMessage => exact settles_of rfl (checkMessage_keeps s)
  | silenceTimerExpiry => exact settles_of rfl (silenceExpiry_keeps s)
  | resyncEnd => exact resyncEnd_settles s
  | lineRestart g => exact settles_of_go rfl (ownJudge_keeps .lineRestart)
  | lineCheckStart g => exact settles_of_go rfl (ownJudge_keeps .lineCheckStart)
  | lineCheckStop g => exact settles_of_go rfl (ownJudge_keeps .lineCheckStop)
  | processorWordRead address mode => exact settles_of rfl (presentWord_keeps ..)
  | processorWordWrite address mode enables data => exact settles_of rfl (presentWord_keeps ..)
  | readerWordAccess n address access => exact settles_of rfl (presentReader_keeps ..)
  | memoryArbiterChoice => exact settles_of rfl (arbitrate_keeps s)
  | unknownCommandCode g => exact settles_of_go rfl judgeUnknown_keeps
  | denyAdd g => exact settles_of_go rfl (ownJudge_keeps .denyAdd)
  | denyRemove g => exact settles_of_go rfl (ownJudge_keeps .denyRemove)
  | faultRelease g => exact settles_of_go rfl (ownJudge_keeps .faultRelease)
  | eccBudgetReset g => exact settles_of_go rfl (ownJudge_keeps .eccBudgetReset)
  | ackNotices g => exact settles_of_go rfl (ownJudge_keeps .ackNotices)
  | setTime g => exact settles_of_go rfl (ownJudge_keeps .setTime)
  | serviceClockAdvance => exact settles_of rfl (advanceClock_keeps s)
  | statusWordWrite => exact settles_of rfl (writeStatusWord_keeps s)

/-- What a command leaves keeps the invariants. -/
theorem exec_keeps {c : Instr} {s t : State} (h : exec c s = .next t) : s.Keeps t := by
  obtain ⟨u, hu, hk⟩ := exec_settles c s
  obtain rfl := Host.Outcome.next.inj (hu.symm.trans h)
  exact hk.trans (settle_keeps s u)

/-- What a step keeps, the queue apart: on an empty queue nothing changes, and a command is run on the queue's rest. -/
theorem step_keeps {s t : State} (h : step s = .next t) : ∃ rest, State.Keeps { s with pending := rest } t := by
  unfold step at h
  split at h
  · obtain rfl := Host.Outcome.next.inj h
    exact ⟨s.pending, .refl s⟩
  · rename_i c rest _
    exact ⟨rest, exec_keeps h⟩

/-! #### The statements -/

/-- Settles O1: the two cases of the step. -/
theorem stepRunsTheFrontCommand : Obligations.StepRunsTheFrontCommand :=
  ⟨fun c rest s h => by simp [step, h], fun s h => by simp [step, h]⟩

/-- Settles O2: every row ends in a next state, and no operation touches the queue. -/
theorem everyCommandGoesOn : Obligations.EveryCommandGoesOn := fun c s =>
  let ⟨_, hu, hk⟩ := exec_settles c s
  ⟨_, hu, (hk.trans (settle_keeps s _)).pending⟩

/-- Settles O3: every write and scrub keeps the canonical form, and nothing else touches memory. -/
theorem stepKeepsMemoryForm : Obligations.StepKeepsMemoryForm := fun _ _ hw h =>
  let ⟨_, hk⟩ := step_keeps h
  hk.form hw

/-- Settles O4: each operation keeps the bounds, the gate timers, soundness and the two regions apart. -/
theorem stepKeepsBounds : Obligations.StepKeepsBounds := by
  refine ⟨fun s t hs h => ?bounded, fun s t hs h => ?timed, fun s t hs h => ?sound, fun s t hs h => ?apart⟩
  all_goals obtain ⟨rest, hk⟩ := step_keeps h
  case bounded =>
    obtain ⟨h1, h2, h3, h4, h5, h6, h7, h8, h9⟩ := hs
    exact hk.bounded ⟨h1, h2, h3, h4, h5, h6, h7, h8, h9⟩
  case timed => exact hk.timed hs
  case sound =>
    obtain ⟨h1, h2, h3, h4, h5, h6, h7⟩ := hs
    exact hk.sound ⟨h1, h2, h3, h4, h5, h6, h7⟩
  case apart => exact hk.apart hs

/-- Settles O5: the reset values one by one. -/
theorem resetMeetsInvariants : Obligations.ResetMeetsInvariants :=
  ⟨memory_wf_reset, reset_bounded, reset_timed, reset_sound, nofun, nofun⟩

/-- Settles O6: the end of the row makes stale each word whose mirrored state has changed and which memory does not show. -/
theorem changedMirrorIsStale : Obligations.ChangedMirrorIsStale := by
  intro c s t h hm i hi hi' hne
  obtain ⟨u, hu, -⟩ := exec_settles c s
  obtain rfl := Host.Outcome.next.inj (hu.symm.trans h)
  have hmirror := settle_mirrored s u
  have hwrites := hmirror.statusWrites (n := 0)
  rw [hwrites.mirror] at hne ⊢
  rw [hwrites.address, hmirror.memory]
  by_cases hshown : u.memory.word (u.statusAddress i) = u.mirrorWord i
  · exact .inr hshown
  · refine .inl ?_
    have hmirrors : u.mirrors = true := by
      have hunit : (s.settle u).unit = u.unit := congrArg StartUp.unit hmirror.startUp
      rw [hunit] at hm
      simpa [State.mirrors] using hm
    show i ∈ (s.note u).status.stale
    unfold State.note
    rw [if_pos hmirrors]
    refine mem_makeStale (.inl (List.mem_filter.2 ⟨?_, ?_⟩))
    · exact List.mem_map.2 ⟨i - 1, List.mem_range.2 (by omega), by omega⟩
    · simp [hne, State.unshown, hshown]

end Sys2Proof.Machine

/-! ### Commands of the registers, the gates, the lists and the banks (R31 to R33, R47, R67, R121, R133 to R135, R173 to R183) -/

namespace Sys2Proof.Machine

section
variable {s u : State} {g : GoWrite} {c : CommandCode} {i : Instr} {outcome : CommandOutcome} {detail : Detail}

/-- The instruction `i` is the row of the command `c` with the go-write `g`. -/
def CommandCode.Row (c : CommandCode) (g : GoWrite) (i : Instr) : Prop :=
  ∀ s, exec i s = .next (s.close (s.goWrite g (ownJudge c c.handler)))

/-- The command `c` stands in the slot of the go-write `g`, and its authority suffices (R176, R177). -/
structure State.Asks (s : State) (g : GoWrite) (c : CommandCode) : Prop where
  ready     : s.CommandReady g
  code      : CommandCode.ofWord (s.commandRecord g.slot g.mode).code = some c
  authority : c.needsMaint = true → (s.commandRecord g.slot g.mode).authority = .maint

/-- The command in the slot, as its owner takes it (R176). -/
def State.handled (s : State) (g : GoWrite) (c : CommandCode) : State :=
  c.handler (s.taken g) g.slot (s.commandRecord g.slot g.mode)

/-- A command whose owner completes it with an outcome that carries no value is answered so (R178). -/
theorem State.Asks.answers (ha : s.Asks g c) (hi : c.Row g i) (hc : u.cfg = s.cfg) (hs : u.startUp = s.startUp)
    (hr : u.reader = s.reader) (h : s.handled g c = (u.onTaken s g).complete g.slot outcome detail) :
    s.Answers i g outcome detail none u :=
  ⟨_, hi s, completes_of ha.ready hc hs hr ((ownJudge_own ha.code ha.authority).trans h)⟩

/-- A command that its owner completes without an effect (R178). -/
theorem State.Asks.unchanged (ha : s.Asks g c) (hi : c.Row g i)
    (h : s.handled g c = (s.taken g).complete g.slot outcome detail) : s.Answers i g outcome detail none s :=
  ha.answers hi rfl rfl rfl h

/-- A command that its owner leaves in its busy slot (R178). -/
theorem State.Asks.goesOn (ha : s.Asks g c) (hi : c.Row g i) (h : s.handled g c = u.onTaken s g) : s.GoesOn i g u :=
  ⟨_, hi s, takes_of ha.ready ((ownJudge_own ha.code ha.authority).trans h)⟩

/-- A command of MAINT authority is refused under SERVICE authority (R177). -/
theorem refusedAuthority_answers (hr : s.CommandReady g) (hi : c.Row g i)
    (hc : CommandCode.ofWord (s.commandRecord g.slot g.mode).code = some c) (hm : c.needsMaint = true)
    (ha : (s.commandRecord g.slot g.mode).authority = .service) :
    s.Answers i g .refusedAuthority .none none s :=
  ⟨_, hi s, completes_of hr rfl rfl rfl (ownJudge_refused hc hm ha)⟩

/-- A command without authority of its own stands in its slot by its Code alone. -/
theorem State.CommandReady.asks (hr : s.CommandReady g)
    (hc : CommandCode.ofWord (s.commandRecord g.slot g.mode).code = some c) (hm : c.needsMaint = false) : s.Asks g c :=
  ⟨hr, hc, by simp [hm]⟩

theorem State.CommandReady.asksMaint (hr : s.CommandReady g)
    (hc : CommandCode.ofWord (s.commandRecord g.slot g.mode).code = some c)
    (ha : (s.commandRecord g.slot g.mode).authority = .maint) : s.Asks g c :=
  ⟨hr, hc, fun _ => ha⟩

/-! #### ECC_BUDGET_RESET, FAULT_RELEASE and ACK_NOTICES -/

/-- Settles O7: under MAINT authority the owner sets the budget and completes. -/
theorem eccBudgetResetRefillsBudget : Obligations.EccBudgetResetRefillsBudget := by
  intro s g hr hcode
  have hc : CommandCode.ofWord (s.commandRecord g.slot g.mode).code = some .eccBudgetReset := by rw [hcode]; rfl
  have hi : CommandCode.eccBudgetReset.Row g (.eccBudgetReset g) := fun _ => rfl
  exact ⟨refusedAuthority_answers hr hi hc rfl, fun ha => (hr.asksMaint hc ha).answers hi rfl rfl rfl rfl⟩

/-- Settles O8: by whether the record holds a First Fault. -/
theorem faultReleaseEmptiesRecord : Obligations.FaultReleaseEmptiesRecord := by
  intro s g hr hcode
  have ha : s.Asks g .faultRelease := hr.asks (by rw [hcode]; rfl) rfl
  have hi : CommandCode.faultRelease.Row g (.faultRelease g) := fun _ => rfl
  have hrecord : (s.taken g).faultRecord = s.faultRecord := rfl
  refine ⟨fun f hf => ha.answers hi rfl rfl rfl ?_, fun hf => ha.unchanged hi ?_⟩
  · show State.commandFaultRelease _ _ = _
    rw [State.commandFaultRelease, hrecord, hf]
    rfl
  · show State.commandFaultRelease _ _ = _
    rw [State.commandFaultRelease, hrecord, hf]

/-- The Detail Value that carries a set of notice flags is those flags as a word (R183). -/
theorem put_notices (x : BitVec 18) : put x.toNat 0 18 = x.setWidth 32 := by
  apply BitVec.eq_of_getLsbD_eq
  intro j hj
  rw [getLsbD_put, BitVec.getLsbD_setWidth]
  by_cases h : j < 18
  · simp [hj, h, BitVec.testBit_toNat]
  · simp [hj, h, BitVec.getLsbD_of_ge x j (by omega)]

/-- ATTN shows the enabled flags that an acknowledgement leaves (R182, R183). -/
theorem acknowledged_ne_zero_iff (notices mask : BitVec 18) (w : Word) :
    (notices &&& ~~~(w.setWidth 18)) &&& mask ≠ 0 ↔
      ∃ i : Fin 18, notices.getLsbD i.val = true ∧ mask.getLsbD i.val = true ∧ w.getLsbD i.val = false := by
  constructor
  · intro h
    by_contra hn
    push Not at hn
    refine h (BitVec.eq_of_getLsbD_eq fun j hj => ?_)
    have hj' := hn ⟨j, hj⟩
    cases h1 : notices.getLsbD j <;> cases h2 : mask.getLsbD j <;> simp_all
  · rintro ⟨j, h1, h2, h3⟩ h
    have hj := congrArg (BitVec.getLsbD · j.val) h
    simp only [BitVec.getLsbD_and, BitVec.getLsbD_not, BitVec.getLsbD_setWidth, h1, h2, h3] at hj
    simp at hj

/-- Settles O9: the flags cleared are the Detail Value, and ATTN is read from what is left. -/
theorem ackNoticesClearsNamedFlags : Obligations.AckNoticesClearsNamedFlags := by
  intro s g hr hap hcode
  have ha : s.Asks g .ackNotices := hr.asks (by rw [hcode]; rfl) rfl
  set r := s.commandRecord g.slot g.mode with hrdef
  set u : State := { s with status := { s.status with notices := s.status.notices &&& ~~~(r.arg3.setWidth 18) } } with hu
  have hcomplete : s.Completes g .done .none (some ((s.status.notices &&& r.arg3.setWidth 18).setWidth 32)) u
      (s.close (s.goWrite g (ownJudge .ackNotices State.commandAckNotices))) := by
    refine completes_of_value hr hap rfl rfl rfl rfl ((ownJudge_own ha.code ha.authority).trans ?_)
    rw [← put_notices]
    rfl
  refine ⟨_, rfl, hcomplete, ?_⟩
  obtain ⟨m, sl, p, hm⟩ : ∃ m sl p, ({ u with memory := m, slots := sl, processor := p, arbiter := s.goArbiter g }).Mirrored
      (s.close (s.goWrite g (ownJudge .ackNotices State.commandAckNotices))) := ⟨_, _, _, hcomplete.frame⟩
  generalize s.close (s.goWrite g (ownJudge .ackNotices State.commandAckNotices)) = t at hm
  have hnotices : t.status.notices = u.status.notices := hm.notices
  have hunit : t.unit = .ready := (congrArg StartUp.unit hm.startUp).trans hr.ready
  have hcfg : t.cfg = s.cfg := hm ▸ rfl
  rw [← acknowledged_ne_zero_iff]
  simp [State.attn, hunit, hnotices, hcfg, hu]

/-! #### SET_OVERRIDE and SET_TIME -/

/-- Nothing rounds to nothing (R69). -/
theorem roundFare_zero (v : Nat) : roundFare v 0 = 0 := by
  unfold roundFare
  rcases Nat.eq_zero_or_pos v with rfl | hv
  · rfl
  · rw [Nat.div_eq_of_lt (by omega), Nat.mul_zero]

/-- With a factor of 0 an exit with a valid entry costs nothing (R66 to R72). -/
theorem fareExit_zero (cfg : Configuration) (img : Image) (now : ServiceTime) (row : ProductRow) (base : Nat) :
    (fareExit cfg img now row base 0 true).fare = 0 := by
  have h : scaledFare cfg base 0 (productFactor row (validOnExit cfg img now row)) = 0 := by
    simp [scaledFare, roundFare_zero]
  simp only [fareExit, exitResult, h, discountedFare, cappedFare]
  split <;> split <;> simp

/-- Settles O10: the owner's rule by mode and factor. -/
theorem setOverrideSetsFactor : Obligations.SetOverrideSetsFactor := by
  refine ⟨fun s g hr hcode => ?_, fareExit_zero⟩
  have hc : CommandCode.ofWord (s.commandRecord g.slot g.mode).code = some .setOverride := by rw [hcode]; rfl
  have hi : CommandCode.setOverride.Row g (.setOverride g) := fun _ => rfl
  dsimp only
  refine ⟨refusedAuthority_answers hr hi hc rfl, fun hauth => ?_⟩
  have ha := hr.asksMaint hc hauth
  have hrule : s.handled g .setOverride = (s.taken g).commandSetOverride g.slot (s.commandRecord g.slot g.mode) := rfl
  unfold State.commandSetOverride at hrule
  refine ⟨fun h1 h2 => ha.unchanged hi ?_, fun h1 hf => ha.unchanged hi ?_, fun h1 hf => ha.answers hi rfl rfl rfl ?_,
    fun h2 => ha.answers hi rfl rfl rfl ?_⟩
  · rw [hrule, onOffOf, if_neg h1, if_neg h2]
  · rw [hrule, onOffOf, if_pos h1]
    exact if_neg (Nat.not_le.2 hf)
  · rw [hrule, onOffOf, if_pos h1]
    exact if_pos hf
  · rw [hrule, onOffOf, if_neg (by omega), if_pos h2]
    rfl

/-- The service time of a civil day and second, by their ranges and the start of the service day (R180). -/
theorem serviceTimeOf_eq_none {m day second : Nat}
    (h : 65535 < day ∨ 86399 < second ∨ (second < 60 * m ∧ day = 0)) : serviceTimeOf m day second = none := by
  unfold serviceTimeOf
  by_cases hr : 65535 < day ∨ 86399 < second
  · exact if_pos hr
  · rw [if_neg hr, if_neg (by omega), if_pos (by omega)]

/-- Settles O11: SET_TIME by the conversion's cases, and the advance by the cases of the service time. -/
theorem clockIsSetAndAdvances : Obligations.ClockIsSetAndAdvances := by
  refine ⟨fun s g hr hcode => ?set, fun s day second hclock => ?advance, fun s hclock => ?unset⟩
  case set =>
    have hc : CommandCode.ofWord (s.commandRecord g.slot g.mode).code = some .setTime := by rw [hcode]; rfl
    have hi : CommandCode.setTime.Row g (.setTime g) := fun _ => rfl
    dsimp only
    refine ⟨refusedAuthority_answers hr hi hc rfl, fun hauth => ?_⟩
    have ha := hr.asksMaint hc hauth
    set r := s.commandRecord g.slot g.mode
    have hnone (h : serviceTimeOf s.cfg.serviceDayStart r.arg3.toNat r.arg4.toNat = none) :
        s.Answers (.setTime g) g .badArgument .none none s := by
      refine ha.unchanged hi ?_
      show State.commandSetTime _ _ _ = _
      unfold State.commandSetTime
      rw [show (s.taken g).cfg = s.cfg from rfl, h]
    have hsome {x : ServiceTime} (h : serviceTimeOf s.cfg.serviceDayStart r.arg3.toNat r.arg4.toNat = some x) :
        s.Answers (.setTime g) g .done .none none { s with clock := some x } := by
      refine ha.answers hi rfl rfl rfl ?_
      show State.commandSetTime _ _ _ = _
      unfold State.commandSetTime
      rw [show (s.taken g).cfg = s.cfg from rfl, h]
      rfl
    refine ⟨fun h => hnone (serviceTimeOf_eq_none h), fun h1 h2 h3 => hsome ?_, fun h1 h2 h3 h4 => hsome ?_⟩
    · rw [serviceTimeOf, if_neg (by omega), if_pos h3]
    · rw [serviceTimeOf, if_neg (by omega), if_neg (by omega), if_neg (by omega)]
  case advance =>
    have hexec : exec .serviceClockAdvance s = .next (s.settle s.advanceClock) := rfl
    refine ⟨fun h => ?_, fun h hd => ?_, fun h hd => ?_⟩
    all_goals
      apply yields_of_settle
      rw [hexec, State.advanceClock, hclock]
    · simp [ServiceTime.advance, h]
    · simp [ServiceTime.advance, h, hd]
    · simp [ServiceTime.advance, h, hd]
  case unset =>
    apply yields_of_settle
    rw [show exec .serviceClockAdvance s = .next (s.settle s.advanceClock) from rfl, State.advanceClock, hclock]

/-! #### CLEAR_ALARM, GATE_FREE, GATE_NORMAL and SET_DIRECTION -/

theorem onCredits_decide (x : Gate) :
    x.onCredits = { x with
      state := if x.credits = [] then .closed else .opened, headTimer := decide (x.credits ≠ [])
      expiryPending := false, alarmTimer := false } := by
  unfold Gate.onCredits
  cases x.credits <;> rfl

theorem taken_namedLane (g : GoWrite) (w : Word) : (s.taken g).namedLane w = s.namedLane w := rfl

/-- Settles O13: each command by the lane that its target names and by the gate's state. -/
theorem gateCommandsMoveTheGate : Obligations.GateCommandsMoveTheGate := by
  intro s g hr
  dsimp only
  set r := s.commandRecord g.slot g.mode
  simp only [← onCredits_decide]
  refine ⟨fun hcode => ?clearAlarm, fun hcode => ?gateFree, fun hcode => ?gateNormal, fun hcode hauth => ?setDirection⟩
  case clearAlarm =>
    have ha : s.Asks g .clearAlarm := hr.asks (by rw [hcode]; rfl) rfl
    have hi : CommandCode.clearAlarm.Row g (.clearAlarm g) := fun _ => rfl
    have hrule : s.handled g .clearAlarm = (s.taken g).commandClearAlarm g.slot r := rfl
    rw [State.commandClearAlarm, taken_namedLane] at hrule
    refine ⟨fun hn => ha.unchanged hi ?_, fun n hn => ?_⟩
    · rw [hrule, namedLane_of_not_names hn]
    · rw [namedLane_of_names hn] at hrule
      exact ⟨fun hg => ha.answers hi rfl rfl rfl (hrule.trans (if_pos hg)),
        fun hg => ha.unchanged hi (hrule.trans (if_neg hg))⟩
  case gateFree =>
    have ha : s.Asks g .gateFree := hr.asks (by rw [hcode]; rfl) rfl
    have hi : CommandCode.gateFree.Row g (.gateFree g) := fun _ => rfl
    have hrule : s.handled g .gateFree = (s.taken g).commandGateFree g.slot r := rfl
    rw [State.commandGateFree, taken_namedLane] at hrule
    refine ⟨fun hn => ha.unchanged hi ?_, fun n hn => ?_⟩
    · rw [hrule, namedLane_of_not_names hn]
    · rw [namedLane_of_names hn] at hrule
      have hgate : (s.taken g).gate n = s.gate n := rfl
      dsimp only at hrule
      rw [hgate] at hrule
      refine ⟨fun hg => ha.unchanged hi ?_, fun hg => ha.unchanged hi ?_, fun h1 h2 => ha.answers hi rfl rfl rfl ?_⟩
      · rw [hrule, hg]
      · rw [hrule, hg]
      · rw [hrule]
        cases hg : (s.gate n).state with
        | free => exact absurd hg h1
        | emergency => exact absurd hg h2
        | closed | opened | alarm => rfl
  case gateNormal =>
    have ha : s.Asks g .gateNormal := hr.asks (by rw [hcode]; rfl) rfl
    have hi : CommandCode.gateNormal.Row g (.gateNormal g) := fun _ => rfl
    have hrule : s.handled g .gateNormal = (s.taken g).commandGateNormal g.slot r := rfl
    rw [State.commandGateNormal, taken_namedLane] at hrule
    refine ⟨fun hn => ha.unchanged hi ?_, fun n hn => ?_⟩
    · rw [hrule, namedLane_of_not_names hn]
    · rw [namedLane_of_names hn] at hrule
      exact ⟨fun hg => ha.answers hi rfl rfl rfl (hrule.trans (if_pos hg)),
        fun hg => ha.unchanged hi (hrule.trans (if_neg hg))⟩
  case setDirection =>
    have ha : s.Asks g .setDirection := hr.asksMaint (by rw [hcode]; rfl) hauth
    have hi : CommandCode.setDirection.Row g (.setDirection g) := fun _ => rfl
    have hrule : s.handled g .setDirection = (s.taken g).commandSetDirection g.slot r := rfl
    rw [State.commandSetDirection, taken_namedLane] at hrule
    have hdir (h : r.arg3.toNat = 1 ∨ r.arg3.toNat = 2) :
        directionOf r.arg3 = some (if r.arg3.toNat = 1 then .entry else .exit) := by
      unfold directionOf
      rcases h with h | h <;> simp [h]
    refine ⟨fun hn => ha.unchanged hi ?_, fun h1 h2 => ha.unchanged hi ?_, fun n hn hd => ?_⟩
    · rw [hrule, namedLane_of_not_names hn]
    · rw [hrule, show directionOf r.arg3 = none from (if_neg h1).trans (if_neg h2)]
      cases s.namedLane r.target <;> rfl
    · rw [namedLane_of_names hn, hdir hd] at hrule
      exact ⟨fun h1 h2 h3 => ha.answers hi rfl rfl rfl (hrule.trans (if_pos ⟨h1, h2, h3⟩)),
        fun h => ha.unchanged hi (hrule.trans (if_neg h))⟩

end

end Sys2Proof.Machine

/-! ### The commands of the Local Deny List, the journal, the banks and the line (R32, R33, R47, R115, R149, R156) -/

namespace Sys2Proof.Machine

section
variable {s t u : State} {g : GoWrite} {c : CommandCode} {i : Instr} {x : Serial}

/-- A request of a command's owner to the Journal Writer, before or after the command is taken. -/
theorem request_onTaken (u : State) (r : JournalRequest) : (u.onTaken s g).request r = (u.request r).onTaken s g := by
  rw [request_frame, request_frame (s := u), request_congr (s := u) (t := u.onTaken s g) rfl rfl]
  rfl

/-! #### DENY_ADD and DENY_REMOVE -/

/-- A Serial from its two words is their concatenation (R191). -/
theorem serialOf_eq (low high : Word) : serialOf low high = high ++ low := by
  apply BitVec.eq_of_toNat_eq
  have hlow := low.isLt
  have hhigh := high.isLt
  rw [serialOf, BitVec.toNat_ofNat, BitVec.toNat_append, ← Nat.shiftLeft_add_eq_or_of_lt hlow, Nat.shiftLeft_eq,
    Nat.mod_eq_of_lt (by omega), Nat.add_comm]

/-- The messages that a full Transmit Queue may give up (R151). -/
theorem givesWay_iff {m : QueuedMessage} :
    m.givesWay = true ↔ m.inFlight = false ∧ ∃ y c b, m.message = .sighting y c b := by
  obtain ⟨message, inFlight⟩ := m
  cases message <;> simp [QueuedMessage.givesWay]

theorem Line.joined_disabled (l : Line) (m : TransmitMessage) : l.joined false m = l := rfl

/-- A queue with room takes a message at its tail (R150). -/
theorem Line.joined_room {l : Line} (m : TransmitMessage) (h : l.queue.length < 32) :
    l.joined true m = { l with queue := l.queue ++ [⟨m, false⟩] } := by
  rw [Line.joined_eq, if_neg (by simp)]
  exact if_pos h

/-- A full queue gives up its oldest SIGHTING that is not in flight (R151). -/
theorem Line.joined_gives {l : Line} (m : TransmitMessage) (h : 32 ≤ l.queue.length) {before after : List QueuedMessage}
    {q : QueuedMessage} (hq : l.queue = before ++ q :: after) (hgive : q.givesWay = true)
    (hkeep : ∀ o ∈ before, ¬o.givesWay = true) :
    l.joined true m = { l with queue := before ++ after ++ [⟨m, false⟩], dropped := min 65535 (l.dropped + 1) } := by
  have hany : l.queue.any QueuedMessage.givesWay = true := List.any_eq_true.2 ⟨q, by simp [hq], hgive⟩
  have herase : l.queue.eraseP QueuedMessage.givesWay = before ++ after := by
    rw [hq, List.eraseP_append_right _ (by simpa using hkeep), List.eraseP_cons_of_pos hgive]
  rw [Line.joined_eq, if_neg (by simp), if_neg (show ¬l.queue.length < Config.transmitQueueSize from Nat.not_lt.2 h),
    if_pos hany, herase]

/-- A full queue that has no such SIGHTING discards the newcomer (R151). -/
theorem Line.joined_discards {l : Line} (m : TransmitMessage) (h : 32 ≤ l.queue.length)
    (hkeep : ∀ o ∈ l.queue, ¬o.givesWay = true) :
    l.joined true m = { l with dropped := min 65535 (l.dropped + 1) } := by
  have hany : ¬l.queue.any QueuedMessage.givesWay = true := by simpa using hkeep
  rw [Line.joined_eq, if_neg (by simp), if_neg (show ¬l.queue.length < Config.transmitQueueSize from Nat.not_lt.2 h),
    if_neg hany]

/-- What a message of this unit's own that joins leaves of the line, case by case (R150, R151). -/
theorem Line.joined_cases (l : Line) (enabled : Bool) (message : TransmitMessage) :
    (enabled = false → l.joined enabled message = l)
    ∧ (enabled = true →
      (l.queue.length < 32 → l.joined enabled message = { l with queue := l.queue ++ [⟨message, false⟩] })
      ∧ (32 ≤ l.queue.length → ∀ before m after, l.queue = before ++ m :: after →
          (m.inFlight = false ∧ ∃ y c b, m.message = .sighting y c b) →
          (∀ o ∈ before, ¬(o.inFlight = false ∧ ∃ y c b, o.message = .sighting y c b)) →
          l.joined enabled message =
            { l with queue := before ++ after ++ [⟨message, false⟩], dropped := min 65535 (l.dropped + 1) })
      ∧ (32 ≤ l.queue.length → (∀ m ∈ l.queue, ¬(m.inFlight = false ∧ ∃ y c b, m.message = .sighting y c b)) →
          l.joined enabled message = { l with dropped := min 65535 (l.dropped + 1) })) := by
  simp only [← givesWay_iff]
  refine ⟨fun h => h ▸ l.joined_disabled message, ?_⟩
  rintro rfl
  exact ⟨Line.joined_room message, fun h _ _ _ hq hm hb => Line.joined_gives message h hq hm hb,
    Line.joined_discards message⟩

/-- The Local Deny List with an entry at its end, case by case (R31). -/
theorem denyJoined_cases (s : State) (e : DenyEntry) :
    let give (e : DenyEntry) : Bool := e.origin == .neighbor
    (s.denyList.length < 256 → s.denyJoined e = s.denyList ++ [e])
    ∧ (256 ≤ s.denyList.length → s.denyList.any give = true → s.denyJoined e = s.denyList.eraseP give ++ [e])
    ∧ (256 ≤ s.denyList.length → s.denyList.any give = false → s.denyJoined e = s.denyList.tail ++ [e]) := by
  intro give
  unfold State.denyJoined
  refine ⟨fun h => if_pos h, fun h hg => ?_, fun h hg => ?_⟩
  · rw [if_neg (Nat.not_lt.2 h), if_pos hg]
  · rw [if_neg (Nat.not_lt.2 h), if_neg (by simpa [give] using hg)]

/-- The Serial that a full Local Deny List gives up (R31). -/
theorem displaced_eq (s : State) :
    let give (e : DenyEntry) : Bool := e.origin == .neighbor
    s.displaced = if s.denyList.length < 256 then none
      else if s.denyList.any give then (s.denyList.find? give).map (·.serial) else s.denyList.head?.map (·.serial) := by
  intro give
  unfold State.displaced
  by_cases hroom : s.denyList.length < 256
  · rw [if_pos hroom, if_pos hroom]
  · rw [if_neg hroom, if_neg hroom]
    show (match s.denyList.find? give with | some e => _ | none => _) = _
    cases hf : s.denyList.find? give with
    | none =>
      have hany : ¬s.denyList.any give = true := by simpa [List.find?_eq_none] using hf
      rw [if_neg hany]
    | some e =>
      have hany : s.denyList.any give = true :=
        List.any_eq_true.2 ⟨e, List.mem_of_find?_eq_some hf, List.find?_some hf⟩
      rw [if_pos hany]
      rfl

/-- The state after an operator's Serial has joined the Local Deny List, with its message to the neighbors (R32). -/
def State.operatorDenied (s : State) (x : Serial) : State :=
  { s.denyAdded x .own .operator 0 with line := s.line.joined s.cfg.lineEnabled (.deny x .operator) }

/-- A completed command whose effect is `u` shows the values of `u`. -/
theorem State.Completes.mirrored {outcome : CommandOutcome} {detail : Detail} {v : Option Word}
    (h : s.Completes g outcome detail v u t) :
    ∃ m sl p, ({ u with memory := m, slots := sl, processor := p, arbiter := s.goArbiter g }).Mirrored t :=
  ⟨_, _, _, h.frame⟩

/-- Settles O14: each command by the Serial's place in the list. -/
theorem denyCommandsChangeTheList : Obligations.DenyCommandsChangeTheList := by
  refine ⟨fun s g hr hcode => ?add, fun s g hr hcode hauth => ?remove⟩
  case add =>
    intro r x entry give
    have ha : s.Asks g .denyAdd := hr.asks (by rw [hcode]; rfl) rfl
    have hi : CommandCode.denyAdd.Row g (.denyAdd g) := fun _ => rfl
    have hrule : s.handled g .denyAdd = (s.taken g).commandDenyAdd g.slot r := rfl
    have hserial : r.serial = x := serialOf_eq _ _
    rw [State.commandDenyAdd, hserial] at hrule
    refine ⟨fun h0 => ha.unchanged hi (hrule.trans (if_pos h0)), fun h0 hin => ha.unchanged hi ?_, fun h0 hout => ?_⟩
    · rw [hrule, if_neg h0, addOwnDeny_of_denied (s := s.taken g) hin]
    · have hcomplete : s.Answers (.denyAdd g) g .done .none none (s.operatorDenied x) := by
        refine ha.answers hi rfl rfl rfl ?_
        rw [hrule, if_neg h0, addOwnDeny_of_absent (s := s.taken g) hout]
        simp only [State.denyAdded, request_congr (s := s) (t := s.taken g) rfl rfl]
        rfl
      obtain ⟨t, hexec, hc⟩ := hcomplete
      obtain ⟨m, sl, p, hm⟩ := hc.mirrored
      have hline : t.line = s.line.joined s.cfg.lineEnabled (.deny x .operator) := hm.line
      have hlist : t.denyList = s.denyJoined entry := hm.denyList
      have hjournal : t.journal = (s.request (s.denyEntry x .own .operator 0)).journal := hm.journal
      have hnotices : t.status.notices = s.status.notices ||| BitVec.ofNat 18 (2 ^ Notice.deny.bit) := hm.notices
      refine ⟨t, hexec, ?_, hnotices, ?_⟩
      · rw [hline, ← Line.joined_frame, hlist, hjournal, hnotices]
        exact hc
      · rw [hlist, hjournal, hline]
        obtain ⟨h1, h2, h3⟩ := denyJoined_cases s entry
        obtain ⟨l1, l2⟩ := s.line.joined_cases s.cfg.lineEnabled (.deny x .operator)
        refine ⟨h1, h2, h3, ?_, l1, l2⟩
        rw [State.denyEntry, displaced_eq]
  case remove =>
    intro r x
    have ha : s.Asks g .denyRemove := hr.asksMaint (by rw [hcode]; rfl) hauth
    have hi : CommandCode.denyRemove.Row g (.denyRemove g) := fun _ => rfl
    have hrule : s.handled g .denyRemove = (s.taken g).commandDenyRemove g.slot r := rfl
    have hserial : r.serial = x := serialOf_eq _ _
    rw [State.commandDenyRemove, hserial] at hrule
    refine ⟨fun h0 => ha.unchanged hi (hrule.trans (if_pos h0)), fun h0 hout => ha.unchanged hi ?_,
      fun h0 before after e hl he hb => ha.answers hi rfl rfl rfl ?_⟩
    · rw [hrule, if_neg h0, (denied_eq_none_iff (s := s.taken g)).2 hout]
    · have hlist : (s.taken g).denyList = before ++ e :: after := hl
      obtain ⟨f, hf⟩ : ∃ f, (s.taken g).denied x = some f := by
        rw [← Option.ne_none_iff_exists', Ne, denied_eq_none_iff, hlist]
        exact fun h => h e (by simp) he
      have herase : (s.taken g).denyList.eraseP (fun e => e.serial == x) = before ++ after := by
        rw [hlist, List.eraseP_append_right _ (by simpa using hb), List.eraseP_cons_of_pos (by simpa using he)]
      rw [hrule, if_neg h0, hf]
      dsimp only
      rw [herase]
      rfl

/-! #### JOURNAL_RELEASE and BANK_SWITCH -/

theorem Quad.mem_toList {α : Type} {q : Quad α} {a : α} : a ∈ q.toList ↔ ∃ n, q.get n = a := by
  constructor
  · intro h
    simp only [Quad.toList, List.mem_cons, List.not_mem_nil, or_false] at h
    obtain rfl | rfl | rfl | rfl := h
    exacts [⟨0, rfl⟩, ⟨1, rfl⟩, ⟨2, rfl⟩, ⟨3, rfl⟩]
  · rintro ⟨n, rfl⟩
    fin_cases n <;> simp [Quad.toList, Quad.get]

/-- The Pending Sequences at or below `q` are those of some lane (R115). -/
theorem mem_pendingUpTo {q p : Nat} : p ∈ s.pendingUpTo q ↔ p ≤ q ∧ ∃ n, (s.lane n).pendingSeq = some p := by
  have hmem (l : LaneContext) : l ∈ s.lanes.toList ↔ ∃ n, s.lane n = l := Quad.mem_toList
  simp only [State.pendingUpTo, List.mem_filter, List.mem_filterMap, hmem, decide_eq_true_eq]
  constructor
  · rintro ⟨⟨l, ⟨n, rfl⟩, hl⟩, hq⟩
    exact ⟨hq, n, hl⟩
  · rintro ⟨hq, n, hl⟩
    exact ⟨⟨_, ⟨n, rfl⟩, hl⟩, hq⟩

/-- The lowest Pending Sequence at or below `q` (R115). -/
theorem pendingUpTo_min {q p : Nat} {n : Lane} (hn : (s.lane n).pendingSeq = some p) (hp : p ≤ q)
    (hlow : ∀ m p', (s.lane m).pendingSeq = some p' → p ≤ p') : (s.pendingUpTo q).min? = some p := by
  rw [List.min?_eq_some_iff]
  refine ⟨mem_pendingUpTo.2 ⟨hp, n, hn⟩, fun p' h => ?_⟩
  obtain ⟨-, m, hm⟩ := mem_pendingUpTo.1 h
  exact hlow m p' hm

/-- A field that fills its word is the word of its number. -/
theorem put_word (v : Nat) : put v 0 32 = BitVec.ofNat 32 v := by
  apply BitVec.eq_of_toNat_eq
  simp [put]

/-- Settles O17: the checks in order, the Pending Sequences by `pendingUpTo_min`. -/
theorem journalReleaseIsChecked : Obligations.JournalReleaseIsChecked := by
  intro s g hr hcode q
  have ha : s.Asks g .journalRelease := hr.asks (by rw [hcode]; rfl) rfl
  have hi : CommandCode.journalRelease.Row g (.journalRelease g) := fun _ => rfl
  have hrule : s.handled g .journalRelease =
      (s.taken g).commandJournalRelease g.slot (s.commandRecord g.slot g.mode) := rfl
  have hjournal : (s.taken g).journal = s.journal := rfl
  have hpending : (s.taken g).pendingUpTo q = s.pendingUpTo q := rfl
  have hqdef : (s.commandRecord g.slot g.mode).arg3.toNat = q := rfl
  simp only [State.commandJournalRelease, hjournal, hqdef, hpending] at hrule
  refine ⟨fun h => ha.unchanged hi ?_, fun h hq => ha.unchanged hi ?_, fun h h1 h2 => ⟨fun p n hn hp hlow hap => ?_,
    fun hno => ha.goesOn hi ?_⟩⟩
  · rw [hrule, if_pos (Option.isSome_iff_ne_none.2 h)]
  · rw [hrule, if_neg (by simp [h]), if_pos hq]
  · refine ⟨_, hi s, completes_of_value hr hap rfl rfl rfl rfl ((ownJudge_own ha.code ha.authority).trans ?_)⟩
    refine hrule.trans ?_
    rw [if_neg (by simp [h]), if_neg (by simp [h1, h2]), pendingUpTo_min hn hp hlow]
    dsimp only
    rw [put_word]
    rfl
  · have hnone : (s.pendingUpTo q).min? = none := by
      rw [List.min?_eq_none_iff]
      refine List.eq_nil_iff_forall_not_mem.2 fun p hp => ?_
      obtain ⟨hle, n, hn⟩ := mem_pendingUpTo.1 hp
      exact absurd hle (Nat.not_le.2 (hno n p hn))
    rw [hrule, if_neg (by simp [h]), if_neg (by simp [h1, h2]), hnone]
    exact request_onTaken (s := s) (g := g) { s with journal := { s.journal with release := some (g.slot, q) } } _

end

end Sys2Proof.Machine

/-! ### The line and its LINE notice, BANK_SWITCH and the commands of the line (R47, R143 to R149, R155, R156) -/

namespace Sys2Proof.Machine

section
variable {s t u : State} {g : GoWrite} {i : Instr} {l l' : Line} {a b : Bool}

/-! #### The line with its notice -/

theorem Notice.bit_lt (n : Notice) : n.bit < 18 := by
  cases n <;> simp only [Notice.bit] <;> omega

theorem Notice.bit_eq_line_iff {n : Notice} : n.bit = Notice.line.bit ↔ n = .line := by
  cases n <;> simp only [Notice.bit, reduceCtorEq, iff_false] <;> omega

/-- The flag of the LINE notice among others (12.6). -/
theorem getLsbD_or_line (x : BitVec 18) (n : Notice) :
    (x ||| BitVec.ofNat 18 (2 ^ Notice.line.bit)).getLsbD n.bit = (x.getLsbD n.bit || decide (n = .line)) := by
  rw [BitVec.getLsbD_or, BitVec.getLsbD_ofNat, Nat.testBit_two_pow]
  simp only [n.bit_lt, decide_true, Bool.true_and, eq_comm (a := Notice.line.bit), Notice.bit_eq_line_iff]

/-- The state with the line `l`, and with the LINE notice where it is to be set (R143, R155). -/
def State.relined (s : State) (l : Line) (changed : Bool) : State :=
  { s with
    line := l
    status := { s.status with
      notices := if changed then s.status.notices ||| BitVec.ofNat 18 (2 ^ Notice.line.bit) else s.status.notices } }

theorem relined_line : (s.relined l a).line = l := rfl

theorem setLine_eq (s : State) (l : Line) : s.setLine l = s.relined l false := rfl

theorem relined_relined : (s.relined l a).relined l' b = s.relined l' (a || b) := by
  cases a <;> cases b <;> simp [State.relined, BitVec.or_assoc]

theorem relined_frame :
    s.relined l a =
      { s with line := (s.relined l a).line, status := { s.status with notices := (s.relined l a).status.notices } } := rfl

theorem relined_noticed (n : Notice) : (s.relined l a).noticed n = (s.noticed n || (a && decide (n = .line))) := by
  cases a with
  | false => simp [State.relined, State.noticed]
  | true => exact (getLsbD_or_line _ _).trans (by simp [State.noticed])

/-- A row that changes the line and the LINE notice alone. -/
theorem relined_of_settle (h : exec i s = .next (s.settle (s.relined l a))) :
    ∃ t, exec i s = .next t
      ∧ ({ s with line := l, status := { s.status with notices := t.status.notices } }).Mirrored t
      ∧ t.line = l ∧ (a = true → s.Notified t [.line]) ∧ ∀ n, t.noticed n = (s.relined l a).noticed n := by
  have hm := settle_mirrored s (s.relined l a)
  refine ⟨_, h, ?_, hm.line, ?_, fun n => congrArg (BitVec.getLsbD · n.bit) hm.notices⟩
  · rw [hm.notices]
    exact hm
  · rintro rfl
    exact hm.notices

theorem relined_of_eq (h : exec i s = .next (s.settle t)) (ht : t = s.relined l a) :
    ∃ t, exec i s = .next t
      ∧ ({ s with line := l, status := { s.status with notices := t.status.notices } }).Mirrored t
      ∧ t.line = l ∧ (a = true → s.Notified t [.line]) ∧ ∀ n, t.noticed n = (s.relined l a).noticed n :=
  relined_of_settle (ht ▸ h)

theorem relined_noticed_line : (s.relined l true).noticed .line = true := by
  simp [relined_noticed]

theorem enterMembership_eq (m : Membership) :
    s.enterMembership m = s.relined { s.line with membership := m } (decide (s.line.membership ≠ m)) := by
  unfold State.enterMembership
  by_cases h : s.line.membership = m <;> simp [h, setLine_eq] <;> rfl

theorem setPresence_eq (p : Vector Presence 16) :
    s.setPresence p = s.relined { s.line with presence := p }
      (decide (s.line.presence.map Presence.present ≠ p.map Presence.present)) := by
  unfold State.setPresence
  by_cases h : s.line.presence.map Presence.present = p.map Presence.present <;> simp [h, setLine_eq] <;> rfl

/-! #### Entries to a membership state (R143, R144, R147) -/

/-- Whether the set of present units differs between two Presence tables (R155). -/
def presenceMoves (p q : Vector Presence 16) : Bool := decide (p.map Presence.present ≠ q.map Presence.present)

theorem enterSilent_eq (s : State) :
    s.enterSilent = s.relined
      { s.line.abandonFrame with
        running := false, aligned := false, silenceTimer := false, joining := false, misaligned := 0, inbox := []
        mode := none, presence := presenceReset, membership := .silent }
      (presenceMoves s.line.presence presenceReset || decide (s.line.membership ≠ .silent)) := by
  simp only [State.enterSilent, setLine_eq, setPresence_eq, enterMembership_eq, relined_relined, relined_line,
    Bool.false_or]
  rfl

theorem enterListen_eq (s : State) :
    s.enterListen = s.relined
      { s.line.abandonFrame with
        running := true, aligned := false, silenceTimer := true, joining := false, misaligned := 0, mode := none
        membership := .listen }
      (decide (s.line.membership ≠ .listen)) := by
  simp only [State.enterListen, setLine_eq, enterMembership_eq, relined_relined, relined_line, Bool.false_or]
  rfl

theorem enterResync_eq (s : State) :
    s.enterResync = s.relined
      { s.line.abandonFrame with
        aligned := false, joining := false, misaligned := 0, cycles := 0, mode := none, membership := .resync }
      (decide (s.line.membership ≠ .resync)) := by
  simp only [State.enterResync, setLine_eq, enterMembership_eq, relined_relined, relined_line, Bool.false_or]
  rfl

theorem refreshPresence_eq (s : State) (x : UnitId) (cycle : Nat) :
    s.refreshPresence x cycle = s.relined
      { s.line with presence := s.line.presence.set x.val ⟨some cycle, 0⟩ }
      (presenceMoves s.line.presence (s.line.presence.set x.val ⟨some cycle, 0⟩)) := setPresence_eq _

/-! #### BANK_SWITCH -/

/-- Settles O18: by the bank that the target names. -/
theorem bankSwitchStartsValidation : Obligations.BankSwitchStartsValidation := by
  intro s g hr hcode hauth target starts
  have ha : s.Asks g .bankSwitch := hr.asksMaint (by rw [hcode]; rfl) hauth
  have hi : CommandCode.bankSwitch.Row g (.bankSwitch g) := fun _ => rfl
  have hrule : s.handled g .bankSwitch = (s.taken g).commandBankSwitch g.slot (s.commandRecord g.slot g.mode) := rfl
  have hbank (x : BankId) : (s.taken g).bank x = s.bank x := by cases x <;> rfl
  have hbanks : (s.taken g).banks = s.banks := rfl
  have htarget : (s.commandRecord g.slot g.mode).target = target := rfl
  simp only [State.commandBankSwitch, htarget, hbanks, hbank] at hrule
  have hstarts {x : BankId} {bankA bankB named : Bank} (hx : bankOfCode target.toNat = some x) (hn : named = s.bank x)
      (hs : (s.taken g).setBank x { named with state := some .validating } =
        ({ s with banks := { s.banks with a := bankA, b := bankB } }).onTaken s g) : starts x bankA bankB named := by
    subst hn
    rw [hx] at hrule
    refine ⟨fun h => ha.unchanged hi ?_, fun h hb => ha.unchanged hi ?_, fun h hb => ha.goesOn hi ?_⟩
    · exact hrule.trans (if_pos (Option.isSome_iff_ne_none.2 h))
    · exact hrule.trans ((if_neg (by simp [h])).trans (if_neg hb))
    · refine hrule.trans ((if_neg (by simp [h])).trans ((if_pos hb).trans ?_))
      rw [hs]
      rfl
  refine ⟨fun h1 h2 => ha.unchanged hi ?_, fun h => hstarts (by rw [h]; rfl) rfl rfl,
    fun h => hstarts (by rw [h]; rfl) rfl rfl⟩
  rw [hrule, bankOfCode, if_neg h1, if_neg h2]

/-! #### LINE_RESTART, LINE_CHECK_START and LINE_CHECK_STOP -/

/-- The line as LINE_RESTART leaves it (R149). -/
def State.restartedLine (s : State) : Line :=
  { s.line with
    membership := if s.cfg.lineEnabled then .listen else .silent, aligned := false, running := s.cfg.lineEnabled
    silenceTimer := s.cfg.lineEnabled, joining := false, misaligned := 0, queue := [], sending := none, inbox := []
    presence := presenceReset, mode := none }

/-- What LINE_RESTART does before it completes (R149). -/
theorem restart_eq (s : State) :
    ∃ c, (s.cfg.lineEnabled = true → c = true)
      ∧ (s.enterSilent.setLine { s.enterSilent.line with queue := [] }).listenIfEnabled = s.relined s.restartedLine c := by
  have hcfg (l : Line) (c : Bool) : (s.relined l c).cfg = s.cfg := rfl
  simp only [State.listenIfEnabled, enterSilent_eq, setLine_eq, relined_relined, relined_line, enterListen_eq, hcfg,
    Bool.or_false]
  cases he : s.cfg.lineEnabled with
  | true =>
    refine ⟨true, fun _ => rfl, ?_⟩
    simp [State.restartedLine, Line.abandonFrame, he]
  | false =>
    refine ⟨presenceMoves s.line.presence presenceReset || decide (s.line.membership ≠ .silent), by simp, ?_⟩
    simp [State.restartedLine, Line.abandonFrame, he]

theorem relined_taken (l : Line) (c : Bool) : (s.taken g).relined l c = (s.relined l c).onTaken s g := rfl

/-- Settles O19: LINE_RESTART by whether the line is enabled, the line check by its arguments and the membership state. -/
theorem lineCommandsAct : Obligations.LineCommandsAct := by
  refine ⟨fun s g hr hcode hauth => ?restart, fun s g hr hauth => ?check⟩
  case restart =>
    have ha : s.Asks g .lineRestart := hr.asksMaint (by rw [hcode]; rfl) hauth
    have hi : CommandCode.lineRestart.Row g (.lineRestart g) := fun _ => rfl
    have hrule : s.handled g .lineRestart = (s.taken g).commandLineRestart g.slot := rfl
    obtain ⟨c, hc, hrestart⟩ := restart_eq (s.taken g)
    have hcomplete : s.Answers (.lineRestart g) g .done .none none (s.relined s.restartedLine c) := by
      refine ha.answers hi rfl rfl rfl ?_
      rw [hrule, State.commandLineRestart, hrestart]
      rfl
    obtain ⟨t, hexec, hcom⟩ := hcomplete
    obtain ⟨m, sl, p, hm⟩ := hcom.mirrored
    have hline : t.line = s.restartedLine := hm.line
    have hnotices : t.status.notices = (s.relined s.restartedLine c).status.notices := hm.notices
    have hnoticed (n : Notice) : t.noticed n = (s.noticed n || (c && decide (n = .line))) :=
      (congrArg (BitVec.getLsbD · n.bit) hnotices).trans (relined_noticed n)
    refine ⟨t, hexec, ?_, ?_⟩
    · rw [hnotices, hline]
      exact hcom
    · rw [hline]
      refine ⟨rfl, rfl, rfl, rfl, rfl, rfl, rfl, rfl, rfl, rfl, rfl, rfl, rfl, rfl, rfl, fun he => ?_, fun n hn => ?_⟩
      · rw [hnoticed, hc he]
        simp
      · simp [hnoticed, hn]
  case check =>
    intro r noticed
    refine ⟨fun hcode => ?start, fun hcode => ?stop⟩
    case start =>
      have ha : s.Asks g .lineCheckStart := hr.asksMaint (by rw [hcode]; rfl) hauth
      have hi : CommandCode.lineCheckStart.Row g (.lineCheckStart g) := fun _ => rfl
      have hrule : s.handled g .lineCheckStart = (s.taken g).commandLineCheckStart g.slot r := rfl
      have hmember : (s.taken g).line = s.line := rfl
      rw [State.commandLineCheckStart, hmember] at hrule
      refine ⟨fun h => ha.unchanged hi ?_, fun h1 h2 h3 h4 => ?_⟩
      · rw [hrule]
        cases hmode : checkModeOf r.arg3 with
        | none => rfl
        | some mode =>
          cases hinj : onOffOf r.arg4 with
          | none => rfl
          | some injection =>
            refine absurd ?_ h
            simp only [checkModeOf, onOffOf] at hmode hinj
            split_ifs at hmode <;> split_ifs at hinj <;> omega
      · have hmode : checkModeOf r.arg3 = some (if r.arg3.toNat = 1 then .line else .wrap) := by
          unfold checkModeOf
          by_cases h : r.arg3.toNat = 1
          · rw [if_pos h, if_pos h]
          · rw [if_neg h, if_neg h, if_pos (by omega)]
        have hinj : onOffOf r.arg4 = some (decide (r.arg4.toNat = 1)) := by
          unfold onOffOf
          by_cases h : r.arg4.toNat = 1
          · rw [if_pos h, decide_eq_true h]
          · rw [if_neg h, if_pos (by omega), decide_eq_false h]
        rw [hmode, hinj] at hrule
        refine ⟨fun h => ha.unchanged hi (hrule.trans (if_neg h)), fun h => ha.answers hi rfl rfl rfl ?_⟩
        rw [hrule]
        refine (if_pos h).trans ?_
        rw [setLine_eq, enterMembership_eq, relined_relined, relined_line]
        simp only [h]
        rfl
    case stop =>
      have ha : s.Asks g .lineCheckStop := hr.asksMaint (by rw [hcode]; rfl) hauth
      have hi : CommandCode.lineCheckStop.Row g (.lineCheckStop g) := fun _ => rfl
      have hrule : s.handled g .lineCheckStop = (s.taken g).commandLineCheckStop g.slot := rfl
      have hmember : (s.taken g).line = s.line := rfl
      rw [State.commandLineCheckStop, hmember] at hrule
      refine ⟨fun h => ha.unchanged hi (hrule.trans (if_neg h)), fun h hm => ha.answers hi rfl rfl rfl ?_,
        fun h hm => ha.answers hi rfl rfl rfl ?_⟩
      · rw [hrule, if_pos h, if_neg hm, setLine_eq, enterMembership_eq, relined_relined, relined_line]
        simp only [h]
        rfl
      · rw [hrule, if_pos h, if_pos hm, enterListen_eq, hmember]
        simp only [h]
        rfl

end

end Sys2Proof.Machine

/-! ### The commands of a lane: PROCEED, CANCEL and LANE_RESET (R80, R83 to R85, R98) -/

namespace Sys2Proof.Machine

section
variable {s t u : State} {g : GoWrite} {k : SlotId} {r : CommandRecord} {n : Lane}

/-! #### Their owners' rules, said once -/

/-- Lane `n` keeps one more command waiting (R80, R92, R98). -/
theorem waitForLane_eq (s : State) (n : Lane) (k : SlotId) :
    s.waitForLane n k = { s with lanes := s.lanes.set n { s.lane n with waiting := (s.lane n).waiting ++ [k] } } := rfl

/-- An entry with the charged values (R108). -/
theorem chargedDraft_eq (s : State) (n : Lane) (kind : TransactionKind) (reference : Option Nat) :
    s.chargedDraft n kind reference = s.entryOf n kind true reference := rfl

/-- An entry with the landed Counter and Balance (R108). -/
theorem landedDraft_eq (s : State) (n : Lane) (kind : TransactionKind) (reference : Option Nat) :
    s.landedDraft n kind reference = s.entryOf n kind false reference := rfl

theorem requestAppend_eq (s : State) (n : Lane) (d : EntryDraft) (next : AfterAppend) :
    s.requestAppend n d next = s.appends n d next := rfl

theorem withdraw_first (h : (s.lane n).pendingSeq = none) (first reissue : TransactionKind) (k : Option SlotId) :
    s.withdraw n first reissue k = s.appends n (s.entryOf n first false none) (.toIdle n k) := by
  rw [State.withdraw, h]
  rfl

theorem withdraw_reissue {q : Nat} (h : (s.lane n).pendingSeq = some q) (first reissue : TransactionKind)
    (k : Option SlotId) :
    s.withdraw n first reissue k = s.appends n (s.entryOf n reissue false (some q)) (.toIdle n k) := by
  rw [State.withdraw, h]
  rfl

theorem appends_taken (n : Lane) (d : EntryDraft) (next : AfterAppend) :
    (s.taken g).appends n d next = (s.appends n d next).onTaken s g :=
  request_onTaken (s := s) (g := g) { s with lanes := s.lanes.set n { s.lane n with appending := true } } _

/-- A decision that names another verdict, or comes to a lane that has none, fails (R83). -/
theorem decisionCheck_eq (l : LaneContext) (w : Word) :
    (w = 0 → l.decisionCheck w.toNat = some .badArgument)
    ∧ (w ≠ 0 → w.toNat ≠ l.verdictNumber → l.decisionCheck w.toNat = some .badSequence)
    ∧ (w ≠ 0 → w.toNat = l.verdictNumber → l.state ≠ .decided → l.decisionCheck w.toNat = some .refusedState)
    ∧ (w ≠ 0 → w.toNat = l.verdictNumber → l.state = .decided → l.decisionCheck w.toNat = none) := by
  have hne (h : w ≠ 0) : w.toNat ≠ 0 := fun h' => h (BitVec.eq_of_toNat_eq h')
  unfold LaneContext.decisionCheck
  refine ⟨fun h => by simp [h], fun h hv => ?_, fun h hv hd => ?_, fun h hv hd => ?_⟩
  · rw [if_neg (hne h), if_pos hv]
  · rw [if_neg (hne h), if_neg (by simp [hv]), if_pos hd]
  · rw [if_neg (hne h), if_neg (by simp [hv]), if_neg (by simp [hd])]

/-- The checks of PROCEED and CANCEL up to the lane's verdict: an outcome for a decision that fails (R80, R83). -/
structure Handler.Checks (f : Handler) (s : State) (k : SlotId) (r : CommandRecord) : Prop where
  nowhere  : (∀ n, ¬s.Names r.target n) → f s k r = s.complete k .badArgument
  waits    : ∀ n, s.Names r.target n → (s.lane n).appending = true → f s k r = s.waitForLane n k
  failing  : ∀ n, s.Names r.target n → (s.lane n).appending = false → ∀ outcome,
    (s.lane n).decisionCheck r.arg3.toNat = some outcome → f s k r = s.complete k outcome

theorem commandProceed_checks (s : State) (k : SlotId) (r : CommandRecord) :
    Handler.Checks State.commandProceed s k r := by
  refine ⟨fun h => ?_, fun n hn ha => ?_, fun n hn ha outcome hc => ?_⟩ <;> unfold State.commandProceed
  · rw [namedLane_of_not_names h]
  · rw [namedLane_of_names hn]
    exact if_pos ha
  · rw [namedLane_of_names hn]
    dsimp only
    rw [if_neg (by simp [ha]), hc]

theorem commandCancel_checks (s : State) (k : SlotId) (r : CommandRecord) :
    Handler.Checks State.commandCancel s k r := by
  refine ⟨fun h => ?_, fun n hn ha => ?_, fun n hn ha outcome hc => ?_⟩ <;> unfold State.commandCancel
  · rw [namedLane_of_not_names h]
  · rw [namedLane_of_names hn]
    exact if_pos ha
  · rw [namedLane_of_names hn]
    dsimp only
    rw [if_neg (by simp [ha]), hc]

section
variable (hn : s.Names r.target n) (ha : (s.lane n).appending = false)
  (hc : (s.lane n).decisionCheck r.arg3.toNat = none)
include hn ha hc

/-- PROCEED of a first verdict (R84). -/
theorem commandProceed_first (hp : (s.lane n).pendingSeq = none) :
    s.commandProceed k r = s.appends n (s.entryOf n .pending true none) (.release n k) := by
  rw [State.commandProceed, namedLane_of_names hn]
  dsimp only
  rw [if_neg (by simp [ha]), hc, hp]
  rfl

/-- PROCEED of a re-issue (R84). -/
theorem commandProceed_reissue (hp : (s.lane n).pendingSeq ≠ none) :
    s.commandProceed k r = (s.enterReleased n).complete k .done := by
  obtain ⟨q, hq⟩ := Option.ne_none_iff_exists'.1 hp
  rw [State.commandProceed, namedLane_of_names hn]
  dsimp only
  rw [if_neg (by simp [ha]), hc, hq]

/-- CANCEL withdraws the verdict (R85). -/
theorem commandCancel_withdraws :
    s.commandCancel k r = s.withdraw n .cancelled .notChargedCancelled (some k) := by
  rw [State.commandCancel, namedLane_of_names hn]
  dsimp only
  rw [if_neg (by simp [ha]), hc]

end

/-! #### PROCEED and CANCEL -/

/-- A command taken after it waited completes (R178). -/
theorem complete_ends (hs : u.slots = s.slots) (outcome : CommandOutcome) (detail : Detail) :
    s.Ends k outcome detail u (u.complete k outcome detail) := by
  unfold State.Ends
  rw [complete_none]
  simp only [State.offer, List.contains_eq_mem, decide_eq_true_eq, State.placeResult, State.setSlot, State.slot, hs]
  split_ifs with h <;> rfl

/-- A command that waited for the lane it names is taken by its owner's rule (R80). -/
theorem laneCommand_eq (h : s.CommandWaits k r n) :
    (r.code = 1 → s.laneCommand k = s.commandProceed k r) ∧ (r.code = 2 → s.laneCommand k = s.commandCancel k r)
    ∧ (r.code = 3 → s.laneCommand k = s.commandLaneReset k r) := by
  refine ⟨fun hc => ?_, fun hc => ?_, fun hc => ?_⟩ <;> rw [State.laneCommand, h.command] <;> dsimp only <;>
    rw [hc] <;> rfl

/-- The checks of a command as it comes (R83). -/
theorem checks_answers {c : CommandCode} {i : Instr} (ha : s.Asks g c) (hi : c.Row g i)
    (h : Handler.Checks c.handler (s.taken g) g.slot (s.commandRecord g.slot g.mode)) :
    let r := s.commandRecord g.slot g.mode
    ((∀ n, ¬s.Names r.target n) → s.Answers i g .badArgument .none none s)
      ∧ (∀ n, s.Names r.target n → (s.lane n).appending = true → s.GoesOn i g
          { s with lanes := s.lanes.set n { s.lane n with waiting := (s.lane n).waiting ++ [g.slot] } })
      ∧ ∀ n, s.Names r.target n → (s.lane n).appending = false →
        (r.arg3 = 0 → s.Answers i g .badArgument .none none s)
        ∧ (r.arg3 ≠ 0 → r.arg3.toNat ≠ (s.lane n).verdictNumber → s.Answers i g .badSequence .none none s)
        ∧ (r.arg3 ≠ 0 → r.arg3.toNat = (s.lane n).verdictNumber → (s.lane n).state ≠ .decided →
            s.Answers i g .refusedState .none none s) := by
  intro r
  refine ⟨fun hn => ha.unchanged hi (h.nowhere hn), fun n hn hw => ha.goesOn hi (h.waits n hn hw), fun n hn hw => ?_⟩
  obtain ⟨h0, h1, h2, -⟩ := decisionCheck_eq (s.lane n) r.arg3
  exact ⟨fun a => ha.unchanged hi (h.failing n hn hw _ (h0 a)), fun a b => ha.unchanged hi (h.failing n hn hw _ (h1 a b)),
    fun a b c => ha.unchanged hi (h.failing n hn hw _ (h2 a b c))⟩

/-- Settles O15: both commands pass the same checks, as they come and after a wait, and then decide by the Pending
Sequence. -/
theorem proceedAndCancelDecide : Obligations.ProceedAndCancelDecide := by
  refine ⟨fun s g hr => ?comes, fun s k r n hw hcode => ?waited⟩
  case comes =>
    intro r check
    refine ⟨fun hcode => ?proceed, fun hcode => ?cancel⟩
    case proceed =>
      have ha : s.Asks g .proceed := hr.asks (by rw [hcode]; rfl) rfl
      have hi : CommandCode.proceed.Row g (.proceed g) := fun _ => rfl
      refine ⟨checks_answers ha hi (commandProceed_checks _ _ _), fun n hn hap h0 hv hd => ?_⟩
      have hc := (decisionCheck_eq (s.lane n) r.arg3).2.2.2 h0 hv hd
      refine ⟨fun hp => ha.goesOn hi ?_, fun hp => ha.answers hi rfl rfl rfl ?_⟩
      · exact (commandProceed_first (s := s.taken g) hn hap hc hp).trans (appends_taken _ _ _)
      · exact commandProceed_reissue (s := s.taken g) hn hap hc hp
    case cancel =>
      have ha : s.Asks g .cancel := hr.asks (by rw [hcode]; rfl) rfl
      have hi : CommandCode.cancel.Row g (.cancel g) := fun _ => rfl
      refine ⟨checks_answers ha hi (commandCancel_checks _ _ _), fun n hn hap h0 hv hd => ?_⟩
      have hc := (decisionCheck_eq (s.lane n) r.arg3).2.2.2 h0 hv hd
      have hrule : s.handled g .cancel = _ := commandCancel_withdraws (s := s.taken g) (k := g.slot) hn hap hc
      refine ⟨fun hp => ha.goesOn hi ?_, fun q hp => ha.goesOn hi ?_⟩
      · exact hrule.trans ((withdraw_first (s := s.taken g) hp _ _ _).trans (appends_taken _ _ _))
      · exact hrule.trans ((withdraw_reissue (s := s.taken g) hp _ _ _).trans (appends_taken _ _ _))
  case waited =>
    intro t
    obtain ⟨hproceed, hcancel, -⟩ := laneCommand_eq hw
    obtain ⟨f, hf, ht⟩ : ∃ f : Handler, f.Checks s k r ∧ t = f s k r := by
      rcases hcode with h | h
      · exact ⟨_, commandProceed_checks s k r, hproceed h⟩
      · exact ⟨_, commandCancel_checks s k r, hcancel h⟩
    have hn := hw.target
    obtain ⟨h0, h1, h2, h3⟩ := decisionCheck_eq (s.lane n) r.arg3
    have hends (hap : (s.lane n).appending = false) {outcome : CommandOutcome}
        (h : (s.lane n).decisionCheck r.arg3.toNat = some outcome) : s.Ends k outcome .none s t := by
      rw [ht, hf.failing n hn hap _ h]
      exact complete_ends rfl _ _
    refine ⟨fun hap => ht.trans (hf.waits n hn hap), fun hap => ⟨fun a => hends hap (h0 a), fun a b => hends hap (h1 a b),
      fun a b c => hends hap (h2 a b c), fun a b c => ?_⟩⟩
    have hc := h3 a b c
    refine ⟨fun h hp => ?_, fun h hp => ?_, fun h hp => ?_, fun q h hp => ?_⟩
    · exact (hproceed h).trans (commandProceed_first hn hap hc hp)
    · rw [show t = _ from (hproceed h).trans (commandProceed_reissue hn hap hc hp)]
      exact complete_ends (u := s.enterReleased n) rfl _ _
    · exact (hcancel h).trans ((commandCancel_withdraws hn hap hc).trans (withdraw_first hp _ _ _))
    · exact (hcancel h).trans ((commandCancel_withdraws hn hap hc).trans (withdraw_reissue hp _ _ _))

/-! #### LANE_RESET -/

/-- The run of lane `n` has been handed over, or its REFUSAL entry is being appended (R27, R98). -/
def State.HandedOn (s : State) (n : Lane) : Prop :=
  (∃ j ∈ s.status.records, j.lane = n ∧ (j.next = .decided ∨ j.next = .idle))
    ∨ ∃ q, s.screening.run = some q ∧ q.lane = n ∧ q.stage = .refusing

theorem handedOn_iff : s.HandedOn n ↔ (s.handedOver n || s.refusing n) = true := by
  simp [State.HandedOn, State.handedOver, State.refusing, Option.any_eq_true]

/-- A LANE_RESET that names no lane (R98). -/
theorem commandLaneReset_nowhere (h : ∀ n, ¬s.Names r.target n) : s.commandLaneReset k r = s.complete k .badArgument := by
  rw [State.commandLaneReset, namedLane_of_not_names h]

/-- A LANE_RESET waits for a lane that is appending or comparing, or whose verdict is being handed on (R80, R92, R98). -/
theorem commandLaneReset_waits (hn : s.Names r.target n)
    (h : (s.lane n).appending = true ∨ (s.lane n).comparing = true ∨ s.HandedOn n) :
    s.commandLaneReset k r = s.waitForLane n k := by
  rw [State.commandLaneReset, namedLane_of_names hn]
  refine if_pos ?_
  rw [handedOn_iff] at h
  simpa [or_assoc] using h

/-- What a LANE_RESET does to a lane that it need not wait for (R98). -/
def State.resetLane (s : State) (n : Lane) (k : SlotId) : State :=
  match (s.lane n).state with
  | .idle => s.complete k .done .idle
  | .screening =>
    if (s.lane n).resetRequested then s.complete k .busy
    else { s with lanes := s.lanes.set n { s.lane n with resetRequested := true, resetSlot := some k } }
  | .decided => s.withdraw n .cancelledReset .notChargedReset (some k)
  | .released | .recovery => s.appends n (s.entryOf n .uncertainReset true (s.lane n).pendingSeq) (.toIdle n (some k))

theorem commandLaneReset_acts (hn : s.Names r.target n) (ha : (s.lane n).appending = false)
    (hc : (s.lane n).comparing = false) (hh : ¬s.HandedOn n) : s.commandLaneReset k r = s.resetLane n k := by
  rw [State.commandLaneReset, namedLane_of_names hn]
  rw [handedOn_iff] at hh
  exact if_neg (by simpa [ha, hc] using hh)

/-- Settles O16: by the wait, and then by the lane's state. -/
theorem laneResetActsByState : Obligations.LaneResetActsByState := by
  refine ⟨fun s g hr hcode => ?comes, fun s k r n hw hcode => ?waited⟩
  case comes =>
    intro r handed appends
    have ha : s.Asks g .laneReset := hr.asks (by rw [hcode]; rfl) rfl
    have hi : CommandCode.laneReset.Row g (.laneReset g) := fun _ => rfl
    refine ⟨fun hn => ha.unchanged hi (commandLaneReset_nowhere (s := s.taken g) hn), fun n hn => ⟨fun h => ?_,
      fun hap hcm hh => ?_⟩⟩
    · exact ha.goesOn hi (commandLaneReset_waits (s := s.taken g) hn h)
    · have hrule : s.handled g .laneReset = (s.taken g).resetLane n g.slot :=
        commandLaneReset_acts (s := s.taken g) hn hap hcm hh
      have hlane : (s.taken g).lane n = s.lane n := rfl
      rw [State.resetLane, hlane] at hrule
      refine ⟨fun hs => ha.unchanged hi ?_, fun hs hq => ha.unchanged hi ?_, fun hs hq => ha.goesOn hi ?_,
        fun hs hp => ha.goesOn hi ?_, fun q hs hp => ha.goesOn hi ?_, fun hs => ha.goesOn hi ?_⟩
      · rw [hrule, hs]
      · rw [hrule, hs]
        exact if_pos hq
      · rw [hrule, hs]
        exact if_neg (by simp [hq])
      · rw [hrule, hs]
        exact (withdraw_first (s := s.taken g) hp _ _ _).trans (appends_taken _ _ _)
      · rw [hrule, hs]
        exact (withdraw_reissue (s := s.taken g) hp _ _ _).trans (appends_taken _ _ _)
      · rcases hs with hs | hs <;> rw [hrule, hs] <;> exact appends_taken _ _ _
  case waited =>
    intro t handed
    have ht : t = s.commandLaneReset k r := (laneCommand_eq hw).2.2 hcode
    have hn := hw.target
    refine ⟨fun h => ht.trans (commandLaneReset_waits hn h), fun hap hcm hh => ?_⟩
    have hrule : t = s.resetLane n k := ht.trans (commandLaneReset_acts hn hap hcm hh)
    rw [State.resetLane] at hrule
    refine ⟨fun hs => ?_, fun hs hq => ?_, fun hs hq => ?_, fun hs hp => ?_, fun q hs hp => ?_, fun hs => ?_⟩
    · rw [hrule, hs]
      exact complete_ends rfl _ _
    · rw [hrule, hs]
      dsimp only
      rw [if_pos hq]
      exact complete_ends rfl _ _
    · rw [hrule, hs]
      exact if_neg (by simp [hq])
    · rw [hrule, hs]
      exact withdraw_first hp _ _ _
    · rw [hrule, hs]
      exact withdraw_reissue hp _ _ _
    · rcases hs with hs | hs <;> rw [hrule, hs]

end

end Sys2Proof.Machine

/-! ### Timers, the EMERGENCY input, reset and the entry to READY (R15, R86, R90, R97, R130, R132, R136 to R138, R185, R190) -/

namespace Sys2Proof.Machine

section
variable {s t u : State} {n : Lane} {i : Instr}

/-! #### The timers of a lane and of a gate -/

theorem yields_of_eq (h : exec i s = .next (s.settle t)) (hu : t = u) : s.Yields i u := yields_of_settle (hu ▸ h)

/-- Settles O44: each timer where it runs unheld, and where it does not. -/
theorem laneTimersExpire : Obligations.LaneTimersExpire := by
  intro s n l hold write window
  have hdecision : exec (.decisionHoldExpiry n) s = .next (s.settle (s.decisionExpiry n)) := rfl
  have hwrite : exec (.writeTimeoutExpiry n) s = .next (s.settle (s.writeExpiry n)) := rfl
  have hwindow : exec (.recoveryWindowExpiry n) s = .next (s.settle (s.windowExpiry n)) := rfl
  have hruns (h : hold) : s.decisionExpiry n = s.withdraw n .expired .notChargedExpired none := if_pos h
  exact ⟨fun h hp => yields_of_eq hdecision ((hruns h).trans (withdraw_first hp _ _ _)),
    fun q h hp => yields_of_eq hdecision ((hruns h).trans (withdraw_reissue hp _ _ _)),
    fun h => yields_of_eq hdecision (if_neg h), fun h => yields_of_eq hwrite (if_pos h),
    fun h => yields_of_eq hwrite (if_neg h), fun h => yields_of_eq hwindow (if_pos h),
    fun h => yields_of_eq hwindow (if_neg h)⟩

/-- Settles O52: each timer where it runs, the head timer by the Beam State. -/
theorem gateTimersExpire : Obligations.GateTimersExpire := by
  intro s n
  dsimp only
  simp only [← onCredits_decide]
  have hhead : exec (.headTimerExpiry n) s = .next (s.settle (s.headExpiry n)) := rfl
  have halarm : exec (.alarmHoldExpiry n) s =
      .next (s.settle (if (s.gate n).alarmTimer then s.setGate n (s.gate n).onCredits else s)) := rfl
  refine ⟨fun h => yields_of_eq hhead (if_neg (by simp [h])),
    fun h hb => yields_of_eq hhead ((if_pos h).trans (if_neg hb)), fun c rest h hb hc => yields_of_eq hhead ?_,
    fun h => yields_of_eq halarm (if_pos h), fun h => yields_of_eq halarm (if_neg (by simp [h]))⟩
  · have hlapse := lapse_setGate (s := s) (n := n) hc
    have hsame : s.setGate n (s.gate n) = s := by
      simp only [State.setGate, State.gate, Quad.set_get]
    rw [hsame] at hlapse
    refine (if_pos h).trans ((if_pos hb).trans (hlapse.trans ?_))
    rw [onCredits_decide]
    rfl

/-! #### The EMERGENCY input -/

/-- The gates that the input reaches from SCANNING on are the present ones (R138). -/
theorem moveGates_present (h : s.unit = .scanning ∨ s.unit = .ready) (f : Gate → Gate) :
    let move (n : Lane) : Gate := if s.present n = true then f (s.gate n) else s.gate n
    s.moveGates f = { s with gates := ⟨move 0, move 1, move 2, move 3⟩ } := by
  unfold State.moveGates
  rcases h with h | h <;> rw [h]

/-- Before SCANNING the input reaches every gate (R138). -/
theorem moveGates_every (h : s.unit = .inReset ∨ s.unit = .loading ∨ s.unit = .faulted) (f : Gate → Gate) :
    s.moveGates f = { s with gates := ⟨f (s.gate 0), f (s.gate 1), f (s.gate 2), f (s.gate 3)⟩ } := by
  unfold State.moveGates
  rcases h with h | h | h <;> rw [h]

theorem emergencyInput_same (level : Bool) (h : s.emergency = level) : s.emergencyInput level = s := if_pos h

/-- A row that requests an entry and sets a notice (R109, R181). -/
theorem requested_notified {r : JournalRequest} {m : Notice} (hu : u.status = s.status)
    (h : exec i s = .next (s.settle ((u.request r).notify m))) :
    ∃ t, exec i s = .next t ∧ s.Notified t [m]
      ∧ ({ u.request r with status := { s.status with notices := t.status.notices } }).Mirrored t :=
  notified_of_settle h (by rw [request_frame]; exact hu)

/-- Settles O53: by the level the input has, the unit state and the lanes present. -/
theorem emergencyMovesGates : Obligations.EmergencyMovesGates := by
  intro s untimed onCredits entry present each byInput
  have hassert : exec .emergencyAssert s = .next (s.settle (s.emergencyInput true)) := rfl
  have hdeassert : exec .emergencyDeassert s = .next (s.settle (s.emergencyInput false)) := rfl
  have hinput (level : Bool) :
      exec (.emergencyInputBeforeReady level) s = .next (s.settle (s.emergencyInput level)) := rfl
  have hcredits : Gate.onCredits = onCredits := funext onCredits_decide
  refine ⟨fun h => ⟨yields_of_settle ?_, yields_of_settle ?_⟩, fun h => ⟨yields_of_settle ?_, yields_of_settle ?_⟩,
    fun h hr => requested_notified rfl ?_, fun h hr => requested_notified rfl ?_, fun level hne => ?_⟩
  · rw [hassert, emergencyInput_same _ h]
  · rw [hinput, emergencyInput_same _ h]
  · rw [hdeassert, emergencyInput_same _ h]
  · rw [hinput, emergencyInput_same _ h]
  · rw [hassert, State.emergencyInput, if_neg (by simp [h]), hr]
    dsimp only
    rw [if_pos rfl, moveGates_present (s := { s with emergency := true }) (.inr hr)]
    rfl
  · rw [hdeassert, State.emergencyInput, if_neg (by simp [h]), hr]
    dsimp only
    rw [if_neg (by simp), moveGates_present (s := { s with emergency := false }) (.inr hr), hcredits]
    rfl
  · have hmoves (hu : s.unit = .loading ∨ s.unit = .faulted ∨ s.unit = .scanning) :
        s.emergencyInput level = ({ s with emergency := level }).gatesByInput := by
      rw [State.emergencyInput, if_neg hne]
      rcases hu with hu | hu | hu <;> rw [hu]
    refine ⟨fun hu => yields_of_settle ?_, fun hu => yields_of_settle ?_, fun hu => yields_of_settle ?_⟩
    · rw [hinput, State.emergencyInput, if_neg hne, hu]
    · rw [hinput, hmoves (hu.imp_right .inl), State.gatesByInput,
        moveGates_every (s := { s with emergency := level }) (.inr hu)]
      rfl
    · rw [hinput, hmoves (.inr (.inr hu)), State.gatesByInput,
        moveGates_present (s := { s with emergency := level }) (.inl hu)]
      rfl

/-! #### GRANT_HOLD_EXPIRY -/

theorem landingOpen_iff :
    s.landingOpen n = true ↔
      (s.lane n).state = .idle ∨ ((s.lane n).state = .recovery ∧ (s.lane n).comparing = false ∧ (s.lane n).appending = false) := by
  simp [State.landingOpen, and_assoc]

/-- A fault that is reported outside FAULTED (R172). -/
theorem reportFault_reported (h : s.unit ≠ .faulted) (kind : PathFault) (source : FaultSource) (a : Option Nat)
    (d : Option AccessDirection) (m : Option Mode) : s.reportFault kind source a d m = s.faulted kind source a d m := by
  rw [reportFault_eq kind source a d m h]
  rfl

/-- Settles O31: by whether the timer runs for the owner's raised request, and whether its landing area is open. -/
theorem grantHoldExpiryWithdraws : Obligations.GrantHoldExpiryWithdraws := by
  refine ⟨fun s h => yields_of_settle ?_, fun s n hr ho ht hq he => ?_⟩
  · cases ho : s.reader.owner with
    | none => simp [exec, execGrantHoldExpiry, ho]
    | some n =>
      rcases h with h | h | h
      · simp [exec, execGrantHoldExpiry, ho, h]
      · simp [exec, execGrantHoldExpiry, ho, h]
      · simp [exec, execGrantHoldExpiry, ho, h n ho]
  · have hexec : exec .grantHoldExpiry s = .next (s.settle (s.withdrawGrant n)) := by
      simp [exec, execGrantHoldExpiry, ho, ht, hq, he]
    set lanes := if s.landingOpen n then s.lanes.set n { s.lane n with mask := 0 } else s.lanes with hlanes
    set port : ReaderPort := ReaderPort.ended
      { s.reader with
        words := if s.reader.taken = true then s.reader.words.take 1 else []
        signals := s.reader.signals ++ [.withdrawn n], barred := s.reader.barred.set n true } s.cfg.present with hport
    have hw : s.withdrawGrant n =
        { s.faulted .grantHold (.reader n) none none none with lanes := lanes, reader := port } := by
      unfold State.withdrawGrant
      dsimp only
      rw [reportFault_reported (by show s.unit ≠ .faulted; simp [hr])]
      rw [hlanes]
      have hopen (w : List ReaderWord) (k : PathFault) :
          ((({ s with reader := { s.reader with words := w } }).signal (.withdrawn n)).faulted k (.reader n) none none
            none).landingOpen n = s.landingOpen n := rfl
      rw [hopen]
      by_cases ho : s.landingOpen n = true
      · rw [if_pos ho, if_pos ho]
        exact (endGrant_ready (by exact hr)).trans rfl
      · rw [if_neg ho, if_neg ho]
        exact (endGrant_ready (by exact hr)).trans rfl
    rw [hw] at hexec
    have hm := settle_mirrored s { s.faulted .grantHold (.reader n) none none none with lanes := lanes, reader := port }
    refine ⟨_, hexec, ?_, hm.reader, fun h => ?_, fun h => ?_⟩
    · rw [hm.lanes, hm.reader]
      exact hm
    · exact hm.lanes.trans (if_pos (landingOpen_iff.2 h))
    · exact hm.lanes.trans (if_neg fun h' => h (landingOpen_iff.1 h'))

end

end Sys2Proof.Machine

/-! ### The frames of the line and the messages they bring (R36, R141, R144 to R148, R152 to R158) -/

namespace Sys2Proof.Machine

section
variable {s t u : State} {i : Instr} {l : Line} {x : Serial}

/-! #### FRAME_COMPLETE, COLLISION, SILENCE_TIMER_EXPIRY and RESYNC_END -/

/-- A unit that was absent and is present now moves the set of present units (R155). -/
theorem presenceMoves_set {p : Vector Presence 16} {x : UnitId} {y : Presence} (h : p[x].present ≠ y.present) :
    presenceMoves p (p.set x.val y) = true := by
  refine decide_eq_true fun hp => h ?_
  have hx := congrArg (fun v : Vector Bool 16 => v[x]) hp
  simpa using hx

/-- The frame of the next own slot, of a controller that is JOINED (R145). -/
theorem ownSlot_joined (h : s.line.membership = .joined) :
    s.ownSlot = s.setLine (s.line.abandonFrame.formFrame s.cfg.unitId) := by
  have h' : s.line.abandonFrame.membership = .joined := h
  simp only [State.ownSlot, h']

/-- The queue and the frame of a JOINED controller's own slot: at most four messages from the head, in flight (R145). -/
theorem formFrame_abandoned (l : Line) (u : UnitId) :
    l.abandonFrame.formFrame u =
      { l with
        sending := some
          { cycle := l.cycle, looped := []
            bytes := frameBytes u l.cycle ((l.queue.take 4).map (fun m => m.message.bytes u)) }
        queue := (l.queue.take 4).map (fun m : QueuedMessage => { m with inFlight := true })
          ++ (l.queue.drop 4).map (fun m : QueuedMessage => { m with inFlight := false }) } := by
  simp [Line.formFrame, Line.abandonFrame, List.map_take, List.map_drop, Function.comp_def]

/-- Settles O55: each event by whether a frame is on the line, a timer runs, or the cycles have passed. -/
theorem framesAndLineTimersEnd : Obligations.FramesAndLineTimersEnd := by
  refine ⟨fun s => ⟨fun hs => ⟨?_, ?_⟩, fun f hs => ⟨?complete, fun hl => ?_, fun hl => ?collision⟩⟩,
    fun s => ⟨fun ht => ?_, fun ht hm => ?silence, fun h => ?_, fun hm hc hs => ?resync⟩⟩
  · exact yields_of_eq (t := s.frameComplete) rfl (by rw [State.frameComplete, hs])
  · exact yields_of_eq (t := s.collide) rfl (by rw [State.collide, hs])
  case complete =>
    have heq : s.frameComplete = s.relined
        { s.line with
          sending := none, queue := s.line.queue.filter (fun m => !m.inFlight)
          inbox := s.line.inbox ++ f.looped.map (fun m => (s.cfg.unitId, m))
          presence := s.line.presence.set s.cfg.unitId.val ⟨some f.cycle, 0⟩ }
        (presenceMoves s.line.presence (s.line.presence.set s.cfg.unitId.val ⟨some f.cycle, 0⟩)) := by
      rw [State.frameComplete, hs]
      dsimp only
      rw [refreshPresence_eq, setLine_eq, relined_relined, Bool.false_or]
      rfl
    obtain ⟨t, hexec, hm, -, -, hn⟩ := relined_of_eq (i := .frameComplete) rfl heq
    refine ⟨t, hexec, hm, fun h => ?_⟩
    rw [hn, presenceMoves_set (by simp [Presence.present]; omega), relined_noticed_line]
  · refine yields_of_eq (t := s.collide) rfl ?_
    rw [State.collide, hs]
    exact if_neg hl
  case collision =>
    have heq : s.collide = s.enterResync := by
      rw [State.collide, hs]
      exact if_pos hl
    obtain ⟨t, hexec, hm, -, -, hn⟩ := relined_of_eq (i := .collision) rfl (heq.trans (enterResync_eq s))
    refine ⟨t, hexec, hm, fun h => ?_⟩
    rw [hn, decide_eq_true h, relined_noticed_line]
  · exact yields_of_eq (t := s.silenceExpiry) rfl (if_neg (by simp [ht]))
  case silence =>
    have heq : s.silenceExpiry = s.relined
        { s.line with
          membership := .joined, slot := s.cfg.unitId, cycle := 0, aligned := true, silenceTimer := false
          sending := some
            { cycle := 0, looped := []
              bytes := frameBytes s.cfg.unitId 0 ((s.line.queue.take 4).map (fun m => m.message.bytes s.cfg.unitId)) }
          queue := (s.line.queue.take 4).map (fun m : QueuedMessage => { m with inFlight := true })
            ++ (s.line.queue.drop 4).map (fun m : QueuedMessage => { m with inFlight := false }) } true := by
      rw [State.silenceExpiry, if_pos ht, setLine_eq, enterMembership_eq, relined_relined, relined_line,
        ownSlot_joined (by rfl), setLine_eq, relined_relined, formFrame_abandoned]
      simp [hm]
      rfl
    obtain ⟨t, hexec, hm, hl, hn, -⟩ := relined_of_eq (i := .silenceTimerExpiry) rfl heq
    refine ⟨t, hexec, ?_, hn rfl, by rw [hl], by rw [hl]⟩
    rw [hl]
    exact hm
  · exact yields_of_eq (t := if s.line.membership = .resync ∧ s.cfg.unitId.val + 1 ≤ s.line.cycles then s.enterListen else s)
      rfl (if_neg h)
  case resync =>
    have heq : (if s.line.membership = .resync ∧ s.cfg.unitId.val + 1 ≤ s.line.cycles then s.enterListen else s) =
        s.enterListen := if_pos ⟨hm, hc⟩
    obtain ⟨t, hexec, hmir, -, hn, -⟩ := relined_of_eq (i := .resyncEnd) rfl (heq.trans (enterListen_eq s))
    refine ⟨t, hexec, ?_, hn (by simp [hm])⟩
    simpa [Line.abandonFrame, hs] using hmir

/-! #### FRAME_RECEIVED -/

theorem hears_iff :
    s.line.hears = true ↔ s.line.membership ≠ .silent ∧ (s.line.membership = .check → s.line.mode = some .line) := by
  unfold Line.hears
  cases s.line.membership <;> simp

/-- The line after an aligned or a misaligned frame (R146). -/
def Line.judged (l : Line) (beganIn : UnitId) (f : ReceivedFrame) : Line :=
  if beganIn = f.sender then { l with misaligned := 0, slot := f.sender, cycle := f.cycle, aligned := true }
  else if 2 ≤ l.misaligned then
    { l.abandonFrame with
      aligned := false, joining := false, misaligned := 0, cycles := 0, mode := none, membership := .resync }
  else { l with misaligned := l.misaligned + 1 }

theorem judgeFrame_eq (s : State) (beganIn : UnitId) (f : ReceivedFrame) :
    ∃ c, s.judgeFrame beganIn f = s.relined (s.line.judged beganIn f) c := by
  unfold State.judgeFrame Line.judged
  by_cases hb : beganIn = f.sender
  · exact ⟨false, by rw [if_pos hb, if_pos hb]; rfl⟩
  · by_cases hm : 2 ≤ s.line.misaligned
    · rw [if_neg hb, if_neg hb, if_pos hm, if_pos (by omega)]
      exact ⟨_, enterResync_eq s⟩
    · refine ⟨false, ?_⟩
      rw [if_neg hb, if_neg hb, if_neg hm, if_neg (by omega)]
      rfl

/-- The line with a valid frame's sender heard and its messages in the inbox (R152, R155). -/
def Line.heard (l : Line) (f : ReceivedFrame) : Line :=
  { l with
    presence := l.presence.set f.sender.val ⟨some f.cycle, 0⟩
    inbox := l.inbox ++ f.messages.map (fun m => (f.sender, m)) }

/-- The line after a valid frame of another unit (R144, R146, R152, R155). -/
def Line.took (l : Line) (beganIn : UnitId) (f : ReceivedFrame) : Line :=
  match l.membership with
  | .listen =>
    { l.heard f with slot := f.sender, cycle := f.cycle, aligned := true, silenceTimer := false, joining := true }
  | .joined | .check => (l.heard f).judged beganIn f
  | .resync | .silent => l.heard f

theorem takeFrame_eq (s : State) (beganIn : UnitId) (f : ReceivedFrame) :
    ∃ c, s.takeFrame beganIn f = s.relined (s.line.took beganIn f) c := by
  obtain ⟨c, hc⟩ : ∃ c, (let t := s.refreshPresence f.sender f.cycle
      t.setLine { t.line with inbox := t.line.inbox ++ f.messages.map (fun m => (f.sender, m)) }) =
        s.relined (s.line.heard f) c := by
    simp only [refreshPresence_eq, setLine_eq, relined_relined, relined_line]
    exact ⟨_, rfl⟩
  have hmember : (s.relined (s.line.heard f) c).line.membership = s.line.membership := rfl
  obtain ⟨d, hd⟩ := judgeFrame_eq (s.relined (s.line.heard f) c) beganIn f
  unfold State.takeFrame Line.took
  dsimp only at hc ⊢
  rw [hc, hmember]
  cases hm : s.line.membership with
  | listen => exact ⟨c, by simp [State.relined, State.setLine, Line.heard, hm]⟩
  | joined | check => exact ⟨_, hd.trans relined_relined⟩
  | resync | silent => exact ⟨_, rfl⟩

/-- Settles O56: by whether the line is heard, whether the frame is valid, and its sender. -/
theorem framesAreTaken : Obligations.FramesAreTaken := by
  intro s beganIn bytes i hears
  have hexec : exec i s = .next (s.settle (s.frameReceived beganIn bytes)) := rfl
  rw [State.frameReceived] at hexec
  refine ⟨fun h => yields_of_eq hexec (if_neg fun hh => h (hears_iff.1 hh)), fun h hf => yields_of_eq hexec ?_,
    fun f h hf => ⟨fun ho => ?own, fun ho => ?other⟩⟩
  · rw [if_pos (hears_iff.2 h), hf]
    rfl
  case own =>
    rw [if_pos (hears_iff.2 h), hf] at hexec
    dsimp only at hexec
    rw [if_pos ho] at hexec
    have hm := settle_mirrored s (s.enterSilent.notify .duplicateId)
    refine ⟨_, hexec, ?_, ?_, ?_, ?_, ?_, ?_, ?_, ?_⟩
    · rw [hm.line, hm.notices]
      rw [enterSilent_eq] at hm ⊢
      exact hm
    · rw [hm.line, State.notify_line, enterSilent_eq]
      rfl
    · exact (congrArg (BitVec.getLsbD · Notice.duplicateId.bit) hm.notices).trans (State.noticed_notify _ _)
    all_goals
      rw [hm.line, State.notify_line, enterSilent_eq]
      rfl
  case other =>
    rw [if_pos (hears_iff.2 h), hf] at hexec
    dsimp only at hexec
    obtain ⟨c, hc⟩ := takeFrame_eq s beganIn f
    rw [if_neg ho, hc] at hexec
    obtain ⟨t, hexec, hm, hl, -, -⟩ := relined_of_settle hexec
    refine ⟨t, hexec, ?_, ?_⟩
    · rw [hl]
      exact hm
    · rw [hl]
      have hjudged (b : Line) : (b.judged beganIn f).presence = b.presence ∧ (b.judged beganIn f).inbox = b.inbox
          ∧ (b.judged beganIn f).framingErrors = b.framingErrors := by
        unfold Line.judged
        split_ifs <;> exact ⟨rfl, rfl, rfl⟩
      have hmis : (s.line.heard f).misaligned = s.line.misaligned := rfl
      unfold Line.took
      refine ⟨?_, ?_, ?_, fun hs => ?_, fun hs => ?_, fun hs => ⟨fun hb => ?_, fun hb hlt => ?_, fun hb hle => ?_⟩⟩
      · cases s.line.membership <;> simp only [hjudged] <;> rfl
      · cases s.line.membership <;> simp only [hjudged] <;> rfl
      · cases s.line.membership <;> simp only [hjudged] <;> rfl
      · rw [hs]
        exact ⟨hs, rfl, rfl, rfl, rfl, rfl⟩
      · rw [hs]
        exact ⟨hs, rfl, rfl⟩
      · rcases hs with hs | hs <;> simp only [hs, Line.judged, if_pos hb] <;> exact ⟨hs, trivial, trivial, trivial⟩
      · rcases hs with hs | hs <;> simp only [hs, Line.judged, if_neg hb, hmis, if_neg (Nat.not_le.2 hlt)] <;>
          exact ⟨hs, rfl, trivial⟩
      · rcases hs with hs | hs <;> simp only [hs, Line.judged, if_neg hb, hmis, if_pos hle] <;>
          exact ⟨trivial, trivial, trivial, trivial⟩

end

end Sys2Proof.Machine

/-! ### The Sightings Table and the messages of the line (R35, R36, R152 to R154, R158) -/

namespace Sys2Proof.Machine

section
variable {s t u : State} {i : Instr} {x : Serial} {e f v w : Sighting} {l : List Sighting} {now : ServiceTime}

/-! #### The Sightings Table -/

/-- The lookup of R35 finds the live entry of its Serial and changes nothing. -/
theorem lookSighting_of_live (h : s.sightings.find? (fun f => f.serial == x) = some e) (hl : s.Live e) :
    s.lookSighting x s.clock = (some e, s) := by
  cases hc : s.clock with
  | none => simp [State.lookSighting, h]
  | some now => exact lookSighting_live h (Nat.not_lt.2 (hl now hc))

/-- The lookup of R35 without a live entry finds none, and removes the one that is past the window. -/
theorem lookSighting_of_not_live (h : ∀ e, s.sightings.find? (fun f => f.serial == x) = some e → ¬s.Live e) :
    s.lookSighting x s.clock = (none, { s with sightings := s.lookedUp x }) := by
  unfold State.lookedUp
  cases hf : s.sightings.find? (fun f => f.serial == x) with
  | none => simp [State.lookSighting, hf]
  | some e =>
    have hdead := h e hf
    simp only [State.Live, not_forall] at hdead
    obtain ⟨now, hc, hold⟩ := hdead
    rw [hc, lookSighting_old hf (Nat.not_le.1 hold)]
    simp [Nat.not_le.1 hold, hc]

/-- A live entry stays in the table that a lookup leaves. -/
theorem lookedUp_of_live (h : s.sightings.find? (fun f => f.serial == x) = some e) (hl : s.Live e) :
    s.lookedUp x = s.sightings := by
  unfold State.lookedUp
  cases hc : s.clock with
  | none => rw [h]
  | some now =>
    rw [h]
    exact if_neg (Nat.not_lt.2 (hl now hc))

theorem lookedUp_of_unset (h : s.clock = none) : s.lookedUp x = s.sightings := by
  unfold State.lookedUp
  rw [h]
  cases s.sightings.find? (fun f => f.serial == x) <;> rfl

/-- The order of eviction is total (R36). -/
theorem goesBefore_of_not_evictedBefore (h : evictedBefore f e = false) : e.goesBefore f := by
  unfold evictedBefore at h
  unfold Sighting.goesBefore
  rcases Nat.lt_trichotomy e.time.absolute f.time.absolute with ht | ht | ht
  · exact .inl ht
  · refine .inr ⟨ht, ?_⟩
    cases he : e.origin <;> cases hf : f.origin <;> simp_all
  · rw [if_pos (by simp; omega)] at h
    simp [ht] at h

theorem goesBefore_of_evictedBefore (h : evictedBefore f e = true) : f.goesBefore e := by
  unfold evictedBefore at h
  unfold Sighting.goesBefore
  rcases Nat.lt_trichotomy f.time.absolute e.time.absolute with ht | ht | ht
  · exact .inl ht
  · refine .inr ⟨ht, ?_⟩
    cases he : e.origin <;> cases hf : f.origin <;> simp_all <;> omega
  · rw [if_pos (by simp; omega)] at h
    simp at h
    omega

theorem Sighting.goesBefore_refl (e : Sighting) : e.goesBefore e := .inr ⟨rfl, .inr ⟨rfl, le_rfl⟩⟩

theorem Sighting.goesBefore.trans (h : e.goesBefore f) (h' : f.goesBefore v) : e.goesBefore v := by
  unfold Sighting.goesBefore at *
  rcases h with h | ⟨h, ⟨a, b⟩ | ⟨a, b⟩⟩ <;> rcases h' with h' | ⟨h', ⟨a', b'⟩ | ⟨a', b'⟩⟩
  · exact .inl (by omega)
  · exact .inl (by omega)
  · exact .inl (by omega)
  · exact .inl (by omega)
  · exact absurd (b.symm.trans a') (by simp)
  · exact .inr ⟨h.trans h', .inl ⟨a, a' ▸ b⟩⟩
  · exact .inl (by omega)
  · exact .inr ⟨h.trans h', .inl ⟨a ▸ a', b'⟩⟩
  · exact .inr ⟨h.trans h', .inr ⟨a.trans a', b.trans b'⟩⟩

/-- The entry that a full table evicts goes before every other (R36). -/
theorem evicted_goesBefore (h : evicted l = some v) : ∀ f ∈ l, v.goesBefore f := by
  induction l generalizing v with
  | nil => exact nomatch h
  | cons e rest ih =>
    rw [evicted] at h
    cases hr : evicted rest with
    | none =>
      rw [hr] at h
      obtain rfl : e = v := Option.some.inj h
      have hempty : rest = [] := by
        cases rest with
        | nil => rfl
        | cons g rest =>
          rw [evicted] at hr
          cases hg : evicted rest with
          | none => simp [hg] at hr
          | some k =>
            rw [hg] at hr
            dsimp only at hr
            split_ifs at hr
      simp [hempty, Sighting.goesBefore_refl]
    | some w =>
      rw [hr] at h
      dsimp only at h
      have hw := ih hr
      split_ifs at h with hb
      · obtain rfl : w = v := Option.some.inj h
        exact fun f hf => (List.mem_cons.1 hf).elim (· ▸ goesBefore_of_evictedBefore hb) (hw f)
      · obtain rfl : e = v := Option.some.inj h
        have hew := goesBefore_of_not_evictedBefore (Bool.eq_false_iff.2 hb)
        exact fun f hf => (List.mem_cons.1 hf).elim (· ▸ Sighting.goesBefore_refl _) (fun hf => hew.trans (hw f hf))

theorem exists_evicted (h : l ≠ []) : ∃ v, evicted l = some v := by
  obtain ⟨e, rest, rfl⟩ := List.exists_cons_of_ne_nil h
  rw [evicted]
  cases evicted rest with
  | none => exact ⟨e, rfl⟩
  | some w =>
    dsimp only
    split_ifs
    exacts [⟨w, rfl⟩, ⟨e, rfl⟩]

/-- An entry that joins at the end of a table without one of its Serial is found there. -/
theorem find?_joined (h : ∀ f ∈ l, f.serial ≠ e.serial) :
    (l ++ [e]).find? (fun f => f.serial == e.serial) = some e := by
  rw [List.find?_append, List.find?_eq_none.2 (by simpa using h)]
  simp

/-- The set of R36, as the table's rule makes it. -/
theorem setSightingIn_set (l : List Sighting) (e : Sighting) : SightingSet l e (setSightingIn l e) := by
  unfold setSightingIn
  by_cases hin : ∃ f ∈ l, f.serial = e.serial
  · have hany : l.any (fun f => f.serial == e.serial) = true := by simpa using hin
    rw [if_pos hany]
    refine ⟨?_, fun _ => by simp, fun hno => ?_, fun hno => ?_⟩
    · rw [List.find?_map]
      have hsame : (fun f : Sighting => f.serial == e.serial) ∘ (fun f => if f.serial == e.serial then e else f) =
          fun f => f.serial == e.serial := by
        funext f
        by_cases hf : f.serial = e.serial <;> simp [hf]
      rw [hsame]
      obtain ⟨g, hg, hgs⟩ := hin
      obtain ⟨f, hf⟩ := Option.isSome_iff_exists.1
        (List.find?_isSome (p := fun f => f.serial == e.serial).2 ⟨g, hg, by simpa using hgs⟩)
      have hser := List.find?_some hf
      rw [hf]
      simp only [Option.map_some]
      exact congrArg some (if_pos hser)
    all_goals exact absurd hin (by simpa using hno)
  · have hno : ∀ f ∈ l, f.serial ≠ e.serial := by simpa using hin
    have hany : ¬l.any (fun f => f.serial == e.serial) = true := by simpa using hin
    rw [if_neg hany]
    by_cases hroom : l.length < 512
    · rw [if_pos (show l.length < Config.sightingsSize from hroom)]
      exact ⟨find?_joined hno, fun h => absurd h hin, fun _ _ => rfl, fun _ h => absurd h (Nat.not_le.2 hroom)⟩
    · rw [if_neg (show ¬l.length < Config.sightingsSize from hroom)]
      obtain ⟨v, hv⟩ := exists_evicted (l := l) (by rintro rfl; simp at hroom)
      rw [hv]
      exact ⟨find?_joined fun f hf => hno f (List.mem_of_mem_eraseP hf), fun h => absurd h hin,
        fun _ h => absurd h hroom, fun _ _ => ⟨v, evicted_mem hv, evicted_goesBefore hv, rfl⟩⟩

/-- No use of a card is set while the clock is UNSET (R36). -/
theorem setSighting_unset (h : s.clock = none) (x : Serial) (counter : Nat) (balance : Word) (u : UnitId)
    (origin : Origin) : s.setSighting x counter balance u origin = s := by
  simp [State.setSighting, h]

/-- A use of a card set in the table (R36). -/
theorem setSighting_set (h : s.clock = some now) (x : Serial) (counter : Nat) (balance : Word) (u : UnitId)
    (origin : Origin) :
    s.setSighting x counter balance u origin =
      { s with sightings := setSightingIn s.sightings ⟨x, counter, balance, u, now, origin⟩ } := by
  simp [State.setSighting, h]

/-- What a set leaves of the table after a lookup of its Serial (R35, R36): the frame, and the two cases of the clock. -/
theorem setSighting_lookedUp (x : Serial) (counter : Nat) (balance : Word) (u : UnitId) (origin : Origin) :
    ∃ table, ({ s with sightings := s.lookedUp x }).setSighting x counter balance u origin = { s with sightings := table }
      ∧ (∀ now, s.clock = some now → SightingSet (s.lookedUp x) ⟨x, counter, balance, u, now, origin⟩ table)
      ∧ (s.clock = none → table = s.sightings) := by
  by_cases hc : s.clock = none
  · exact ⟨s.lookedUp x, setSighting_unset (by exact hc) _ _ _ _ _, fun now h => by simp [hc] at h, fun _ => lookedUp_of_unset hc⟩
  · obtain ⟨now, hc⟩ := Option.ne_none_iff_exists'.1 hc
    refine ⟨_, setSighting_set (now := now) (by exact hc) _ _ _ _ _, fun now' h => ?_, fun h => by simp [hc] at h⟩
    obtain rfl : now = now' := Option.some.inj (hc.symm.trans h)
    exact setSightingIn_set _ _

/-! #### SIGHTING_MESSAGE -/

/-- The inbox without its first message. -/
theorem popInbox_eq {m : UnitId × ReceivedMessage} {rest : List (UnitId × ReceivedMessage)}
    (h : s.line.inbox = m :: rest) : s.popInbox = { s with line := { s.line with inbox := rest } } := by
  rw [State.popInbox, h]
  rfl

/-- The request for the CLONE entry of a conflicting message (R153). -/
def State.cloneEntry (s : State) (x : Serial) (counter : Nat) (balance : Word) (u : UnitId) (e : Sighting) :
    JournalRequest :=
  .append { lane := none, time := s.clock, flags := FareFlags.none, degraded := false
            body := .clone x counter balance u e.unitId (decide (e.unitId ≠ u)) (decide (e.balance ≠ balance))
            reserved := none } .nothing

theorem sightingConflict_eq (s : State) (x : Serial) (counter : Nat) (balance : Word) (u : UnitId) (e : Sighting) :
    s.sightingConflict x counter balance u e = ((s.request (s.cloneEntry x counter balance u e)).addOwnDeny x .clone).2 := by
  have hu : (e.unitId != u) = decide (e.unitId ≠ u) := by rw [Bool.eq_iff_iff]; simp
  have hb : (e.balance != balance) = decide (e.balance ≠ balance) := by rw [Bool.eq_iff_iff]; simp
  simp only [State.sightingConflict, hu, hb]
  rfl

/-- What an add of this unit's own leaves, as the state after it shows it (R31, R32). -/
theorem addOwnDeny_mirrored {reason : DenyReason} (hm : (s.addOwnDeny x reason).2.Mirrored t) :
    ({ s with
        denyList := t.denyList, journal := t.journal
        line := { s.line with queue := t.line.queue, dropped := t.line.dropped }
        status := { s.status with notices := t.status.notices } }).Mirrored t := by
  have hframe := addOwnDeny_frame s x reason
  generalize (s.addOwnDeny x reason).2 = a at hm hframe
  rw [hm.denyList, hm.journal, hm.line, hm.notices]
  rw [hframe] at hm
  exact hm

/-- Settles O57: by whether the message is heard and names a card, and by the live entry of its Serial. -/
theorem sightingMessageIsApplied : Obligations.SightingMessageIsApplied := by
  intro s sender u x counter balance rest hin i hears taken found
  have hpop : s.popInbox = taken := popInbox_eq hin
  have hexec : exec i s = .next (s.settle (if s.line.hears then taken.applySighting x counter balance u else taken)) := by
    show Host.Outcome.next (s.settle s.sightingMessage) = _
    rw [State.sightingMessage, hin]
    dsimp only
    rw [hpop]
    rfl
  refine ⟨fun h => yields_of_eq hexec ?ignored, fun h hx => ?applied⟩
  case ignored =>
    by_cases hh : s.line.hears = true
    · rw [if_pos hh]
      exact if_pos (h.resolve_left fun hn => hn (hears_iff.1 hh))
    · rw [if_neg hh]
  case applied =>
    rw [if_pos (hears_iff.2 h), State.applySighting, if_neg hx] at hexec
    have hclock : taken.clock = s.clock := rfl
    refine ⟨fun hlow => ?set, fun e hfound hlive => ⟨fun hkeep => ?keeps, fun heq hdiff => ?conflict⟩⟩
    case set =>
      obtain ⟨table, htable, hset, hunset⟩ := setSighting_lookedUp (s := taken) x counter balance u .neighbor
      have hresult : exec i s = .next (s.settle { taken with sightings := table }) := by
        rw [hexec, ← htable]
        by_cases hl : ∃ e, found e ∧ s.Live e
        · obtain ⟨e, hf, hl⟩ := hl
          rw [lookSighting_of_live (s := taken) hf hl]
          dsimp only
          rw [if_pos (hlow e hf hl), lookedUp_of_live (s := taken) hf hl]
        · rw [lookSighting_of_not_live (s := taken) fun e hf hl' => hl ⟨e, hf, hl'⟩]
      have hm := settle_mirrored s { taken with sightings := table }
      have hsight : (s.settle { taken with sightings := table }).sightings = table := by rw [hm]
      refine ⟨_, hresult, ?_, ?_, ?_⟩
      · rw [hsight]
        exact hm
      · rw [hsight]
        exact hset
      · rw [hsight]
        exact hunset
    case keeps =>
      refine yields_of_eq hexec ?_
      rw [lookSighting_of_live (s := taken) hfound hlive]
      dsimp only
      rcases hkeep with hlt | ⟨heq, hu, hb⟩
      · rw [if_neg (by omega), if_neg (by omega)]
      · rw [if_neg (by omega), if_neg (by simp [hu, hb])]
    case conflict =>
      rw [lookSighting_of_live (s := taken) hfound hlive] at hexec
      dsimp only at hexec
      rw [if_neg (by omega), if_pos ⟨heq.symm, hdiff⟩, sightingConflict_eq] at hexec
      set entry := s.cloneEntry x counter balance u e
      have hentry : taken.cloneEntry x counter balance u e = entry := rfl
      have hjournal : (taken.request entry).journal = (s.request entry).journal := request_congr rfl rfl
      rw [hentry] at hexec
      obtain ⟨t, ht, hm⟩ : ∃ t, exec i s = .next t ∧ ((taken.request entry).addOwnDeny x .clone).2.Mirrored t :=
        ⟨_, hexec, settle_mirrored _ _⟩
      refine ⟨t, ht, ?_, fun hin => ?_, fun hout => ?_⟩
      · have hmir := addOwnDeny_mirrored hm
        rw [request_frame] at hmir
        exact hmir
      · rw [hm.denyList, hm.journal, hm.line, hm.notices,
          addOwnDeny_of_denied (s := taken.request entry) (by rw [request_frame]; exact hin), hjournal, request_frame]
        exact ⟨rfl, rfl, rfl, rfl⟩
      · have hadded := addOwnDeny_of_absent (s := taken.request entry) (x := x) (by rw [request_frame]; exact hout) .clone
        rw [hadded] at hm
        have hfull : (((taken.request entry).request ((taken.request entry).denyEntry x .own .clone 0)).journal) =
            ((s.request entry).request (s.denyEntry x .own .clone 0)).journal := by
          have he : (taken.request entry).denyEntry x .own .clone 0 = s.denyEntry x .own .clone 0 := by
            rw [request_frame]
            rfl
          rw [he]
          exact request_congr hjournal (by rw [request_frame, request_frame (s := s)])
        rw [hm.denyList, hm.journal, hm.line, State.Notified, hm.notices]
        refine ⟨?_, ?_, hfull, ?_⟩
        · rw [State.denyAdded, request_frame]
          rfl
        · rw [request_frame]
          rfl
        · rw [request_frame]

/-! #### DENY_MESSAGE and CHECK_MESSAGE -/

theorem appliesCheck_iff {sender : UnitId} :
    s.appliesCheck sender = true ↔ s.line.membership = .joined
      ∨ (s.line.membership = .check ∧ (s.line.mode = some .line ∨ sender = s.cfg.unitId)) := by
  unfold State.appliesCheck
  cases s.line.membership <;> simp

/-- Two patterns that agree have no first difference (R158). -/
theorem firstDifference_self (p : Vector Byte 8) : firstDifference p p = none := by
  have hnone : (List.range 8).find? (fun i => p.toList.getD i 0 != p.toList.getD i 0) = none := by
    simp [List.find?_eq_none]
  rw [firstDifference, hnone]

/-- The first difference of two patterns (R158). -/
theorem firstDifference_eq {p q : Vector Byte 8} (k : Fin 8) (hk : q[k] ≠ p[k]) (h : ∀ m : Fin 8, m < k → q[m] = p[m]) :
    firstDifference p q = some (k.val, p[k], q[k]) := by
  have hget (v : Vector Byte 8) (j : Fin 8) : v.toList.getD j.val 0 = v[j] := by
    rw [List.getD_eq_getElem _ _ (by simp)]
    simp
  have hfind : (List.range 8).find? (fun i => p.toList.getD i 0 != q.toList.getD i 0) = some k.val := by
    rw [List.find?_range_eq_some]
    refine ⟨?_, by simp, fun j hj => ?_⟩
    · rw [hget p k, hget q k]
      simpa using fun e => hk e.symm
    · have hj8 : j < 8 := by omega
      have := hget p ⟨j, hj8⟩
      have := hget q ⟨j, hj8⟩
      have := h ⟨j, hj8⟩ hj
      simp_all
  rw [firstDifference, hfind]
  simp only [hget]

/-- A CHECK message compared with the pattern that was sent (R158). -/
theorem compare_eq_same (e : CheckResult) (j : Nat) : e.compare j (patternOf j) = { e with checked := min 65535 (e.checked + 1) } := by
  rw [CheckResult.compare, firstDifference_self]
  rfl

theorem compare_eq_differs (e : CheckResult) {j : Nat} {received : Vector Byte 8} (k : Fin 8)
    (hk : received[k] ≠ (patternOf j)[k]) (h : ∀ m : Fin 8, m < k → received[m] = (patternOf j)[m]) :
    e.compare j received = { e with
      checked := min 65535 (e.checked + 1), mismatches := min 255 (e.mismatches + 1)
      first := some (e.first.getD ⟨j, k.val, (patternOf j)[k], received[k]⟩) } := by
  rw [CheckResult.compare, firstDifference_eq k hk h]
  rfl

/-- Settles O58: the DENY by the Local Deny List, the CHECK message by its Index against the entry's last. -/
theorem denyAndCheckMessagesAreApplied : Obligations.DenyAndCheckMessagesAreApplied := by
  refine ⟨fun s sender origin x reason rest hin => ?deny, fun s sender j received rest hin => ?check⟩
  case deny =>
    intro hears taken
    have hpop : s.popInbox = taken := popInbox_eq hin
    have hexec : exec .denyMessage s =
        .next (s.settle (if s.line.hears then taken.applyDeny x reason origin else taken)) := by
      show Host.Outcome.next (s.settle s.denyMessage) = _
      rw [State.denyMessage, hin]
      dsimp only
      rw [hpop]
      rfl
    refine ⟨fun h => yields_of_eq hexec ?_, fun h hx hout => ?_⟩
    · by_cases hh : s.line.hears = true
      · rw [if_pos hh, State.applyDeny]
        rcases h.resolve_left fun hn => hn (hears_iff.1 hh) with hx | hd
        · exact if_pos hx
        · rw [addDeny_of_denied (s := taken) hd]
          exact ite_self _
      · rw [if_neg hh]
    · rw [if_pos (hears_iff.2 h), State.applyDeny, if_neg hx, addDeny_of_absent (s := taken) hout] at hexec
      have hm := settle_mirrored s (taken.denyAdded x .neighbor reason origin)
      refine ⟨_, hexec, ?_, hm.notices, hm.denyList, hm.journal.trans (request_congr rfl rfl)⟩
      rw [hm.denyList, hm.journal, hm.notices]
      exact hm
  case check =>
    intro e outcome heard
    have hpop : s.popInbox = { s with line := { s.line with inbox := rest } } := popInbox_eq hin
    have hexec : exec .checkMessage s = .next (s.settle (if s.appliesCheck sender then outcome (e.take j received)
        else { s with line := { s.line with inbox := rest } })) := by
      show Host.Outcome.next (s.settle s.checkMessage) = _
      rw [State.checkMessage, hin]
      dsimp only
      rw [hpop]
      rfl
    have htaken {r : CheckResult} (h : heard) (hr : e.take j received = r) : s.Yields .checkMessage (outcome r) :=
      yields_of_eq hexec (hr ▸ if_pos (appliesCheck_iff.2 h))
    refine ⟨fun h => yields_of_eq hexec (if_neg fun hh => h (appliesCheck_iff.1 hh)), fun h h0 => htaken h ?_,
      fun last h hj hs hl hne => htaken h ?_, fun h hj hs hl => htaken h ?_, fun last h hj hs hl hle => htaken h ?_,
      fun last h hj hl hcase => ?compared⟩
    · exact if_pos h0
    · simp [CheckResult.take, hs, hl, hne, Nat.ne_of_gt hj]
    · simp [CheckResult.take, hs, hl, Nat.ne_of_gt hj]
    · simp [CheckResult.take, hs, hl, Nat.ne_of_gt hj, Nat.not_lt.2 hle]
    case compared =>
      intro compared
      have htake : e.take j received = CheckResult.compare
          { e with
            synced := true, lastIndex := some j
            missing := if e.synced = true then min 255 (e.missing + (j - last - 1)) else e.missing } j received := by
        rcases hcase with ⟨hs, hlt⟩ | ⟨hs, heq⟩
        · simp [CheckResult.take, hs, hl, Nat.ne_of_gt hj, hlt, saturate]
        · simp [CheckResult.take, hs, hl, heq]
      refine ⟨fun hsame => htaken h ?_, fun k hk hbefore => htaken h ?_⟩
      · rw [htake, hsame, compare_eq_same]
      · rw [htake, compare_eq_differs _ k hk hbefore]

end

end Sys2Proof.Machine

/-! ### SLOT_BOUNDARY: the slot clock, joining, and the frame of the own slot (R140, R144, R145, R155, R157) -/

namespace Sys2Proof.Machine

section
variable {s t : State} {i : Instr} {l : Line} {x : UnitId}

/-! #### The pattern generator and the CHECK messages of a frame -/

theorem generatorRun_add (g : BitVec 15) (m n : Nat) : generatorRun (generatorRun g m) n = generatorRun g (m + n) := by
  induction n with
  | zero => rfl
  | succ n ih => exact congrArg generatorNext ih

/-- A pattern byte takes eight bits of the generator (R157). -/
theorem patternByte_generator (g : BitVec 15) : (patternByte g).2 = generatorRun g 8 := rfl

/-- The pattern bytes of a message take 64 bits of the generator (R157). -/
theorem patternBytes_generator (g : BitVec 15) : (patternBytes g).2 = generatorRun g 64 := by
  simp only [patternBytes, patternByte_generator, generatorRun_add]

/-- The pattern bytes of Index `j`, counted from the seed (R157). -/
def seededPattern (j : Nat) : Vector Byte 8 := (patternBytes (generatorRun generatorSeed (64 * j))).1

/-- A run of CHECK messages whose generator stands at its Index: the Indices modulo 65,536, each with its own pattern
(R157). -/
theorem checkRun_seeded (injection : Bool) (n : Nat) {index : Nat} (h : index < 65536) :
    checkRun injection n index (generatorRun generatorSeed (64 * index)) =
      ((List.range n).map (fun i => ((index + i) % 65536,
          injected injection ((index + i) % 65536) (seededPattern ((index + i) % 65536)))),
        (index + n) % 65536, generatorRun generatorSeed (64 * ((index + n) % 65536))) := by
  induction n generalizing index with
  | zero => simp [checkRun, Nat.mod_eq_of_lt h]
  | succ n ih =>
    have hafter : (if index = 65535 then (0, generatorSeed)
        else (index + 1, (patternBytes (generatorRun generatorSeed (64 * index))).2)) =
        ((index + 1) % 65536, generatorRun generatorSeed (64 * ((index + 1) % 65536))) := by
      by_cases hl : index = 65535
      · subst hl
        rfl
      · rw [if_neg hl, Nat.mod_eq_of_lt (by omega), patternBytes_generator, generatorRun_add, Nat.mul_add]
    have hshift (i : Nat) : ((index + 1) % 65536 + i) % 65536 = (index + (i + 1)) % 65536 := by omega
    simp only [checkRun, hafter]
    rw [ih (Nat.mod_lt _ (by omega))]
    simp only [hshift, List.range_succ_eq_map, List.map_cons, List.map_map, Function.comp_def, Nat.add_zero,
      Nat.mod_eq_of_lt h, Nat.succ_eq_add_one, seededPattern]

/-- The Indices of a run of CHECK messages and their number, whatever the generator holds (R157). -/
theorem checkRun_index (injection : Bool) (n index : Nat) (g : BitVec 15) :
    (checkRun injection n index g).1.length = n
    ∧ (index + n ≤ 65535 → (checkRun injection n index g).2.1 = index + n) := by
  induction n generalizing index g with
  | zero => exact ⟨rfl, fun _ => rfl⟩
  | succ n ih =>
    simp only [checkRun, List.length_cons, (ih _ _).1, true_and]
    intro h
    rw [if_neg (by omega), (ih _ _).2 (by dsimp only; omega)]
    dsimp only
    omega

theorem checkMessageBytes_length (index : Nat) (p : Vector Byte 8) : (checkMessageBytes index p).length = 16 := rfl

/-- A frame of `n` messages has their number in byte 2, and a header, the messages and a CRC of two bytes (R141). -/
theorem frameBytes_count (u : UnitId) (cycle : Nat) (messages : List (List Byte)) :
    (frameBytes u cycle messages).getD 2 0 = BitVec.ofNat 8 messages.length
    ∧ (frameBytes u cycle messages).length = 5 + messages.flatten.length := by
  constructor
  · simp [frameBytes]
  · simp [frameBytes]
    omega

/-! #### The line's own operations -/

/-- The line at the next slot (R140, R147, R155). -/
def Line.advanced (l : Line) (u : UnitId) : Line :=
  if l.slot = 15 then
    { l with
      slot := 0, cycle := (l.cycle + 1) % 256
      cycles := if l.membership = .resync then min (u.val + 1) (l.cycles + 1) else l.cycles
      presence := l.presence.map (fun p => { p with silence := min 4 (p.silence + 1) }) }
  else { l with slot := l.slot + 1 }

theorem advanceSlot_eq (s : State) : ∃ c, s.advanceSlot = s.relined (s.line.advanced s.cfg.unitId) c := by
  unfold State.advanceSlot Line.advanced
  by_cases h : s.line.slot = 15
  · rw [if_pos h, if_pos h]
    exact ⟨_, (setPresence_eq _).trans (relined_relined (s := s) (a := false))⟩
  · rw [if_neg h, if_neg h]
    exact ⟨false, rfl⟩

/-- The line joined where a frame has aligned it (R144). -/
def Line.joinedIfDue (l : Line) : Line := if l.joining then { l with joining := false, membership := .joined } else l

theorem joinIfDue_eq (s : State) :
    s.joinIfDue = s.relined s.line.joinedIfDue (s.line.joining && decide (s.line.membership ≠ .joined)) := by
  unfold State.joinIfDue Line.joinedIfDue
  by_cases h : s.line.joining = true
  · rw [if_pos h, if_pos h, setLine_eq, enterMembership_eq, relined_relined, h]
    rfl
  · rw [if_neg h, if_neg h, Bool.eq_false_iff.2 h]
    rfl

/-- The line after the own slot has begun (R145, R157). -/
def Line.inOwnSlot (l : Line) (u : UnitId) : Line :=
  match l.membership with
  | .joined => l.abandonFrame.formFrame u
  | .check => l.abandonFrame.formCheckFrame u
  | .silent | .listen | .resync => l

theorem ownSlot_eq (s : State) : s.ownSlot = s.relined (s.line.inOwnSlot s.cfg.unitId) false := by
  have h : s.line.abandonFrame.membership = s.line.membership := rfl
  unfold State.ownSlot Line.inOwnSlot
  dsimp only
  rw [h]
  cases s.line.membership <;> rfl

/-- The own slot leaves the clock, the membership and the Presence table. -/
theorem inOwnSlot_keeps (l : Line) (u : UnitId) :
    (l.inOwnSlot u).slot = l.slot ∧ (l.inOwnSlot u).cycle = l.cycle ∧ (l.inOwnSlot u).presence = l.presence
    ∧ (l.inOwnSlot u).cycles = l.cycles ∧ (l.inOwnSlot u).membership = l.membership
    ∧ (l.inOwnSlot u).joining = l.joining := by
  unfold Line.inOwnSlot
  cases h : l.membership <;> exact ⟨rfl, rfl, rfl, rfl, h, rfl⟩

/-- The line at a boundary, before the unit's own slot is considered. -/
def Line.moved (l : Line) (u : UnitId) : Line := (l.advanced u).joinedIfDue

/-- What a boundary leaves of the line. -/
theorem moved_keeps (l : Line) (u : UnitId) :
    (l.moved u).slot = l.slot + 1 ∧ (l.moved u).sending = l.sending ∧ (l.moved u).queue = l.queue
    ∧ (l.moved u).sendIndex = l.sendIndex ∧ (l.moved u).generator = l.generator ∧ (l.moved u).mode = l.mode
    ∧ (l.moved u).injection = l.injection := by
  have hadvanced : (l.advanced u).slot = l.slot + 1 ∧ (l.advanced u).sending = l.sending
      ∧ (l.advanced u).queue = l.queue ∧ (l.advanced u).sendIndex = l.sendIndex
      ∧ (l.advanced u).generator = l.generator ∧ (l.advanced u).mode = l.mode
      ∧ (l.advanced u).injection = l.injection := by
    unfold Line.advanced
    by_cases h : l.slot = 15
    · rw [if_pos h]
      exact ⟨by rw [h]; rfl, rfl, rfl, rfl, rfl, rfl, rfl⟩
    · rw [if_neg h]
      exact ⟨rfl, rfl, rfl, rfl, rfl, rfl, rfl⟩
  unfold Line.moved Line.joinedIfDue
  split_ifs <;> exact hadvanced

/-- The clock, the Presence table and the count of cycles at a boundary (R140, R147, R155). -/
theorem moved_clock (l : Line) (u : UnitId) :
    (l.slot = 15 → (l.moved u).cycle = (l.cycle + 1) % 256
      ∧ (l.moved u).presence = l.presence.map (fun p => { p with silence := min 4 (p.silence + 1) })
      ∧ (l.membership = .resync → l.cycles ≤ u.val → (l.moved u).cycles = l.cycles + 1))
    ∧ (l.slot ≠ 15 → (l.moved u).cycle = l.cycle ∧ (l.moved u).presence = l.presence ∧ (l.moved u).cycles = l.cycles) := by
  have hjoin (m : Line) : m.joinedIfDue.cycle = m.cycle ∧ m.joinedIfDue.presence = m.presence
      ∧ m.joinedIfDue.cycles = m.cycles := by
    unfold Line.joinedIfDue
    split_ifs <;> exact ⟨rfl, rfl, rfl⟩
  obtain ⟨hcycle, hpresence, hcycles⟩ := hjoin (l.advanced u)
  unfold Line.moved
  rw [hcycle, hpresence, hcycles, Line.advanced]
  refine ⟨fun h => ?_, fun h => ?_⟩
  · rw [if_pos h]
    exact ⟨rfl, rfl, fun hm hc => (if_pos hm).trans (by omega)⟩
  · rw [if_neg h]
    exact ⟨rfl, rfl, rfl⟩

/-- The membership at a boundary (R144). -/
theorem moved_membership (l : Line) (u : UnitId) :
    (l.joining = true → (l.moved u).membership = .joined ∧ (l.moved u).joining = false)
    ∧ (l.joining = false → (l.moved u).membership = l.membership) := by
  have hadvanced : (l.advanced u).joining = l.joining ∧ (l.advanced u).membership = l.membership := by
    unfold Line.advanced
    split_ifs <;> exact ⟨rfl, rfl⟩
  obtain ⟨hjoining, hmember⟩ := hadvanced
  unfold Line.moved Line.joinedIfDue
  rw [hjoining]
  refine ⟨fun h => ?_, fun h => ?_⟩
  · rw [if_pos h]
    exact ⟨rfl, rfl⟩
  · rw [if_neg (by simp [h])]
    exact hmember

/-- The line after a whole boundary. -/
def Line.bounded (l : Line) (u : UnitId) : Line :=
  if l.slot + 1 = u then (l.moved u).inOwnSlot u else l.moved u

/-- A boundary of a running clock changes the line and the LINE notice alone, and sets the notice where the unit joins. -/
theorem slotBoundary_eq (h : s.line.running = true) :
    ∃ c, s.slotBoundary = s.relined (s.line.bounded s.cfg.unitId) c
      ∧ (s.line.joining = true → s.line.membership ≠ .joined → c = true) := by
  obtain ⟨c, hc⟩ := advanceSlot_eq s
  have hadvanced : (s.line.advanced s.cfg.unitId).joining = s.line.joining
      ∧ (s.line.advanced s.cfg.unitId).membership = s.line.membership := by
    unfold Line.advanced
    split_ifs <;> exact ⟨rfl, rfl⟩
  obtain ⟨hjoining, hmember⟩ := hadvanced
  have hmoved : s.advanceSlot.joinIfDue =
      s.relined (s.line.moved s.cfg.unitId) (c || (s.line.joining && decide (s.line.membership ≠ .joined))) := by
    rw [joinIfDue_eq, hc, relined_relined, relined_line, hjoining, hmember]
    rfl
  refine ⟨c || (s.line.joining && decide (s.line.membership ≠ .joined)), ?_, fun hj hm => ?_⟩
  · rw [State.slotBoundary, if_pos h, hmoved]
    show (if (s.line.moved s.cfg.unitId).slot = s.cfg.unitId then _ else _) = _
    rw [(moved_keeps s.line s.cfg.unitId).1, Line.bounded]
    by_cases ho : s.line.slot + 1 = s.cfg.unitId
    · rw [if_pos ho, if_pos ho, ownSlot_eq, relined_relined, Bool.or_false]
      rfl
    · rw [if_neg ho, if_neg ho]
  · simp [hj, hm]

/-! #### The frames of the own slot -/

/-- The frame of four CHECK messages (R157). -/
theorem formCheckFrame_sent (l : Line) (u : UnitId) :
    let index (i : Nat) : Nat := (l.sendIndex + i) % 65536
    let carried (j : Nat) : Vector Byte 8 := injected l.injection j (seededPattern j)
    ∃ f, (l.formCheckFrame u).sending = some f ∧ f.cycle = l.cycle
      ∧ (l.sendIndex < 65536 → l.generator = generatorRun generatorSeed (64 * l.sendIndex) →
          f.bytes = frameBytes u l.cycle ((List.range 4).map (fun i => checkMessageBytes (index i) (carried (index i))))
          ∧ (l.mode = some .wrap → f.looped = (List.range 4).map (fun i => .check (index i) (carried (index i))))
          ∧ (l.formCheckFrame u).sendIndex = index 4
          ∧ (l.formCheckFrame u).generator = generatorRun generatorSeed (64 * index 4))
      ∧ (f.bytes.getD 2 0).toNat = 4 ∧ f.bytes.length = 69 ∧ (f.looped = [] ↔ l.mode ≠ some .wrap)
      ∧ (l.sendIndex + 4 ≤ 65535 → (l.formCheckFrame u).sendIndex = l.sendIndex + 4) := by
  intro index carried
  obtain ⟨hlength, hindex⟩ := checkRun_index l.injection 4 l.sendIndex l.generator
  refine ⟨_, rfl, rfl, fun hlt hg => ?seeded, ?count, ?length, ?looped, hindex⟩
  case seeded =>
    have hrun := checkRun_seeded l.injection 4 hlt
    rw [← hg] at hrun
    simp only [Line.formCheckFrame, hrun, List.map_map]
    exact ⟨rfl, fun hm => by rw [if_pos hm]; rfl, rfl, rfl⟩
  case count =>
    dsimp only
    rw [(frameBytes_count _ _ _).1, List.length_map, hlength]
    rfl
  case length =>
    dsimp only
    rw [(frameBytes_count _ _ _).2, List.length_flatten, List.map_map]
    simp only [Function.comp_def, checkMessageBytes_length, List.map_const', List.sum_replicate, hlength]
    rfl
  case looped =>
    by_cases hm : l.mode = some .wrap
    · have hne : (checkRun l.injection 4 l.sendIndex l.generator).1 ≠ [] := by
        intro h0
        simp [h0] at hlength
      simp [hm, hne]
    · simp [hm]

/-- Settles O54: the line at the boundary, by the slot, by whether the unit joins, and by whether the slot is its own. -/
theorem slotBoundaryAdvances : Obligations.SlotBoundaryAdvances := by
  refine ⟨fun s h => yields_of_eq (t := s.slotBoundary) rfl (if_neg (by simp [h])), fun s h => ?_⟩
  intro last
  obtain ⟨c, hc, hjoins⟩ := slotBoundary_eq h
  obtain ⟨t, hexec, hm, hl, -, hn⟩ := relined_of_eq (i := .slotBoundary) rfl hc
  have hkeeps : (s.line.bounded s.cfg.unitId).slot = (s.line.moved s.cfg.unitId).slot
      ∧ (s.line.bounded s.cfg.unitId).cycle = (s.line.moved s.cfg.unitId).cycle
      ∧ (s.line.bounded s.cfg.unitId).presence = (s.line.moved s.cfg.unitId).presence
      ∧ (s.line.bounded s.cfg.unitId).cycles = (s.line.moved s.cfg.unitId).cycles
      ∧ (s.line.bounded s.cfg.unitId).membership = (s.line.moved s.cfg.unitId).membership
      ∧ (s.line.bounded s.cfg.unitId).joining = (s.line.moved s.cfg.unitId).joining := by
    unfold Line.bounded
    split_ifs
    · exact inOwnSlot_keeps _ _
    · exact ⟨rfl, rfl, rfl, rfl, rfl, rfl⟩
  obtain ⟨hslot, hcycle, hpresence, hcycles, hmember, hjoining⟩ := hkeeps
  obtain ⟨kslot, ksending, kqueue, kindex, kgenerator, kmode, kinjection⟩ := moved_keeps s.line s.cfg.unitId
  obtain ⟨hlast, hnot⟩ := moved_clock s.line s.cfg.unitId
  obtain ⟨hjoin, hstay⟩ := moved_membership s.line s.cfg.unitId
  have hother (ho : s.line.slot + 1 ≠ s.cfg.unitId) : s.line.bounded s.cfg.unitId = s.line.moved s.cfg.unitId := if_neg ho
  have hown (ho : s.line.slot + 1 = s.cfg.unitId) :
      s.line.bounded s.cfg.unitId = (s.line.moved s.cfg.unitId).inOwnSlot s.cfg.unitId := if_pos ho
  refine ⟨t, hexec, by rw [hl]; exact hm, ?_⟩
  rw [hl, hslot, hcycle, hpresence, hcycles, hmember, hjoining]
  refine ⟨kslot, fun h => ⟨(hlast h).1, fun u => ?_⟩, hnot, fun h => (hlast h).2.2, fun h => ⟨(hjoin h).1, (hjoin h).2, fun hne => ?_⟩,
    hstay, fun ho => ?_, fun ho hj => ?joined, fun ho hk => ?check, fun ho h1 h2 => ?_⟩
  · rw [(hlast h).2.1]
    simp
  · rw [hn, hjoins h hne, relined_noticed_line]
  · rw [hother ho]
    exact ⟨ksending, kqueue, kindex⟩
  case joined =>
    rw [hown ho, Line.inOwnSlot, hj, formFrame_abandoned]
    dsimp only
    rw [kqueue]
    exact ⟨rfl, rfl⟩
  case check =>
    intro index pattern carried
    have hcarried : carried = fun j => injected s.line.injection j (seededPattern j) := by
      funext j
      simp only [carried, injected, Bool.and_eq_true, beq_iff_eq]
      rfl
    rw [hown ho, Line.inOwnSlot, hk, hcarried]
    obtain ⟨f, hf, hfc, hseed, hcount, hlen, hloop, hidx⟩ :=
      formCheckFrame_sent (s.line.moved s.cfg.unitId).abandonFrame s.cfg.unitId
    have ka : ((s.line.moved s.cfg.unitId).abandonFrame).sendIndex = s.line.sendIndex := kindex
    have kb : ((s.line.moved s.cfg.unitId).abandonFrame).generator = s.line.generator := kgenerator
    have kc : ((s.line.moved s.cfg.unitId).abandonFrame).mode = s.line.mode := kmode
    have kd : ((s.line.moved s.cfg.unitId).abandonFrame).injection = s.line.injection := kinjection
    rw [ka, kb, kc, kd] at hseed
    rw [kc] at hloop
    rw [ka] at hidx
    refine ⟨f, hf, hfc, hseed, hcount, hlen, hloop, hidx, fun m hm => ?_⟩
    obtain ⟨q, -, rfl⟩ := List.mem_map.1 hm
    rfl
  · have hsame : (s.line.moved s.cfg.unitId).inOwnSlot s.cfg.unitId = s.line.moved s.cfg.unitId := by
      unfold Line.inOwnSlot
      cases hm : (s.line.moved s.cfg.unitId).membership with
      | joined => exact absurd hm h1
      | check => exact absurd hm h2
      | silent | listen | resync => rfl
    rw [hown ho, hsame]
    exact ⟨ksending, kqueue⟩

end

end Sys2Proof.Machine

/-! ### Reset and the entry to READY (R138, R143, R184, R185, R189, R190) -/

namespace Sys2Proof.Machine

section
variable {s t u : State} {i : Instr} {n : Lane}

/-! #### RESET_N_ASSERT and RESET_N_RELEASE -/

/-- After reset no block has a word to make (R166, R185). -/
theorem resetAssert_hasWord (s : State) (x : Block) : s.resetAssert.hasWord x = false := by
  have hslot (k : SlotId) : s.resetAssert.slot k = State.reset.slot k := rfl
  cases x with
  | commandSlot k => fin_cases k <;> rfl
  | comparison n => fin_cases n <;> rfl
  | verdictRecord n => rfl
  | _ => rfl

/-- Where no block has a word to make, no request is enrolled at an empty arbiter (R166). -/
theorem enrol_idle (h : ∀ x, s.hasWord x = false) (ha : s.arbiter.requests = []) : s.enrol = s := by
  have hnone : allBlocks.filter (fun x => s.hasWord x && !([] : List Block).contains x) = [] := by simp [h]
  simp only [State.enrol, ha, List.filter_nil, hnone, List.append_nil]
  rw [← ha]

theorem exec_resetNAssert (s : State) : exec .resetNAssert s = .next s.resetAssert := by
  show Host.Outcome.next (s.settle s.resetAssert) = _
  rw [State.settle, note_unmirrored s (t := s.resetAssert) nofun nofun, enrol_idle (resetAssert_hasWord s) rfl]

/-- A gate after reset, with its inputs (R122, R124). -/
theorem resetAssert_gate (s : State) (n : Lane) :
    s.resetAssert.gate n = { Gate.reset with
      inputA := (s.gate n).inputA, inputB := (s.gate n).inputB
      beams := beamsOf (s.gate n).inputA (s.gate n).inputB
      entryBeam := if beamsOf (s.gate n).inputA (s.gate n).inputB = .clear then .absent else .unknown
      crossed := false } := by
  match n with
  | 0 | 1 | 2 | 3 => rfl

theorem beamsOf_clear_iff (a b : Bool) : beamsOf a b = .clear ↔ a = false ∧ b = false := by
  cases a <;> cases b <;> simp [beamsOf]

/-- The gates after RESET_N is released, by the EMERGENCY input (R138). -/
theorem gatesByInput_loading (h : s.unit = .loading) (n : Lane) :
    s.gatesByInput.gate n = (s.gate n).untimed (if s.emergency then .emergency else .closed) := by
  rw [State.gatesByInput, moveGates_every (.inr (.inl h))]
  match n with
  | 0 | 1 | 2 | 3 => rfl

/-- Settles O20: the reset values as they stand in `resetAssert`, and the release by the unit state. -/
theorem resetClearsAndReleases : Obligations.ResetClearsAndReleases := by
  refine ⟨fun s => ⟨_, exec_resetNAssert s, ?asserted⟩, fun s a mode enables data hu => ⟨?_, ?_⟩, fun s hu => ?_,
    fun s hu => ?released⟩
  case asserted =>
    have hlane (n : Lane) : s.resetAssert.lane n = LaneContext.reset := Quad.get_all _ n
    refine ⟨rfl, rfl, rfl, rfl, rfl, rfl, rfl, rfl, rfl, rfl, rfl, hlane, rfl, rfl, rfl, rfl, rfl, rfl, rfl, rfl, rfl, rfl,
      rfl, fun n => ?_, rfl, rfl, rfl, rfl, rfl, rfl, rfl, rfl, rfl, rfl, rfl, rfl, rfl, fun k => ?_, rfl, rfl,
      fun n => ⟨rfl, rfl⟩, rfl, rfl⟩
    rw [resetAssert_gate]
    simp only [beamsOf_eq, ← beamsOf_clear_iff]
    rfl
    fin_cases k <;> rfl
  · exact yields_of_eq (t := s.presentWord (processorWord a.toNat mode .read)) rfl (by rw [State.presentWord, hu])
  · exact yields_of_eq (t := s.presentWord (processorWord a.toNat mode (.write enables data))) rfl
      (by rw [State.presentWord, hu])
  · exact yields_of_eq (t := s.resetRelease) rfl (if_neg hu)
  case released =>
    have heq : s.resetRelease = ({ s with startUp := { s.startUp with unit := .loading } }).gatesByInput := if_pos hu
    have hm := settle_mirrored s s.resetRelease
    rw [heq] at hm
    refine ⟨_, congrArg (fun u => Host.Outcome.next (s.settle u)) heq, ?_, ?_, fun n => ?_⟩
    · rw [hm.gates]
      exact hm
    · have hunit : (s.settle ({ s with startUp := { s.startUp with unit := .loading } }).gatesByInput).unit = .loading :=
        congrArg StartUp.unit hm.startUp
      rw [State.configSelect, hunit]
    · have hgate (v : State) (h : v.gates = ({ s with startUp := { s.startUp with unit := .loading } }).gatesByInput.gates) :
          v.gate n = ({ s with startUp := { s.startUp with unit := .loading } }).gatesByInput.gate n :=
        congrArg (Quad.get · n) h
      rw [hgate _ hm.gates, gatesByInput_loading rfl]
      rfl

/-! #### ENTER_READY -/

/-- A port in READY chooses if it has no owner (R12, R13). -/
theorem chooseModem_eq (h : s.unit = .ready) :
    s.chooseModem = { s with
      reader := if s.reader.owner = none then s.reader.chosen s.cfg.present else s.reader } := by
  by_cases ho : s.reader.owner = none
  · rw [if_pos ho, chooseModem_ready h ho]
  · rw [if_neg ho, chooseModem_owned ho]

/-- The line in LISTEN where it is enabled (R143, R144). -/
def State.listening (s : State) : Line :=
  if s.cfg.lineEnabled then
    { s.line.abandonFrame with
      running := true, aligned := false, silenceTimer := true, joining := false, misaligned := 0, mode := none
      membership := .listen }
  else s.line

theorem listenIfEnabled_eq (s : State) : ∃ c, s.listenIfEnabled = s.relined s.listening c := by
  unfold State.listenIfEnabled State.listening
  by_cases h : s.cfg.lineEnabled = true
  · rw [if_pos h, if_pos h]
    exact ⟨_, enterListen_eq s⟩
  · rw [if_neg h, if_neg h]
    exact ⟨false, rfl⟩

/-- The request for the EMERGENCY_START entry (R136, R138). -/
def State.emergencyEntry (s : State) : JournalRequest :=
  .append { lane := none, time := s.clock, flags := FareFlags.none, degraded := false
            body := .emergencyStart s.cfg.present, reserved := none } .nothing

/-- The journal after the entry to READY (R138). -/
def State.readyJournal (s : State) : Journal :=
  if s.emergency then (s.request s.emergencyEntry).journal else s.journal

/-- The Status Writer with the READY notice set and the region copies stale (R184, R190). -/
theorem readyStale_eq (s : State) :
    ∃ st : StatusWriter,
      (({ s with startUp := { s.startUp with unit := .ready } }).notify .ready).makeStale regionCopies =
        { s with startUp := { s.startUp with unit := .ready }, status := st }
      ∧ st.notices = s.status.notices ||| BitVec.ofNat 18 (2 ^ Notice.ready.bit) ∧ st.records = s.status.records
      ∧ ∀ j ∈ regionCopies, j ∈ st.stale := by
  have hm := makeStale_mirrored (({ s with startUp := { s.startUp with unit := .ready } }).notify .ready) regionCopies
  exact ⟨_, makeStale_frame _ _, hm.notices, hm.records, fun j hj => mem_makeStale (.inl hj)⟩

/-- The entry to READY (R190): what it leaves, and the notices that it sets. -/
theorem enterReady_eq (s : State) :
    ({ s with
        startUp := { s.startUp with unit := .ready }
        reader := if s.reader.owner = none then s.reader.chosen s.cfg.present else s.reader
        line := s.listening, journal := s.readyJournal
        status := { s.status with notices := s.enterReady.status.notices } }).Mirrored s.enterReady
    ∧ s.enterReady.noticed .ready = true ∧ (s.emergency = true → s.enterReady.noticed .emergency = true)
    ∧ ∀ j ∈ regionCopies, j ∈ s.enterReady.status.stale := by
  obtain ⟨st, hst, hnotices, hrecords, hstale⟩ := readyStale_eq s
  set v : State := { s with startUp := { s.startUp with unit := .ready }, status := st }
  set w : State := { v with reader := if s.reader.owner = none then s.reader.chosen s.cfg.present else s.reader }
  have hchosen : v.chooseModem = w := chooseModem_eq rfl
  obtain ⟨c, hc⟩ := listenIfEnabled_eq w
  have hlisten : w.listening = s.listening := rfl
  rw [hlisten] at hc
  have henter : s.enterReady = if s.emergency then (w.relined s.listening c).emergencyStart else w.relined s.listening c := by
    have hemergency : (w.relined s.listening c).emergency = s.emergency := rfl
    rw [State.enterReady]
    dsimp only
    rw [hst, hchosen, hc, hemergency]
  have hbit (x : BitVec 18) : ((s.status.notices ||| BitVec.ofNat 18 (2 ^ Notice.ready.bit)) ||| x).getLsbD
      Notice.ready.bit = true := by
    rw [BitVec.getLsbD_or, BitVec.getLsbD_or]
    simp [Notice.bit]
  have hready : (w.relined s.listening c).noticed .ready = true := by
    rw [relined_noticed]
    show (st.notices.getLsbD Notice.ready.bit || _) = true
    rw [hnotices, ← BitVec.or_zero (x := s.status.notices ||| _), hbit]
    rfl
  have hwriter (x : BitVec 18) : { st with notices := x } =
      { s.status with notices := x, stale := st.stale, changeCount := st.changeCount, due := st.due } := by
    simp only [hrecords]
  have hrequest : ((w.relined s.listening c).request s.emergencyEntry).journal = (s.request s.emergencyEntry).journal :=
    request_congr rfl rfl
  rw [henter, State.readyJournal]
  by_cases he : s.emergency = true
  · rw [if_pos he, if_pos he]
    have hstart : (w.relined s.listening c).emergencyStart =
        ({ w.relined s.listening c with journal := (s.request s.emergencyEntry).journal }).notify .emergency := by
      rw [← hrequest, ← request_frame]
      rfl
    rw [hstart]
    refine ⟨?_, ?_, fun _ => State.noticed_notify _ _, hstale⟩
    · show _ = _
      simp only [State.Mirrored, State.notify, State.setStatus, State.relined]
      rw [hwriter]
    · simp only [State.noticed, State.notify, State.setStatus] at hready ⊢
      rw [BitVec.getLsbD_or, hready]
      rfl
  · rw [if_neg he, if_neg he]
    refine ⟨?_, hready, fun h => absurd h he, hstale⟩
    simp only [State.Mirrored, State.relined]
    rw [hwriter]

/-- Settles O25: the fields that `enterReady_eq` gives. -/
theorem unitEntersReady : Obligations.UnitEntersReady := by
  intro s hu hsel hscan
  have hexec : exec .enterReady s = .next (s.settle s.enterReady) := by
    show Host.Outcome.next (s.settle (if _ then _ else _)) = _
    rw [if_pos ⟨hu, hsel, hscan⟩]
  obtain ⟨hframe, hready, hemergency, hstale⟩ := enterReady_eq s
  have hm := settle_mirrored s s.enterReady
  have hnoticed (n : Notice) : (s.settle s.enterReady).noticed n = s.enterReady.noticed n :=
    congrArg (BitVec.getLsbD · n.bit) hm.notices
  have hreader := hm.reader.trans hframe.reader
  have hline := hm.line.trans hframe.line
  have hjournal := hm.journal.trans hframe.journal
  refine ⟨_, hexec, ?_, (hnoticed _).trans hready, fun j h1 h2 => ?_, hreader, fun he => ?_, fun he => ?_, fun he => ?_,
    fun he => ?_⟩
  · rw [hreader, hline, hjournal, hm.notices]
    exact hframe.trans hm
  · have hj : j ∈ s.enterReady.status.stale := hstale j (List.mem_map.2 ⟨j - 216, List.mem_range.2 (by omega), by omega⟩)
    exact mem_note hj
  · rw [hline, State.listening, if_pos he]
    exact ⟨rfl, rfl, rfl, rfl⟩
  · rw [hline, State.listening, he]
    rfl
  · rw [hnoticed, hemergency he, hjournal, State.readyJournal, if_pos he]
    exact ⟨rfl, rfl⟩
  · rw [hjournal, State.readyJournal, he]
    rfl

end

end Sys2Proof.Machine

/-! ### Fields of words, and the records read back as they were written (R105, R107, R114, R141, R142, R178, R191) -/

namespace Sys2Proof.Machine

section
variable {v lo len lo' len' : Nat} {w x : Word}

/-! #### Fields -/

theorem testBit_bits (w : Word) (lo len i : Nat) : (bits w lo len).testBit i = (decide (i < len) && w.getLsbD (lo + i)) := by
  rw [bits, Nat.testBit_mod_two_pow, Nat.testBit_div_two_pow, BitVec.getLsbD, Nat.add_comm]

theorem bits_or (w x : Word) (lo len : Nat) : bits (w ||| x) lo len = bits w lo len ||| bits x lo len := by
  refine Nat.eq_of_testBit_eq fun i => ?_
  simp only [Nat.testBit_or, testBit_bits, BitVec.getLsbD_or, Bool.and_or_distrib_left]

/-- A field reads back what was put in it. -/
theorem bits_put_self (v : Nat) (h : lo + len ≤ 32) : bits (put v lo len) lo len = v % 2 ^ len := by
  refine Nat.eq_of_testBit_eq fun i => ?_
  rw [testBit_bits, getLsbD_put, Nat.testBit_mod_two_pow, Nat.add_sub_cancel_left]
  by_cases hi : i < len
  · simp [hi, show lo + i < 32 by omega]
  · simp [hi]

/-- A field does not hold what was put beside it. -/
theorem bits_put_apart (v : Nat) (h : lo' + len' ≤ lo ∨ lo + len ≤ lo') : bits (put v lo' len') lo len = 0 := by
  refine Nat.eq_of_testBit_eq fun i => ?_
  rw [testBit_bits, getLsbD_put, Nat.zero_testBit]
  by_cases hi : i < len
  · rcases h with h | h
    · simp [show ¬lo + i - lo' < len' by omega]
    · simp [show ¬lo' ≤ lo + i by omega]
  · simp [hi]

theorem bits_putFlag_apart (b : Bool) {i : Nat} (h : i + 1 ≤ lo ∨ lo + len ≤ i) : bits (putFlag b i) lo len = 0 := by
  cases b with
  | false => simp [putFlag, bits]
  | true => exact bits_put_apart 1 h

theorem put_word_toNat (h : v < 2 ^ 32) : (put v 0 32).toNat = v := by
  rw [put_word, BitVec.toNat_ofNat, Nat.mod_eq_of_lt h]

/-! #### Result words -/

theorem CommandOutcome.code_lt (o : CommandOutcome) : o.code < 256 := by cases o <;> decide

theorem Detail.number_lt (d : Detail) : d.number < 256 := by cases d <;> decide

/-- The fields of a result word (12.4). -/
theorem resultWord_fields {echo : Nat} (outcome : CommandOutcome) (detail : Detail) (h : echo < 65536) :
    bits (resultWord echo outcome detail) 0 16 = echo ∧ bits (resultWord echo outcome detail) 16 8 = outcome.code
    ∧ bits (resultWord echo outcome detail) 24 8 = detail.number := by
  simp only [resultWord, bits_or]
  refine ⟨?_, ?_, ?_⟩
  · rw [bits_put_self _ (by omega), bits_put_apart _ (by omega), bits_put_apart _ (by omega), Nat.mod_eq_of_lt (show echo < 2 ^ 16 from h)]
    simp
  · rw [bits_put_self _ (by omega), bits_put_apart _ (by omega), bits_put_apart _ (by omega),
      Nat.mod_eq_of_lt (show outcome.code < 2 ^ 8 from outcome.code_lt)]
    simp
  · rw [bits_put_self _ (by omega), bits_put_apart _ (by omega), bits_put_apart _ (by omega),
      Nat.mod_eq_of_lt (show detail.number < 2 ^ 8 from detail.number_lt)]
    simp

/-! #### Journal entries and the Unit Record -/

theorem TransactionKind.code_range (kind : TransactionKind) : 1 ≤ kind.code ∧ kind.code ≤ 28 := by
  cases kind with
  | commit conflict recovered => cases conflict <;> cases recovered <;> decide
  | _ => decide

theorem EntryBody.code_range (b : EntryBody) : 1 ≤ b.code ∧ b.code ≤ 28 := by
  cases b with
  | transaction kind _ _ _ _ _ => exact kind.code_range
  | _ => simp [EntryBody.code]

theorem entryKind_words (d : EntryDraft) (seq : Nat) : entryKind (d.words seq) = d.body.code := by
  obtain ⟨-, h⟩ := d.body.code_range
  show bits (put d.body.code 0 5 ||| put ((d.lane.map (·.val)).getD 0) 5 2 ||| put (flagsNumber d.flags d.degraded) 7 7
    ||| put _ 14 17 ||| putFlag d.lane.isSome 31) 0 5 = _
  simp only [bits_or]
  rw [bits_put_self _ (by omega), bits_put_apart _ (by omega), bits_put_apart _ (by omega), bits_put_apart _ (by omega),
    bits_putFlag_apart _ (by omega), Nat.mod_eq_of_lt (by omega)]
  simp

/-- An entry as it is written is valid (R105). -/
theorem validEntry_words (d : EntryDraft) {seq : Nat} (h : seq < 2 ^ 32) : validEntry (d.words seq) seq = true := by
  obtain ⟨h1, h2⟩ := d.body.code_range
  have hkind : bits (d.words seq)[1] 0 5 = d.body.code := entryKind_words d seq
  have hfirst : (d.words seq)[0].toNat = seq := put_word_toNat h
  have hlast : (d.words seq)[7].toNat = seq := put_word_toNat h
  simp [validEntry, hkind, hfirst, hlast, h1, h2]

/-- Each copy of the Unit Record is read back (R114). -/
theorem unitRecordOfCopy_copy {released : Nat} (bank : Option BankId) (version : Word) (h : released < 2 ^ 32) :
    unitRecordOfCopy (some (unitRecordCopy released bank version).toList) = some ⟨released, bank, version⟩ := by
  have hcode : bankCode bank ≤ 2 ∧ bankOfCode (bankCode bank) = bank := by
    match bank with
    | none | some .a | some .b => decide
  have hbank : (put (bankCode bank) 0 32).toNat = bankCode bank := put_word_toNat (by omega)
  show (if _ then some (UnitRecord.mk (put released 0 32).toNat (bankOfCode (put (bankCode bank) 0 32).toNat) version)
    else none) = _
  rw [if_pos (by simp [hbank, hcode.1]), hbank, hcode.2, put_word_toNat h]

/-! #### Line frames -/

theorem serialOf_serialLow (x : Serial) : serialOf (serialLow x) (serialHigh x) = x := by
  apply BitVec.eq_of_toNat_eq
  have := x.isLt
  simp only [serialOf, serialLow, serialHigh, BitVec.toNat_ofNat]
  omega

theorem unitOf_ofNat (u : UnitId) : unitOf (BitVec.ofNat 8 u.val) = u := by
  apply Fin.ext
  have := u.isLt
  simp only [unitOf, BitVec.toNat_ofNat, Fin.ofNat]
  omega

/-- A message as unit `u` sends it and its hearers receive it (R142). -/
def TransmitMessage.received (u : UnitId) : TransmitMessage → ReceivedMessage
  | .sighting x counter balance => .sighting x counter balance u
  | .deny x reason => .deny x reason u

/-- The Counter of a message that carries one fits its two bytes. -/
def TransmitMessage.Fits (m : TransmitMessage) : Prop := ∀ x counter balance, m = .sighting x counter balance → counter < 65536

theorem TransmitMessage.bytes_length (u : UnitId) (m : TransmitMessage) : (m.bytes u).length = 16 := by
  cases m <;> rfl

/-- A message is read back as it was sent (R141, R142). -/
theorem messageOfBytes_bytes (u : UnitId) {m : TransmitMessage} (h : m.Fits) :
    messageOfBytes (m.bytes u) = some (m.received u) := by
  cases m with
  | sighting x counter balance =>
    have hc := h x counter balance rfl
    have hcounter : (BitVec.ofNat 8 counter).toNat + 256 * (BitVec.ofNat 8 (counter / 256)).toNat = counter := by
      simp only [BitVec.toNat_ofNat]
      omega
    show some (ReceivedMessage.sighting (serialOf (wordOfBytes (byteOf (serialLow x) 0) (byteOf (serialLow x) 1)
        (byteOf (serialLow x) 2) (byteOf (serialLow x) 3)) (wordOfBytes (byteOf (serialHigh x) 0) (byteOf (serialHigh x) 1)
        (byteOf (serialHigh x) 2) (byteOf (serialHigh x) 3)))
      ((BitVec.ofNat 8 counter).toNat + 256 * (BitVec.ofNat 8 (counter / 256)).toNat)
      (wordOfBytes (byteOf balance 0) (byteOf balance 1) (byteOf balance 2) (byteOf balance 3))
      (unitOf (BitVec.ofNat 8 u.val))) = _
    rw [wordOfBytes_byteOf, wordOfBytes_byteOf, wordOfBytes_byteOf, serialOf_serialLow, unitOf_ofNat, hcounter]
    rfl
  | deny x reason =>
    show some (ReceivedMessage.deny (serialOf (wordOfBytes (byteOf (serialLow x) 0) (byteOf (serialLow x) 1)
        (byteOf (serialLow x) 2) (byteOf (serialLow x) 3)) (wordOfBytes (byteOf (serialHigh x) 0) (byteOf (serialHigh x) 1)
        (byteOf (serialHigh x) 2) (byteOf (serialHigh x) 3)))
      (if BitVec.ofNat 8 (if reason = .clone then 1 else 2) = 1 then .clone else .operator)
      (unitOf (BitVec.ofNat 8 u.val))) = _
    rw [wordOfBytes_byteOf, wordOfBytes_byteOf, serialOf_serialLow, unitOf_ofNat]
    cases reason <;> rfl

theorem messagesOfBytes_flatten (u : UnitId) {l : List TransmitMessage} (h : ∀ m ∈ l, m.Fits) (rest : List Byte) :
    messagesOfBytes l.length ((l.map (TransmitMessage.bytes u)).flatten ++ rest) =
      some (l.map (TransmitMessage.received u)) := by
  induction l with
  | nil => rfl
  | cons m l ih =>
    have hm := h m (List.mem_cons_self ..)
    have hlen := m.bytes_length u
    have htake : ((m.bytes u) ++ ((l.map (TransmitMessage.bytes u)).flatten ++ rest)).take 16 = m.bytes u := by
      rw [← hlen, List.take_left]
    have hdrop : ((m.bytes u) ++ ((l.map (TransmitMessage.bytes u)).flatten ++ rest)).drop 16 =
        (l.map (TransmitMessage.bytes u)).flatten ++ rest := by
      rw [← hlen, List.drop_left]
    rw [List.map_cons, List.flatten_cons, List.append_assoc, List.length_cons, messagesOfBytes, htake, hdrop,
      messageOfBytes_bytes u hm, ih fun m hm => h m (List.mem_cons_of_mem _ hm)]
    rfl

/-- A frame of up to four messages is read back as it was sent (R141, R142). -/
theorem frameOfBytes_frameBytes (u : UnitId) {cycle : Nat} {l : List TransmitMessage} (hc : cycle < 256) (hl : l.length ≤ 4)
    (h : ∀ m ∈ l, m.Fits) :
    frameOfBytes (frameBytes u cycle (l.map (TransmitMessage.bytes u))) =
      some ⟨u, cycle, l.map (TransmitMessage.received u)⟩ := by
  set payload := (l.map (TransmitMessage.bytes u)).flatten with hpayload
  have hlength : payload.length = 16 * l.length := by
    rw [hpayload, List.length_flatten, List.map_map]
    simp only [Function.comp_def, TransmitMessage.bytes_length, List.map_const', List.sum_replicate, smul_eq_mul]
    omega
  set body : List Byte := [BitVec.ofNat 8 u.val, BitVec.ofNat 8 cycle, BitVec.ofNat 8 l.length] ++ payload with hbody
  set crc := (crc16 body).toNat with hcrc
  have hframe : frameBytes u cycle (l.map (TransmitMessage.bytes u)) =
      body ++ [BitVec.ofNat 8 (crc / 256), BitVec.ofNat 8 crc] := by
    simp [frameBytes, hbody, hcrc, hpayload]
  have hblen : body.length = 3 + 16 * l.length := by simp [hbody, hlength]; omega
  have hcount : (BitVec.ofNat 8 l.length).toNat = l.length := by
    rw [BitVec.toNat_ofNat]
    omega
  have hlt : crc < 65536 := (crc16 body).isLt
  have hmessages := messagesOfBytes_flatten u h [BitVec.ofNat 8 (crc / 256), BitVec.ofNat 8 crc]
  rw [hframe, frameOfBytes]
  have hn : (body ++ [BitVec.ofNat 8 (crc / 256), BitVec.ofNat 8 crc]).length = body.length + 2 := by simp
  have h0 : (body ++ [BitVec.ofNat 8 (crc / 256), BitVec.ofNat 8 crc]).getD 0 0 = BitVec.ofNat 8 u.val := rfl
  have h1 : (body ++ [BitVec.ofNat 8 (crc / 256), BitVec.ofNat 8 crc]).getD 1 0 = BitVec.ofNat 8 cycle := rfl
  have h2 : (body ++ [BitVec.ofNat 8 (crc / 256), BitVec.ofNat 8 crc]).getD 2 0 = BitVec.ofNat 8 l.length := rfl
  have hd : (body ++ [BitVec.ofNat 8 (crc / 256), BitVec.ofNat 8 crc]).drop 3 =
      payload ++ [BitVec.ofNat 8 (crc / 256), BitVec.ofNat 8 crc] := rfl
  have ht : (body ++ [BitVec.ofNat 8 (crc / 256), BitVec.ofNat 8 crc]).take (body.length + 2 - 2) = body := by simp
  have hhigh : (body ++ [BitVec.ofNat 8 (crc / 256), BitVec.ofNat 8 crc]).getD (body.length + 2 - 2) 0 =
      BitVec.ofNat 8 (crc / 256) := by simp
  have hlow : (body ++ [BitVec.ofNat 8 (crc / 256), BitVec.ofNat 8 crc]).getD (body.length + 2 - 1) 0 =
      BitVec.ofNat 8 crc := by simp
  have hsum : (crc16 body).toNat = 256 * (BitVec.ofNat 8 (crc / 256)).toNat + (BitVec.ofNat 8 crc).toNat := by
    simp only [BitVec.toNat_ofNat]
    omega
  have hcycle : (BitVec.ofNat 8 cycle).toNat = cycle := by
    rw [BitVec.toNat_ofNat]
    omega
  simp only [hn, h0, h1, h2, hd, ht, hhigh, hlow, hcount]
  rw [if_pos (by simp [hsum, hblen, hl]; omega), hmessages, unitOf_ofNat, hcycle]

/-- Settles O60: one round trip for each record. -/
theorem recordsAreReadBack : Obligations.RecordsAreReadBack := by
  refine ⟨fun u cycle l hc hl hfits => ?_, fun d seq _ h => ⟨validEntry_words d h, entryKind_words d seq⟩,
    fun released bank version h => unitRecordOfCopy_copy bank version h, fun echo outcome detail h => ?_⟩
  · exact frameOfBytes_frameBytes u hc hl fun m hm x counter balance he => hfits x counter balance (he ▸ hm)
  · intro w
    obtain ⟨hecho, houtcome, hdetail⟩ := resultWord_fields outcome detail h
    have hlt := w.isLt
    refine ⟨?_, ?_, ?_⟩
    · simpa [bits] using hecho
    · simpa [bits] using houtcome
    · rw [← hdetail, bits, Nat.mod_eq_of_lt (by omega)]
      rfl

end

end Sys2Proof.Machine

/-! ### The word operation of a port (R168 to R172) -/

namespace Sys2Proof.Machine

section
variable {s r u : State} {a : Nat} {source : FaultSource} {mode : Option Mode} {n : Lane} {left : Fin 4}

theorem spendCorrection_eq (hu : s.unit ≠ .faulted) :
    s.spendCorrection = { s with budget := s.budget - 1, status := { s.status with
      notices := if s.budget ≤ 1 then s.status.notices ||| BitVec.ofNat 18 (2 ^ 11) else s.status.notices } } := by
  unfold State.spendCorrection
  rw [if_neg hu]
  by_cases hb : s.budget ≤ 1
  · rw [if_pos hb]
    exact if_pos (by show s.budget - 1 = 0; omega)
  · rw [if_neg hb]
    exact if_neg (by show ¬ s.budget - 1 = 0; omega)

/-- A scrubbed word has no wrong bit (R168). -/
theorem health_scrub_self {m : Memory} (a : Nat) (h : m.wf = true) : (m.scrub a).health a = .clean :=
  Memory.health_of_upset (Memory.upset_scrub_self a h)

/-- A word operation that reads, said of its three cases (R168, R170). -/
theorem State.Serves.of_read {x : Answer} {v : State} (hw : s.memory.wf = true)
    (hclean : s.memory.health a = .clean → x = .done (some (s.memory.word a)) ∧ v = s)
    (hcorrected : s.memory.health a = .corrected → x = .done (some (s.memory.word a))
      ∧ v = { s with memory := s.memory.scrub a, budget := s.budget - 1, status := { s.status with
          notices := if s.budget ≤ 1 then s.status.notices ||| BitVec.ofNat 18 (2 ^ 11) else s.status.notices } })
    (hbad : s.memory.health a = .uncorrectable → x = .failed (some (BitVec.allOnes 32))
      ∧ v = s.faulted .uncorrectable source (some a) (some .read) mode) :
    s.Serves a .read source mode x v where
  readClean _ h := hclean h
  readCorrected _ h := by
    obtain ⟨rfl, rfl⟩ := hcorrected h
    exact ⟨rfl, fun _ => rfl, health_scrub_self a hw, fun b hb => Memory.upset_scrub_other hb, rfl⟩
  readUncorrectable _ h := hbad h
  writeWhole _ _ h := nomatch h
  writeCorrected _ _ h := nomatch h
  writeUncorrectable _ _ h := nomatch h

/-- A port's read serves its word (R168, R170). -/
theorem portRead_serves (hw : s.memory.wf = true) (hu : s.unit ≠ .faulted) (source : FaultSource) (mode : Option Mode) :
    s.Serves a .read source mode (s.portRead a source mode).1 (s.portRead a source mode).2 := by
  refine .of_read hw (fun h => ?_) (fun h => ?_) (fun h => ?_)
  · simp [State.portRead, h]
  · simp only [State.portRead, h, true_and]
    exact spendCorrection_eq (s := s.setMemory (s.memory.scrub a)) hu
  · simp only [State.portRead, h, true_and]
    exact reportFault_reported hu _ _ _ _ _

/-- A port's write serves its word (R171). -/
theorem portWrite_serves {e : BitVec 4} (he : e ≠ 0) (d : Word) (hw : s.memory.wf = true) (hu : s.unit ≠ .faulted)
    (source : FaultSource) (mode : Option Mode) :
    s.Serves a (.write e d) source mode (writeAnswer (s.portWrite a e d source mode).1)
      (s.portWrite a e d source mode).2 where
  readClean h := nomatch h
  readCorrected h := nomatch h
  readUncorrectable h := nomatch h
  writeWhole := by
    rintro _ _ ⟨rfl, rfl⟩ - h
    have hwrite : s.portWrite a e d source mode = (true, s.writeWord a (mergeBytes e (s.memory.word a) d)) := by
      by_cases hf : e = 0xF
      · subst hf
        simp [State.portWrite]
      · rw [portWrite_clean e d source mode (h.resolve_left hf), if_neg he]
    rw [hwrite]
    exact ⟨rfl, Memory.word_writeWord_self a _ hw, fun b hb => Memory.byte_writeWord_other _ hb,
      Memory.health_writeWord_self a _ hw, rfl⟩
  writeCorrected := by
    rintro _ _ ⟨rfl, rfl⟩ - hf h
    have hwrite : s.portWrite a e d source mode =
        (true, (s.writeWord a (mergeBytes e (s.memory.word a) d)).spendCorrection) := by
      unfold State.portWrite
      rw [if_neg he, if_neg hf]
      simp only [h]
    rw [hwrite]
    refine ⟨rfl, ?_, fun b hb => ?_, ?_, ?_⟩
    · simpa using Memory.word_writeWord_self a _ hw
    · simpa using Memory.byte_writeWord_other _ hb
    · simpa using Memory.health_writeWord_self a _ hw
    · rw [spendCorrection_eq (s := s.writeWord a _) hu]
      rfl
  writeUncorrectable := by
    rintro _ _ ⟨rfl, rfl⟩ - hf h
    have hwrite : s.portWrite a e d source mode = (false, s.faulted .uncorrectable source (some a) (some .write) mode) := by
      unfold State.portWrite
      rw [if_neg he, if_neg hf]
      simp only [h, reportFault_reported hu]
    rw [hwrite]
    exact ⟨rfl, rfl⟩

/-- A port's write without byte enables changes nothing (R171). -/
theorem portWrite_none (d : Word) (source : FaultSource) (mode : Option Mode) :
    s.portWrite a 0 d source mode = (true, s) := rfl

/-- What a port's write may change (R171): memory, a correction spent, and a fault. -/
theorem portWrite_frame (e : BitVec 4) (d : Word) (source : FaultSource) (mode : Option Mode) :
    (s.portWrite a e d source mode).2 = { s with
      memory := (s.portWrite a e d source mode).2.memory, budget := (s.portWrite a e d source mode).2.budget
      faultRecord := (s.portWrite a e d source mode).2.faultRecord
      status := { s.status with notices := (s.portWrite a e d source mode).2.status.notices } } := by
  unfold State.portWrite
  split_ifs
  · rfl
  · rfl
  · split
    · rfl
    · simp only []
      rw [spendCorrection_frame]
      rfl
    · simp only []
      rw [reportFault_frame]

/-- The same of a port's read. -/
theorem portRead_frame (a : Nat) (source : FaultSource) (mode : Option Mode) :
    (s.portRead a source mode).2 = { s with
      memory := (s.portRead a source mode).2.memory, budget := (s.portRead a source mode).2.budget
      faultRecord := (s.portRead a source mode).2.faultRecord
      status := { s.status with notices := (s.portRead a source mode).2.status.notices } } := by
  unfold State.portRead
  split
  · rfl
  · simp only []
    rw [spendCorrection_frame]
    rfl
  · simp only []
    rw [reportFault_frame]

/-! #### A word made at a free Processor Port -/

/-- The port and the arbiter when the one word of a free Processor Port is made (R159, R167): a write without byte enables
needs no choice. -/
def State.processorMakes (s : State) (w : ProcessorWord) : State :=
  { s with
    processor := { s.processor with words := [w], taken := !needsNoOperation w.access }
    arbiter := { s.arbiter with losses := if needsNoOperation w.access then s.arbiter.losses else 0 } }

/-- Where nothing else waits, an admitted word at a free Processor Port is made at once (R159, R167). -/
theorem makeWord_idle {w : ProcessorWord} {area : Area} (hs : s.Sound) (hturn : s.processor.words = []) (hpath : s.PathIdle)
    (hon : s.unit = .scanning ∨ s.unit = .ready ∨ s.unit = .faulted) (hm : s.mustWait w = false)
    (hj : s.judge w.address (.processor w.mode) w.access = .ok area)
    (ht : ((s.processorMakes w).performProcessor w).processor.taken = false)
    (hq : ((s.processorMakes w).performProcessor w).processor.words = []
      ∨ ((s.processorMakes w).performProcessor w).processor.held.isSome = true) :
    s.makeWord w = (s.processorMakes w).note ((s.processorMakes w).performProcessor w) := by
  obtain ⟨htaken, hheld⟩ := hs.processor hturn
  generalize hv : ({ s with processor := { s.processor with words := [w] } } : State) = v
  have hpresent : s.presentWord w = State.pumpProcessor 1 v := by
    unfold State.presentWord State.resumeProcessor
    rcases hon with h | h | h <;> simp only [h, hturn, List.nil_append, hv] <;> rw [← hv] <;> rfl
  have hvw : v.processor.words = [w] := by rw [← hv]
  have hvt : v.processor.taken = false := by rw [← hv]; exact htaken
  have hvh : v.processor.held = none := by rw [← hv]; exact hheld
  have hvm : v.mustWait w = false := by rw [← hv]; exact hm
  have hvj : v.judge w.address (.processor w.mode) w.access = .ok area := by rw [← hv]; exact hj
  have hpump : State.pumpProcessor 1 v = v.note (v.takeProcessor w) := by
    unfold State.pumpProcessor
    simp only [hvw, hvt, hvh, hvm, Option.isSome_none, Bool.or_self, Bool.false_eq_true, if_false]
    rfl
  have hrest : ∀ (z : State) (m : Nat), z.processor.words = [] ∨ z.processor.held.isSome = true →
      State.pumpProcessor m z = z := by
    rintro z (_ | m) hz
    · rfl
    · unfold State.pumpProcessor
      rcases hz with hz | hz
      · rw [hz]
      · split
        · rfl
        · simp [hz]
  have hdrive : ∀ (z : State) (m : Nat), z.processor.taken = false → State.driveProcessor m z = z := by
    rintro z (_ | m) hz
    · rfl
    · simp [State.driveProcessor, hz]
  unfold State.makeWord
  rw [if_pos hturn, hpresent, hpump]
  unfold State.takeProcessor
  simp only [hvj]
  by_cases hn : needsNoOperation w.access = true
  · have hmakes : s.processorMakes w = v := by rw [← hv]; simp [State.processorMakes, hn, htaken]
    rw [hmakes] at ht ⊢
    rw [if_pos hn]
    exact hdrive _ _ (by rw [note_processor]; exact ht)
  · rw [if_neg hn, note_same (s := v) (t := { v with processor := { v.processor with taken := true } }) fun i => rfl]
    have hn : needsNoOperation w.access = false := by simpa using hn
    generalize hz : ({ v with processor := { v.processor with taken := true } } : State) = z
    have hzt : z.processor.taken = true := by rw [← hz]
    have hchoice : z.choice = some .processor := by
      have hb : z.arbiter.requests = [] := by rw [← hz, ← hv]; exact hpath.blocks
      have hrd : z.reader.taken = false := by rw [← hz, ← hv]; exact hpath.reader
      unfold State.choice
      by_cases hl : 4 ≤ z.arbiter.losses
      · rw [if_pos ⟨hzt, hl⟩]
      · rw [if_neg fun h => hl h.2]
        simp [requesters, List.find?, State.waits, hb, hrd, hzt]
    have hcount : z.countLoss .processor = s.processorMakes w := by
      rw [← hz, ← hv]
      simp [State.countLoss, State.processorMakes, hn]
    have harb : z.arbitrate = (s.processorMakes w).note ((s.processorMakes w).performProcessor w) := by
      unfold State.arbitrate
      rw [hchoice]
      simp only [hcount]
      unfold State.serveProcessor
      rw [show (s.processorMakes w).processor.words = [w] from rfl]
      exact hrest _ _ (by rw [note_processor]; exact hq)
    rw [State.driveProcessor, if_pos hzt, harb]
    exact hdrive _ _ (by rw [note_processor]; exact ht)

/-- A write that the map admits is made, and its answer is given, where its owner does not hold the answer back (R171). -/
theorem performProcessor_write {w : ProcessorWord} {e : BitVec 4} {d : Word} {b : Bool} {t : State}
    (hx : w.access = .write e d) (hwrite : r.processorWrite w e d = (b, t)) (hheld : t.processor.held = none) :
    r.performProcessor w = t.answer (writeAnswer b) := by
  unfold State.performProcessor
  rw [hx]
  simp [hwrite, hheld]

/-! #### A word made at a free Reader Port -/

/-- The port and the arbiter when the one word of a free Reader Port is made (R160, R167). -/
def State.readerMakes (s : State) (left : Fin 4) (w : ReaderWord) (e : BitVec 4) : State :=
  { s with
    reader := { s.reader with words := [w], taken := !(e == 0), left := left }, arbiter := s.readerServed e }

theorem chosen_taken (p : ReaderPort) (present : Quad Bool) : (p.chosen present).taken = p.taken := by
  unfold ReaderPort.chosen
  split <;> rfl

/-- An answer leaves no word waiting that did not wait before. -/
theorem answering_taken (p : ReaderPort) (left : Fin 4) (x : ReaderSignal) (present : Quad Bool) :
    (p.answering left x present).taken = p.taken := by
  unfold ReaderPort.answering
  dsimp only
  split_ifs
  · exact chosen_taken _ _
  · rfl

/-- The Reader Port's word is chosen where no processor word waits at a loss count of 4 (R167). -/
theorem choice_reader (ht : s.reader.taken = true) (hf : s.ReaderFirst) : s.choice = some .reader := by
  unfold State.choice
  rw [if_neg]
  · simp [requesters, List.find?, State.waits, ht]
  · rintro ⟨h1, h2⟩
    exact absurd (hf h1) (by omega)

theorem countLoss_passedOver {x : Requester} (hx : x ≠ .processor) :
    s.countLoss x = { s with arbiter := s.passedOver } := by
  simp [State.countLoss, State.passedOver, hx, saturate]

/-- Where nothing goes before it, an admitted write at a free Reader Port is made at once, and answered; the grant ends with
the last word of an access during which the request was dropped (R13, R14, R160, R167). -/
theorem makeReaderWord_ends {e : BitVec 4} {d : Word} {area : Area} {b : Bool} {u : State} (h : s.ReaderTurn n)
    (hf : s.ReaderFirst) (hr : s.unit = .ready) (hj : s.judge a (.reader n) (.write e d) = .ok area)
    (hwrite : (s.readerMakes left ⟨n, a, .write e d⟩ e).readerWrite ⟨n, a, .write e d⟩ e d = (b, u))
    (hreader : u.reader = (s.readerMakes left ⟨n, a, .write e d⟩ e).reader) (hcfg : u.cfg = s.cfg)
    (hstart : u.startUp = s.startUp) :
    ({ u with reader := s.reader.answering left (.answer n (writeAnswer b)) s.cfg.present }).Mirrored
      (s.makeReaderWord left ⟨n, a, .write e d⟩) := by
  have htaken := h.sound.reader h.turn
  generalize hw : (⟨n, a, .write e d⟩ : ReaderWord) = w at *
  generalize hm : s.readerMakes left w e = m at *
  have hperform : m.performReader w = u.answerReader n (writeAnswer b) := by
    rw [← hw] at hwrite ⊢
    unfold State.performReader
    simp only [hwrite]
  have hunit : u.unit = .ready := by rw [← hr, State.unit, hstart]; rfl
  have hends := answerReader_ends (s := m) (u := u) (n := n) (a := writeAnswer b) hunit
    (by rw [hreader, ← hm]; rfl)
  have hport : ({ u.reader with words := [], taken := false } : ReaderPort).answering u.reader.left
      (.answer n (writeAnswer b)) u.cfg.present = s.reader.answering left (.answer n (writeAnswer b)) s.cfg.present := by
    have hp : s.reader = { s.reader with words := [], taken := false } := by rw [← h.turn, ← htaken]
    rw [hreader, hcfg, ← hm, hp]
    rfl
  simp only [hport] at hends
  have hdone : (m.note (u.answerReader n (writeAnswer b))).resumeReader.reader.taken = false := by
    rw [hends.reader]
    exact (answering_taken _ _ _ _).trans htaken
  have hdrive : ∀ (z : State) (k : Nat), z.reader.taken = false → State.driveReader k z = z := by
    rintro z (_ | k) hz
    · rfl
    · simp [State.driveReader, hz]
  suffices hmade : s.makeReaderWord left w = (m.note (u.answerReader n (writeAnswer b))).resumeReader by
    rw [hmade]
    exact hends
  unfold State.makeReaderWord
  rw [if_pos h.turn]
  by_cases he : e = 0
  · subst he
    have hmakes : { s with reader := { s.reader with left := left, words := [w] } } = m := by
      rw [← hm]
      simp [State.readerMakes, State.readerServed, htaken]
    have hpresent : s.presentReader left w = (m.note (u.answerReader n (writeAnswer b))).resumeReader := by
      unfold State.presentReader
      rw [if_pos ⟨by rw [← hw]; exact h.owner, h.kept⟩, h.turn, List.nil_append, hmakes]
      have htake : m.takeReader w = u.answerReader n (writeAnswer b) := by
        rw [← hperform]
        unfold State.takeReader
        have hj' : m.judge w.address (.reader w.lane) w.access = .ok area := by rw [← hm, ← hw]; exact hj
        rw [hj', ← hw]
        rfl
      have hpump : m.pumpReader 1 = m.note (u.answerReader n (writeAnswer b)) := by
        unfold State.pumpReader
        have hmw : m.reader.words = [w] := by rw [← hm]; rfl
        have hmt : m.reader.taken = false := by rw [← hm]; rfl
        simp only [hmw, hmt, htake, Bool.false_eq_true, if_false]
        rfl
      have hleft : (m.note (u.answerReader n (writeAnswer b))).reader.words = [] := by
        rw [note_reader]
        simp [State.answerReader, State.signal, hreader, ← hm, State.readerMakes]
      have hmw : m.reader.words = [w] := by rw [← hm]; rfl
      unfold State.resumeReader
      rw [hmw, List.length_singleton, hpump, hleft]
      rfl
    rw [hpresent]
    exact hdrive _ _ hdone
  · have hn : needsNoOperation (.write e d) = false := by simpa [needsNoOperation] using he
    have hpresent := presentReader_waits h (left := left) hj hn
    rw [hw] at hpresent
    rw [hpresent]
    generalize hz : ({ s with reader := { s.reader with words := [w], taken := true, left := left } } : State) = z
    have hzt : z.reader.taken = true := by rw [← hz]
    have hcount : z.countLoss .reader = m := by
      rw [countLoss_passedOver (by decide), ← hz, ← hm]
      have heb : (e == 0) = false := beq_eq_false_iff_ne.mpr he
      simp only [State.readerMakes, State.readerServed, if_neg he, heb, Bool.not_false]
      rfl
    have harb : z.arbitrate = (m.note (u.answerReader n (writeAnswer b))).resumeReader := by
      unfold State.arbitrate
      rw [choice_reader hzt (by rw [← hz]; exact hf)]
      simp only [hcount]
      unfold State.serveReader
      rw [show m.reader.words = [w] by rw [← hm]; rfl]
      simp only [hperform]
    rw [State.driveReader, if_pos hzt, harb]
    exact hdrive _ _ hdone

/-- A refused write at a free Reader Port is answered at once (R160, R165, R172). -/
theorem makeReaderWord_refused {x : Access} {f : PathFault} (h : s.ReaderTurn n) (hr : s.unit = .ready)
    (hj : s.judge a (.reader n) x = .error f) :
    ({ s.faulted f (.reader n) (some a) (some (accessDirection x)) none with
        reader := s.reader.answering left (.answer n (failedAnswer x)) s.cfg.present }).Mirrored
      (s.makeReaderWord left ⟨n, a, x⟩) := by
  have hm := presentReader_refused h hr (left := left) hj
  have hdone : (s.presentReader left ⟨n, a, x⟩).reader.taken = false := by
    rw [hm.reader]
    exact (answering_taken _ _ _ _).trans (h.sound.reader h.turn)
  unfold State.makeReaderWord
  rw [if_pos h.turn]
  simpa [State.driveReader, hdone] using hm

end

end Sys2Proof.Machine

/-! ### The commit of a lane (R89, R102 to R104) -/

namespace Sys2Proof.Machine

section
variable {s t : State} {n : Lane} {recovered : Bool}

/-- Lane `n` with its COMMIT entry requested, whatever the lookup has found (R89, R102). -/
def State.committing (s : State) (n : Lane) (recovered conflict : Bool) (table : List Sighting) : State :=
  State.request
    { s with sightings := table, lanes := s.lanes.set n { s.lane n with appending := true, timer := .stopped } }
    (.append (s.entryOf n (.commit conflict recovered) true (s.lane n).pendingSeq) (.credit n s.clock))

/-- The SIGHTING message of a commit (R104). -/
def State.commitMessage (s : State) (n : Lane) : TransmitMessage :=
  .sighting (cardSerial (s.lane n).image) (cardCounter (s.lane n).image + 1) (s.lane n).chargedBalance

theorem committing_eq (conflict : Bool) (table : List Sighting) :
    let u := ({ s with sightings := table } : State).setLane n { s.lane n with timer := .stopped }
    u.requestAppend n (u.chargedDraft n (.commit conflict recovered) (s.lane n).pendingSeq) (.credit n s.clock) =
      s.committing n recovered conflict table := by
  intro u
  have hlane : u.lane n = { s.lane n with timer := .stopped } := Quad.get_set_self _ _ _
  have hdraft : u.chargedDraft n (.commit conflict recovered) (s.lane n).pendingSeq =
      s.entryOf n (.commit conflict recovered) true (s.lane n).pendingSeq := by
    rw [← chargedDraft_eq]
    simp only [State.chargedDraft, hlane]
    rfl
  rw [hdraft, State.requestAppend, hlane]
  simp only [State.setLane, u, State.committing, Quad.set_set]

/-- The commit where the table holds no live entry above the landed Counter (R102): this use of the card is set. -/
theorem commit_agreed
    (h : ∀ f, s.sightings.find? (fun f => f.serial == cardSerial (s.lane n).image) = some f → s.Live f →
      f.counter ≤ cardCounter (s.lane n).image) :
    ∃ table, s.commit n recovered = (s.committing n recovered false table).transmit (s.commitMessage n)
      ∧ (∀ now, s.clock = some now → SightingSet (s.lookedUp (cardSerial (s.lane n).image))
          ⟨cardSerial (s.lane n).image, cardCounter (s.lane n).image + 1, (s.lane n).chargedBalance, s.cfg.unitId, now, .own⟩
          table)
      ∧ (s.clock = none → table = s.sightings) := by
  set x := cardSerial (s.lane n).image with hx
  obtain ⟨table, htable, hset, hunset⟩ := setSighting_lookedUp (s := s) x (cardCounter (s.lane n).image + 1)
    (s.lane n).chargedBalance s.cfg.unitId .own
  refine ⟨table, ?_, hset, hunset⟩
  have hlook : commitConflict (cardCounter (s.lane n).image) (s.lookSighting x s.clock).1 = false
      ∧ (s.lookSighting x s.clock).2 = { s with sightings := s.lookedUp x } := by
    by_cases hl : ∃ e, s.sightings.find? (fun f => f.serial == x) = some e ∧ s.Live e
    · obtain ⟨e, hf, hl⟩ := hl
      have hle := h e hf hl
      rw [lookSighting_of_live hf hl, lookedUp_of_live hf hl]
      exact ⟨decide_eq_false (by omega), rfl⟩
    · rw [lookSighting_of_not_live fun e hf hl' => hl ⟨e, hf, hl'⟩]
      exact ⟨rfl, rfl⟩
  rw [← committing_eq, ← htable, ← hlook.2]
  unfold State.commit
  simp only [← hx, hlook.1, Bool.false_eq_true, if_false]
  rw [hlook.2, htable]
  rfl

/-- The commit where a live entry stands above the landed Counter (R102, R103): the card is denied. -/
theorem commit_conflict {f : Sighting} (hf : s.sightings.find? (fun f => f.serial == cardSerial (s.lane n).image) = some f)
    (hl : s.Live f) (hc : cardCounter (s.lane n).image < f.counter) :
    s.commit n recovered =
      (((s.committing n recovered true s.sightings).addOwnDeny (cardSerial (s.lane n).image) .clone).2).transmit
        (s.commitMessage n) := by
  have hconflict : commitConflict (cardCounter (s.lane n).image) (some f) = true := decide_eq_true (by omega)
  rw [← committing_eq]
  unfold State.commit
  simp only [lookSighting_of_live hf hl, hconflict, if_true]
  rfl

/-- What a commit may change (R102 to R104). -/
theorem commit_frame (s : State) (n : Lane) (recovered : Bool) :
    s.commit n recovered = { s with
      lanes := s.lanes.set n { s.lane n with appending := true, timer := .stopped }
      sightings := (s.commit n recovered).sightings, denyList := (s.commit n recovered).denyList
      journal := (s.commit n recovered).journal
      line := { s.line with
        queue := (s.commit n recovered).line.queue, dropped := (s.commit n recovered).line.dropped }
      status := { s.status with notices := (s.commit n recovered).status.notices } } := by
  by_cases h : ∀ f, s.sightings.find? (fun f => f.serial == cardSerial (s.lane n).image) = some f → s.Live f →
      f.counter ≤ cardCounter (s.lane n).image
  · obtain ⟨table, hcommit, -⟩ := commit_agreed (recovered := recovered) h
    rw [hcommit, transmit_eq, State.committing, request_frame, Line.joined_frame]
  · push Not at h
    obtain ⟨f, hf, hl, hlow⟩ := h
    rw [commit_conflict hf hl hlow, transmit_eq, addOwnDeny_frame, State.committing, request_frame, Line.joined_frame]

/-- What the commit of lane `n` leaves, the comparing mark being cleared before and the rest of the machine being as in
`u`. -/
theorem commit_commits {memory : Memory} {reader : ReaderPort} {arbiter : Arbiter} (p : ReaderPort) {c : State}
    (hc : c = ({ s with
        memory := memory, reader := reader, arbiter := arbiter
        lanes := s.lanes.set n { s.lane n with comparing := false } } : State).commit n recovered)
    (hm : ({ c with reader := p }).Mirrored t) :
    s.Commits n recovered { s with memory := memory, reader := p, arbiter := arbiter } t := by
  set m : State := { s with
    memory := memory, reader := reader, arbiter := arbiter
    lanes := s.lanes.set n { s.lane n with comparing := false } } with hmdef
  have hlane : m.lane n = { s.lane n with comparing := false } := Quad.get_set_self _ _ _
  have himage : (m.lane n).image = (s.lane n).landed.getD (Vector.replicate 16 0) := by rw [hlane]; rfl
  have hcharged : (m.lane n).chargedBalance = BitVec.ofInt 32 (cardBalance ((s.lane n).landed.getD (Vector.replicate 16 0))
      - ((s.lane n).verdict.map (·.fare)).getD 0) := by rw [hlane]; rfl
  have hentry (kind : TransactionKind) : m.entryOf n kind true (m.lane n).pendingSeq =
      s.entryOf n kind true (s.lane n).pendingSeq := by
    simp only [State.entryOf, hlane]
    rfl
  have hlanes : m.lanes.set n { m.lane n with appending := true, timer := .stopped } =
      s.lanes.set n { s.lane n with appending := true, comparing := false, timer := .stopped } := by
    rw [hlane, hmdef, Quad.set_set]
  have hcommitting (conflict : Bool) (table : List Sighting) : m.committing n recovered conflict table =
      { m with
        sightings := table
        lanes := s.lanes.set n { s.lane n with appending := true, comparing := false, timer := .stopped }
        journal := (s.request (.append (s.entryOf n (.commit conflict recovered) true (s.lane n).pendingSeq)
          (.credit n s.clock))).journal } := by
    unfold State.committing
    have hjournal (l : Quad LaneContext) (r : JournalRequest) :
        (State.request { m with sightings := table, lanes := l } r).journal = (s.request r).journal := request_congr rfl rfl
    rw [request_frame, hentry, hlanes, hjournal]
  have hmessage : m.commitMessage n = .sighting (cardSerial ((s.lane n).landed.getD (Vector.replicate 16 0)))
      (cardCounter ((s.lane n).landed.getD (Vector.replicate 16 0)) + 1)
      (BitVec.ofInt 32 (cardBalance ((s.lane n).landed.getD (Vector.replicate 16 0))
        - ((s.lane n).verdict.map (·.fare)).getD 0)) := by
    rw [State.commitMessage, himage, hcharged]
  have hagreed := fun h => commit_agreed (s := m) (n := n) (recovered := recovered) h
  have hconflict := fun f h1 h2 h3 => commit_conflict (s := m) (n := n) (recovered := recovered) (f := f) h1 h2 h3
  rw [← hc, himage] at hagreed hconflict
  rw [hmessage] at hagreed hconflict
  simp only [hcommitting, hcharged] at hagreed hconflict
  have hframe := commit_frame (s := m) n recovered
  rw [← hc, hlanes] at hframe
  have hsightings : t.sightings = c.sightings := by rw [hm]
  refine ⟨?frame, fun h => ?agreed, fun f hf hl hlow => ⟨?sightings, fun hin => ?denied, fun hout => ?added⟩⟩
  case frame =>
    rw [hsightings, hm.denyList, hm.journal, hm.line, hm.notices]
    rw [hframe] at hm
    exact hm
  case agreed =>
    obtain ⟨table, hcommit, hset, hunset⟩ := hagreed h
    rw [hsightings, hm.denyList, hm.notices, hm.journal, hm.line, hcommit, transmit_eq]
    exact ⟨hset, hunset, rfl, rfl, rfl, rfl⟩
  all_goals
    have hcommit := hconflict f hf hl hlow
    rw [transmit_eq] at hcommit
  case sightings =>
    rw [hsightings, hcommit, addOwnDeny_frame]
  case denied =>
    rw [addOwnDeny_of_denied (by exact hin)] at hcommit
    rw [hm.denyList, hm.notices, hm.journal, hm.line, hcommit]
    exact ⟨rfl, rfl, rfl, rfl⟩
  case added =>
    rw [addOwnDeny_of_absent (by exact hout)] at hcommit
    rw [hm.denyList, State.Notified, hm.notices, hm.journal, hm.line, hcommit]
    refine ⟨rfl, rfl, ?_, rfl⟩
    exact request_congr rfl (by rw [request_frame])

end

end Sys2Proof.Machine

/-! ### Landing words, tap words, result words and bank words (R6 to R11, R45, R88) -/

namespace Sys2Proof.Machine

section
variable {s t u : State} {a : Nat} {source : Source} {x : Access} {r : RegionEntry} {area : Area} {i : Instr} {n : Lane}
  {left : Fin 4} {e : BitVec 4} {d : Word}

/-! #### The Region Map's verdict (R162 to R164) -/

/-- The lesser of two rights allows what both allow (R163). -/
theorem allows_lesser (p q : Right) (y : AccessDirection) : (p.lesser q).allows y = (p.allows y && q.allows y) := by
  cases p <;> cases q <;> cases y <;> rfl

/-- The verdict on a word that lies in a region (R163, R164). -/
theorem judge_located (h : s.locate a = some (r, area)) :
    s.judge a source x =
      if (ceiling area source).allows (accessDirection x) = true
          ∧ (configuredRight r source).allows (accessDirection x) = true then
        match s.stateTest area source x with
        | some f => .error f
        | none => .ok area
      else .error .rights := by
  unfold State.judge
  simp only [h, allows_lesser, Bool.and_eq_true] <;> rfl

/-- A word is admitted in the area where it lies, by both rights and the state test (R162 to R164). -/
theorem judge_ok_iff :
    s.judge a source x = .ok area ↔ ∃ r, s.locate a = some (r, area) ∧ (ceiling area source).allows (accessDirection x) = true
      ∧ (configuredRight r source).allows (accessDirection x) = true ∧ s.stateTest area source x = none := by
  cases hl : s.locate a with
  | none => simp [State.judge, hl]
  | some p =>
    obtain ⟨r, area'⟩ := p
    rw [judge_located hl]
    by_cases hr : (ceiling area' source).allows (accessDirection x) = true
        ∧ (configuredRight r source).allows (accessDirection x) = true
    · rw [if_pos hr]
      cases ht : s.stateTest area' source x with
      | some f =>
        simp only [Option.some.injEq, Prod.mk.injEq, reduceCtorEq, false_iff]
        rintro ⟨_, ⟨rfl, rfl⟩, -, -, h⟩
        simp [ht] at h
      | none =>
        constructor
        · intro h
          obtain rfl : area' = area := Except.ok.inj h
          exact ⟨r, rfl, hr.1, hr.2, ht⟩
        · rintro ⟨_, h, -⟩
          obtain ⟨rfl, rfl⟩ := Prod.mk.inj (Option.some.inj h)
          rfl
    · rw [if_neg hr]
      simp only [Option.some.injEq, Prod.mk.injEq, reduceCtorEq, false_iff]
      rintro ⟨_, ⟨rfl, rfl⟩, h1, h2, -⟩
      exact hr ⟨h1, h2⟩

/-! #### A write that lands (R171) -/

/-- Memory after an admitted write that is performed (R171). -/
def State.landed (s : State) (a : Nat) (e : BitVec 4) (d : Word) : Memory :=
  if e = 0 then s.memory else s.memory.writeWord a (mergeBytes e (s.memory.word a) d)

theorem portWrite_landed (h : e = 0 ∨ e = 0xF ∨ s.memory.health a = .clean) (d : Word) (f : FaultSource) (m : Option Mode) :
    s.portWrite a e d f m = (true, { s with memory := s.landed a e d }) := by
  unfold State.landed
  by_cases he : e = 0
  · subst he
    rfl
  · rw [if_neg he]
    by_cases hf : e = 0xF
    · subst hf
      simp [State.portWrite, State.writeWord, State.setMemory]
    · rw [portWrite_clean e d f m ((h.resolve_left he).resolve_left hf), if_neg he]
      rfl

theorem landed_word (hw : s.memory.wf = true) (a : Nat) (e : BitVec 4) (d : Word) :
    (s.landed a e d).word a = mergeBytes e (s.memory.word a) d := by
  unfold State.landed
  split_ifs with he
  · simp [he]
  · exact Memory.word_writeWord_self a _ hw

theorem landed_bytes (s : State) (a : Nat) (e : BitVec 4) (d : Word) (b : Nat) (h : b < a ∨ a + 4 ≤ b) :
    (s.landed a e d).byte b = s.memory.byte b := by
  unfold State.landed
  split_ifs
  · rfl
  · exact Memory.byte_writeWord_other _ h

/-- The word on which the owner of a watched word acts is the word as it then stands (R171). -/
theorem writtenWord_landed (hw : s.memory.wf = true) (h : e = 0xF ∨ s.memory.health a = .clean) (d : Word) :
    State.writtenWord { s with memory := s.landed a e d } a e =
      (mergeBytes e (s.memory.word a) d, { s with memory := s.landed a e d }) := by
  unfold State.writtenWord
  have hword : ({ s with memory := s.landed a e d } : State).memory.word a = mergeBytes e (s.memory.word a) d :=
    landed_word hw a e d
  by_cases he : e = 0
  · subst he
    have hclean : s.memory.health a = .clean := h.resolve_left (by decide)
    rw [if_pos rfl]
    simp [State.standing, State.landed, hclean]
  · rw [if_neg he, hword]

/-! #### The rows of the Reader Port -/

/-- The machine in which a write of the Reader Port has landed, its owner being still to act (R164). -/
def State.readerLanded (s : State) (left : Fin 4) (n : Lane) (a : Nat) (e : BitVec 4) (d : Word) : State :=
  { s.readerMakes left ⟨n, a, .write e d⟩ e with memory := s.landed a e d }

/-- A row in which the Reader Port's write is made, `u` being what its word operation and its owner make of it. -/
theorem readerRow_made {b : Bool}
    (hexec : exec i s = .next (s.settle (s.makeReaderWord left ⟨n, a, .write e d⟩))) (h : s.ReaderTurn n)
    (hf : s.ReaderFirst) (hr : s.unit = .ready) (hj : s.judge a (.reader n) (.write e d) = .ok area)
    {v : State} (hp : (s.readerMakes left ⟨n, a, .write e d⟩ e).portWrite a e d (.reader n) none = (b, v))
    (hu : (if b = true then v.readerWritten area a e else v) = u)
    (hreader : u.reader = (s.readerMakes left ⟨n, a, .write e d⟩ e).reader)
    (hcfg : u.cfg = s.cfg) (hstart : u.startUp = s.startUp) :
    ∃ t, exec i s = .next t
      ∧ ({ u with reader := s.reader.answering left (.answer n (writeAnswer b)) s.cfg.present }).Mirrored t := by
  have hwrite : (s.readerMakes left ⟨n, a, .write e d⟩ e).readerWrite ⟨n, a, .write e d⟩ e d = (b, u) := by
    have hj' : (s.readerMakes left ⟨n, a, .write e d⟩ e).judge a (.reader n) (.write e d) = .ok area := hj
    unfold State.readerWrite
    simp only [hj', hp]
    rw [← hu]
    cases b <;> rfl
  exact ⟨_, hexec, (makeReaderWord_ends h hf hr hj hwrite hreader hcfg hstart).trans (settle_mirrored _ _)⟩

/-- A row in which the Reader Port's write lands, and `u` is what its owner makes of it. -/
theorem readerRow_landed
    (hexec : exec i s = .next (s.settle (s.makeReaderWord left ⟨n, a, .write e d⟩))) (h : s.ReaderTurn n)
    (hf : s.ReaderFirst) (hr : s.unit = .ready) (hj : s.judge a (.reader n) (.write e d) = .ok area)
    (hland : e = 0 ∨ e = 0xF ∨ s.memory.health a = .clean)
    (hu : (s.readerLanded left n a e d).readerWritten area a e = u) (hreader : u.reader = (s.readerLanded left n a e d).reader)
    (hcfg : u.cfg = s.cfg) (hstart : u.startUp = s.startUp) :
    ∃ t, exec i s = .next t
      ∧ ({ u with reader := s.reader.answering left (.answer n (.done none)) s.cfg.present }).Mirrored t :=
  readerRow_made (b := true) (u := u) hexec h hf hr hj
    (portWrite_landed (s := s.readerMakes left ⟨n, a, .write e d⟩ e) hland d (.reader n) none) hu hreader hcfg hstart

/-- A row in which the Reader Port's write is refused. -/
theorem readerRow_refused {f : PathFault}
    (hexec : exec i s = .next (s.settle (s.makeReaderWord left ⟨n, a, x⟩))) (h : s.ReaderTurn n) (hr : s.unit = .ready)
    (hj : s.judge a (.reader n) x = .error f) :
    s.Yields i { s.faulted f (.reader n) (some a) (some (accessDirection x)) none with
      reader := s.reader.answering left (.answer n (failedAnswer x)) s.cfg.present } :=
  ⟨_, hexec, (makeReaderWord_refused h hr hj).trans (settle_mirrored _ _)⟩

/-- The verdict on a write that reader `n` makes in its own landing area (R6, R163). -/
theorem judge_landing (hl : s.locate a = some (r, area)) (hr : r.reader = .readWrite)
    (harea : area = .tap n ∨ ∃ k, area = .landing n k) :
    s.judge a (.reader n) (.write e d) = if s.landingOpen n then .ok area else .error .landingLocked := by
  rw [judge_located hl]
  rcases harea with rfl | ⟨k, rfl⟩ <;>
  · rw [if_pos ⟨by simp [ceiling, accessDirection, Right.allows], by simp [configuredRight, hr, accessDirection, Right.allows]⟩]
    simp only [State.stateTest]
    split_ifs <;> rfl

/-! #### LANDING_WORD_WRITE -/

/-- Settles O32: by whether the landing area is open, and by what the write meets. -/
theorem landingWordIsMarked : Obligations.LandingWordIsMarked := by
  intro s n left k e d r hturn hfirst hready hw hloc hright a isOpen marked partly
  have hexec : exec (.landingWordWrite ⟨n, left⟩ k e d) s = .next (s.settle (s.makeReaderWord left ⟨n, a, .write e d⟩)) := rfl
  have hjudge : s.judge a (.reader n) (.write e d) = if s.landingOpen n then .ok (.landing n k) else .error .landingLocked :=
    judge_landing hloc hright (.inr ⟨k, rfl⟩)
  have hopened (h : isOpen) : s.judge a (.reader n) (.write e d) = .ok (.landing n k) :=
    hjudge.trans (if_pos (landingOpen_iff.2 h))
  have hlands (h : isOpen) (hland : e = 0 ∨ e = 0xF ∨ s.memory.health a = .clean) :
      ∃ t, exec (.landingWordWrite ⟨n, left⟩ k e d) s = .next t
        ∧ ({ s with
              lanes := marked, reader := s.reader.answering left (.answer n (.done none)) s.cfg.present
              memory := s.landed a e d, arbiter := s.readerServed e }).Mirrored t := by
    obtain ⟨t, ht, hm⟩ := readerRow_landed hexec hturn hfirst hready (hopened h) hland
      (u := (s.readerLanded left n a e d).markLanding n k) rfl rfl rfl rfl
    exact ⟨t, ht, hm⟩
  refine ⟨fun h => ?locked, fun h he => ?none, fun h hland => ?whole, fun h hp hc => ?corrected, fun h hp hc => ?bad⟩
  case locked =>
    exact readerRow_refused hexec hturn hready (hjudge.trans (if_neg fun h' => h (landingOpen_iff.1 h')))
  case none =>
    subst he
    exact hlands h (.inl rfl)
  case whole =>
    have he : e ≠ 0 := by
      rcases hland with rfl | ⟨⟨h0, -⟩, -⟩
      · decide
      · exact h0
    obtain ⟨t, ht, hm⟩ := hlands h (.inr (hland.imp_right And.right))
    rw [State.readerServed, if_neg he] at hm
    refine ⟨t, ht, ?_, ?_, ?_, fun b hb => ?_⟩
    · rw [hm.memory]
      exact hm
    · rw [hm.memory]
      exact landed_word hw a e d
    · rw [hm.memory]
      exact (congrArg (Memory.health · a) (if_neg he)).trans (Memory.health_writeWord_self a _ hw)
    · rw [hm.memory]
      exact landed_bytes s a e d b hb
  case corrected =>
    obtain ⟨h0, hf⟩ := hp
    have hwrite : (s.readerMakes left ⟨n, a, .write e d⟩ e).portWrite a e d (.reader n) none =
        (true, ({ s.readerMakes left ⟨n, a, .write e d⟩ e with memory := s.landed a e d } : State).spendCorrection) := by
      have hc' : (s.readerMakes left ⟨n, a, .write e d⟩ e).memory.health a = .corrected := hc
      unfold State.portWrite State.landed
      rw [if_neg h0, if_neg hf, if_neg h0]
      simp only [hc']
      rfl
    rw [spendCorrection_eq (by show s.unit ≠ _; rw [hready]; decide)] at hwrite
    obtain ⟨t, ht, hm⟩ := readerRow_made hexec hturn hfirst hready (hopened h) hwrite rfl rfl rfl rfl
    have hmem : t.memory = s.landed a e d := hm.memory
    have hnotices : t.status.notices = if s.budget ≤ 1 then s.status.notices ||| BitVec.ofNat 18 (2 ^ 11)
        else s.status.notices := hm.notices
    refine ⟨t, ht, ?_, ?_, ?_, fun b hb => ?_, fun hb => ?_⟩
    · rw [hmem, hnotices]
      rw [State.readerMakes, State.readerServed, if_neg h0] at hm
      exact hm
    · rw [hmem]
      exact landed_word hw a e d
    · rw [hmem]
      exact (congrArg (Memory.health · a) (if_neg h0)).trans (Memory.health_writeWord_self a _ hw)
    · rw [hmem]
      exact landed_bytes s a e d b hb
    · rw [State.noticed, hnotices, if_pos hb]
      simp [Notice.bit]
  case bad =>
    obtain ⟨h0, hf⟩ := hp
    have hwrite : (s.readerMakes left ⟨n, a, .write e d⟩ e).portWrite a e d (.reader n) none =
        (false, (s.readerMakes left ⟨n, a, .write e d⟩ e).faulted .uncorrectable (.reader n) (some a) (some .write) none) := by
      have hc' : (s.readerMakes left ⟨n, a, .write e d⟩ e).memory.health a = .uncorrectable := hc
      unfold State.portWrite
      rw [if_neg h0, if_neg hf]
      simp only [hc']
      rw [reportFault_reported (by show s.unit ≠ _; rw [hready]; decide)]
    obtain ⟨t, ht, hm⟩ := readerRow_made hexec hturn hfirst hready (hopened h) hwrite rfl rfl rfl rfl
    rw [State.readerMakes, State.readerServed, if_neg h0] at hm
    exact ⟨t, ht, hm⟩

end

end Sys2Proof.Machine

/-! ### The tap word, the result word and the words of a bank (R9 to R11, R45, R77, R88 to R91) -/

namespace Sys2Proof.Machine

section
variable {s t u : State} {a : Nat} {n : Lane} {left : Fin 4} {e : BitVec 4} {d : Word}

/-! #### TAP_WORD_WRITE -/

/-- The pin that an arriving lane takes (R46). -/
theorem takePin_eq (s : State) (n : Lane) :
    s.takePin n = { s with
      banks := s.banks.pinnedOn s.activeBank, lanes := s.lanes.set n { s.lane n with pinned := s.activeBank } } := by
  unfold State.takePin
  cases s.activeBank with
  | none => rfl
  | some x => cases x <;> rfl

/-- A Reader Status by the low byte of its tap word (R9). -/
theorem readerStatusOf_eq (w : Word) :
    readerStatusOf w =
      if w.toNat % 256 = 1 then .good else if w.toNat % 256 = 2 then .collision else .readError := by
  have hbits : bits w 0 8 = w.toNat % 256 := by simp [bits]
  unfold readerStatusOf
  rw [hbits]
  split
  · rename_i h
    rw [if_pos h]
  · rename_i h
    rw [if_neg (by omega), if_pos h]
  · rename_i h1 h2
    rw [if_neg h1, if_neg h2]

/-- The arrival that a tap word makes at lane `n` (R10). -/
def State.arrivalOf (s : State) (n : Lane) (w : Word) : Arrival :=
  { status := readerStatusOf w, complete := decide ((s.lane n).mask = 0xFFFF), time := s.clock }

/-- An arrival at an IDLE lane begins its transaction (R77). -/
theorem arrive_idle (h : (s.lane n).state = .idle) (w : Word) :
    s.arrive n w = { s with
      banks := s.banks.pinnedOn s.activeBank
      screening := { s.screening with queue := s.screening.queue ++ [n] }
      lanes := s.lanes.set n { s.lane n with
        state := .screening, pinned := s.activeBank, reservation := 0, reissues := 0, resetRequested := false
        arrival := some (s.arrivalOf n w) } } := by
  have hlane : State.lane { s with
      banks := s.banks.pinnedOn s.activeBank, lanes := s.lanes.set n { s.lane n with pinned := s.activeBank } } n =
      { s.lane n with pinned := s.activeBank } := Quad.get_set_self _ _ _
  unfold State.arrive
  rw [h]
  dsimp only
  rw [takePin_eq, hlane]
  simp only [State.setLane, Quad.set_set]
  rfl

/-- The refusal of an arrival whose Reader Status or mask refuses it (R11). -/
def ReaderStatus.refusal : ReaderStatus → Decision
  | .collision => .multipleCards
  | .readError => .unreadable .status
  | .good => .unreadable .mask

theorem refusal_eq {x : Arrival} (h : x.status ≠ .good ∨ x.complete = false) : x.refusal = some x.status.refusal := by
  obtain ⟨status, complete, time⟩ := x
  cases status with
  | collision | readError => rfl
  | good =>
    obtain rfl : complete = false := h.resolve_left fun hne => hne rfl
    rfl

theorem refusal_none {x : Arrival} (h : x.status = .good) (h' : x.complete = true) : x.refusal = none := by
  obtain ⟨status, complete, time⟩ := x
  obtain rfl : status = .good := h
  obtain rfl : complete = true := h'
  rfl

/-- The DEGRADED test, as the statements write it (R28). -/
theorem degradedNow_eq (s : State) : s.degradedNow = (decide (s.line.membership ≠ .joined) || s.banks.fallback) := by
  have h : (s.line.membership != .joined) = decide (s.line.membership ≠ .joined) := by
    rw [Bool.eq_iff_iff]
    simp
  rw [State.degradedNow, h]

/-- A Verdict Record is begun, as the statements write it (R81, R82). -/
theorem beginRecord_eq (s : State) (v : VerdictRecord) (next : AfterRecord) : s.beginRecord v next = s.begun v next := rfl

/-- The record of a lane in RECOVERY without an image's fields (R82, R28). -/
theorem recoveryRecord_eq (s : State) (n : Lane) (d : Decision) : s.recoveryRecord n d = s.answering n d := by
  rw [State.recoveryRecord, State.answering, degradedNow_eq]

/-- An arrival in RECOVERY starts the comparison, or is answered (R92, R11). -/
theorem arrive_recovery (h : (s.lane n).state = .recovery) (w : Word) :
    s.arrive n w =
      match (s.arrivalOf n w).refusal with
      | none => { s with
          lanes := s.lanes.set n { s.lane n with arrival := some (s.arrivalOf n w), comparing := true, got := [] } }
      | some d =>
        let t : State := { s with
          lanes := s.lanes.set n { s.lane n with arrival := some (s.arrivalOf n w), mask := 0 } }
        t.begun { s.answering n d with time := s.clock } .answeredInRecovery := by
  unfold State.arrive
  rw [h]
  dsimp only
  have hanswering (d : Decision) : State.answering (s.setLane n { s.lane n with
      arrival := some (s.arrivalOf n w), mask := 0 }) n d = { s.answering n d with time := s.clock } := by
    have hlane : State.lane (s.setLane n { s.lane n with arrival := some (s.arrivalOf n w), mask := 0 }) n =
        { s.lane n with arrival := some (s.arrivalOf n w), mask := 0 } := Quad.get_set_self _ _ _
    simp only [State.answering, hlane]
    rfl
  simp only [beginRecord_eq, recoveryRecord_eq]
  show (match (s.arrivalOf n w).refusal with | none => _ | some d => _) = _
  cases (s.arrivalOf n w).refusal with
  | none => rfl
  | some d => exact congrArg (State.begun _ · _) (hanswering d)

/-- Settles O33: the merged word arrives by the lane's state. -/
theorem tapWordArrives : Obligations.TapWordArrives := by
  intro s n left e d r hturn hfirst hready hw hloc hright hland a l w status arrival active banks landed done
  have hexec : exec (.tapWordWrite ⟨n, left⟩ e d) s = .next (s.settle (s.makeReaderWord left ⟨n, a, .write e d⟩)) := rfl
  have hjudge : s.judge a (.reader n) (.write e d) = if s.landingOpen n then .ok (.tap n) else .error .landingLocked :=
    judge_landing hloc hright (.inl rfl)
  have hwritten : (s.readerLanded left n a e d).readerWritten (.tap n) a e = (s.readerLanded left n a e d).arrive n w := by
    have h := writtenWord_landed (s := s.readerMakes left ⟨n, a, .write e d⟩ e) (a := a) (e := e) hw hland d
    have hstate : ({ s.readerMakes left ⟨n, a, .write e d⟩ e with
        memory := (s.readerMakes left ⟨n, a, .write e d⟩ e).landed a e d } : State) = s.readerLanded left n a e d := rfl
    rw [hstate] at h
    simp only [State.readerWritten, h]
    rfl
  have harrival : (s.readerLanded left n a e d).arrivalOf n w = arrival := by
    unfold State.arrivalOf
    rw [readerStatusOf_eq]
    rfl
  have hlanded (t : State) (h : t.memory = s.landed a e d) : landed t := by
    refine ⟨by rw [h]; exact landed_word hw a e d, fun b hb => ?_⟩
    rw [h]
    exact landed_bytes s a e d b hb
  have hmakes (hopen : s.landingOpen n = true) {u : State} (hu : (s.readerLanded left n a e d).arrive n w = u)
      (hreader : u.reader = (s.readerLanded left n a e d).reader) (hcfg : u.cfg = s.cfg) (hstart : u.startUp = s.startUp) :
      ∃ t, exec (.tapWordWrite ⟨n, left⟩ e d) s = .next t ∧ ({ u with reader := done }).Mirrored t :=
    readerRow_landed (u := u) hexec hturn hfirst hready (hjudge.trans (if_pos hopen)) (.inr hland) (hwritten.trans hu)
      hreader hcfg hstart
  refine ⟨fun h => ?idle, fun h hc ha hs hm => ?compares, fun h hc ha hbad => ?answered, fun h1 h2 => ?locked⟩
  case idle =>
    obtain ⟨t, ht, hm⟩ := hmakes (landingOpen_iff.2 (.inl h)) (arrive_idle (s := s.readerLanded left n a e d) h w) rfl rfl rfl
    refine ⟨t, ht, hlanded t hm.memory, ?_⟩
    rw [hm.memory]
    rw [harrival] at hm
    exact hm
  case compares =>
    have hnone : arrival.refusal = none := refusal_none hs (decide_eq_true hm)
    have harrive := arrive_recovery (s := s.readerLanded left n a e d) h w
    rw [harrival, hnone] at harrive
    obtain ⟨t, ht, hm⟩ := hmakes (landingOpen_iff.2 (.inr ⟨h, hc, ha⟩)) harrive rfl rfl rfl
    refine ⟨t, ht, hlanded t hm.memory, ?_⟩
    rw [hm.memory]
    exact hm
  case answered =>
    have hsome : arrival.refusal = some status.refusal := refusal_eq (hbad.imp_right fun h => decide_eq_false h)
    have harrive := arrive_recovery (s := s.readerLanded left n a e d) h w
    rw [harrival, hsome] at harrive
    obtain ⟨t, ht, hm⟩ := hmakes (landingOpen_iff.2 (.inr ⟨h, hc, ha⟩)) harrive rfl rfl rfl
    have hcount : t.verdictCount = nextVerdictNumber s.verdictCount := by rw [hm]; rfl
    refine ⟨t, ht, hlanded t hm.memory, ?_, hcount, ?_⟩
    · rw [hm.memory, hm.records, hcount]
      exact hm
    · rw [hm.records, hcount]
      rfl
  case locked =>
    refine readerRow_refused hexec hturn hready (hjudge.trans (if_neg fun h' => ?_))
    exact (landingOpen_iff.1 h').elim h1 h2

/-! #### RESULT_WORD_WRITE -/

/-- Settles O45: by the map's verdict, and by the low byte of the merged word. -/
theorem resultWordIsTaken : Obligations.ResultWordIsTaken := by
  intro s n left e d hturn hfirst hready a
  have hexec : exec (.resultWordWrite ⟨n, left⟩ e d) s = .next (s.settle (s.makeReaderWord left ⟨n, a, .write e d⟩)) := rfl
  refine ⟨fun f hf => readerRow_refused hexec hturn hready hf, fun hok hcomparing hw hclean => ?_⟩
  intro w
  set m := s.readerLanded left n a e d with hm
  have hlane : m.lane n = s.lane n := rfl
  have hwritten : m.readerWritten (.result n) a e = m.takeResult n w := by
    have h := writtenWord_landed (s := s.readerMakes left ⟨n, a, .write e d⟩ e) (a := a) (e := e) hw (.inr hclean) d
    have hstate : ({ s.readerMakes left ⟨n, a, .write e d⟩ e with
        memory := (s.readerMakes left ⟨n, a, .write e d⟩ e).landed a e d } : State) = m := rfl
    rw [hstate] at h
    simp only [State.readerWritten, h]
    rfl
  have hbits : bits w 0 8 = w.toNat % 256 := by simp [bits]
  have hwrittenCase : w.toNat % 256 = 1 → m.takeResult n w = m.commit n false := by
    intro h
    rw [State.takeResult, hbits, h]
    rfl
  have hfailedCase : w.toNat % 256 = 2 → m.takeResult n w =
      State.appends { m with lanes := s.lanes.set n { s.lane n with timer := .stopped } } n
        (s.entryOf n .notCharged false (s.lane n).pendingSeq) (.toIdle n none) := by
    intro h
    have hset : (m.setLane n { m.lane n with timer := .stopped }).lane n = { s.lane n with timer := .stopped } :=
      Quad.get_set_self _ _ _
    rw [State.takeResult, hbits, h]
    dsimp only
    rw [requestAppend_eq, landedDraft_eq, State.entryOf, hset]
    rfl
  have htornCase : w.toNat % 256 ≠ 1 → w.toNat % 256 ≠ 2 → m.takeResult n w = m.enterRecovery n := by
    intro h1 h2
    rw [State.takeResult, hbits]
    split
    · exact absurd ‹_› h1
    · exact absurd ‹_› h2
    · rfl
  have hreader : (m.takeResult n w).reader = m.reader ∧ (m.takeResult n w).cfg = s.cfg
      ∧ (m.takeResult n w).startUp = s.startUp ∧ (m.takeResult n w).memory = s.landed a e d := by
    by_cases h1 : w.toNat % 256 = 1
    · rw [hwrittenCase h1, commit_frame]
      exact ⟨rfl, rfl, rfl, rfl⟩
    · by_cases h2 : w.toNat % 256 = 2
      · rw [hfailedCase h2, State.appends, request_frame]
        exact ⟨rfl, rfl, rfl, rfl⟩
      · rw [htornCase h1 h2]
        exact ⟨rfl, rfl, rfl, rfl⟩
  obtain ⟨hport, hcfg, hstart, hmemory⟩ := hreader
  obtain ⟨t, ht, hmir⟩ := readerRow_landed (u := m.takeResult n w) hexec hturn hfirst hready hok (.inr (.inr hclean))
    hwritten hport hcfg hstart
  have hmem : t.memory = s.landed a e d := hmir.memory.trans hmemory
  refine ⟨t, ht, by rw [hmem]; exact landed_word hw a e d, fun b hb => by rw [hmem]; exact landed_bytes s a e d b hb, ?_⟩
  rw [hmem]
  intro u
  refine ⟨fun h => ?written, fun h => ?failed, fun h1 h2 => ?torn⟩
  case written =>
    rw [hwrittenCase h] at hmir
    refine commit_commits (memory := s.landed a e d) (reader := m.reader) (arbiter := s.readerServed e) _ ?_ hmir
    have hlanes : s.lanes.set n { s.lane n with comparing := false } = s.lanes := by
      rw [← hcomparing]
      exact Quad.set_get s.lanes n
    rw [hlanes]
    rfl
  case failed =>
    rw [hfailedCase h, State.appends, request_frame] at hmir
    rw [State.appends, request_frame]
    have hjournal (l : Quad LaneContext) (r : JournalRequest) :
        (State.request { u with lanes := l } r).journal = (State.request { m with lanes := l } r).journal :=
      request_congr rfl rfl
    rw [hjournal]
    exact hmir
  case torn =>
    rw [htornCase h1 h2] at hmir
    exact hmir

/-! #### BANK_WRITE -/

/-- An admitted write in a bank is one of the processor's under MAINT mode, of a bank that is EMPTY, STAGING or VALID without
pins (R45, R163, R164). -/
theorem judge_bank {mode : Mode} {x : BankId} (h : s.judge a (.processor mode) (.write e d) = .ok (.bank x)) :
    mode = .maint ∧ (s.bank x).writeLocked = false := by
  obtain ⟨r, -, hceiling, -, htest⟩ := judge_ok_iff.1 h
  cases mode with
  | service => simp [ceiling, accessDirection, Right.allows] at hceiling
  | maint => exact ⟨rfl, by simpa [State.stateTest] using htest⟩

/-- Bank Control after an admitted write of a bank (R45): the bank is STAGING, and nothing else of it has changed. -/
theorem bankWritten_staging {x : BankId} (h : (s.bank x).writeLocked = false) :
    ∃ c : BankControl, s.bankWritten x = { s with banks := c }
      ∧ ({ s with banks := c } : State).bank x = { s.bank x with state := some .staging }
      ∧ (∀ y, y ≠ x → ({ s with banks := c } : State).bank y = s.bank y) ∧ c.validation = s.banks.validation
      ∧ c.got = s.banks.got ∧ c.fallback = s.banks.fallback ∧ c.due = s.banks.due := by
  have hset : ∃ c : BankControl, s.setBank x { s.bank x with state := some .staging } = { s with banks := c }
      ∧ ({ s with banks := c } : State).bank x = { s.bank x with state := some .staging }
      ∧ (∀ y, y ≠ x → ({ s with banks := c } : State).bank y = s.bank y) ∧ c.validation = s.banks.validation
      ∧ c.got = s.banks.got ∧ c.fallback = s.banks.fallback ∧ c.due = s.banks.due := by
    cases x with
    | a => exact ⟨_, rfl, rfl, fun y hy => by cases y with | a => exact absurd rfl hy | b => rfl, rfl, rfl, rfl, rfl⟩
    | b => exact ⟨_, rfl, rfl, fun y hy => by cases y with | b => exact absurd rfl hy | a => rfl, rfl, rfl, rfl, rfl⟩
  unfold State.bankWritten
  cases hstate : (s.bank x).state with
  | none => simp [Bank.writeLocked, hstate] at h
  | some y =>
    cases y with
    | empty | valid => exact hset
    | staging =>
      refine ⟨s.banks, rfl, ?_, fun y _ => rfl, rfl, rfl, rfl, rfl⟩
      rw [← hstate]
    | validating | active | damaged => simp [Bank.writeLocked, hstate] at h

/-- A processor's write that its owner answers at once is answered, and leaves the port free (R159, R171). -/
theorem processorRow_landed {w : ProcessorWord} {area : Area} {mode : Mode} (hw : w = ⟨a, mode, .write e d⟩)
    (hj : s.judge a (.processor mode) (.write e d) = .ok area) (hs : s.Sound) (hturn : s.processor.words = [])
    (hpath : s.PathIdle) (hready : s.unit = .ready) (hland : e = 0 ∨ e = 0xF ∨ s.memory.health a = .clean)
    (hu : State.processorWritten { s.processorMakes w with memory := s.landed a e d } area w e = u)
    (hport : u.processor = (s.processorMakes w).processor) :
    ({ u with processor := s.processor.answered (.done none) }).Mirrored (s.makeWord w) := by
  obtain ⟨htaken, hheld⟩ := hs.processor hturn
  have hperform : (s.processorMakes w).performProcessor w = u.answer (.done none) := by
    have hj' : (s.processorMakes w).judge w.address (.processor w.mode) w.access = .ok area := by rw [hw]; exact hj
    refine performProcessor_write (b := true) (e := e) (d := d) (by rw [hw]) ?_ (by rw [hport]; exact hheld)
    unfold State.processorWrite
    rw [hj']
    have hwrite := portWrite_landed (s := s.processorMakes w) (a := w.address) (e := e) (by rw [hw]; exact hland) d .processor
      (some w.mode)
    simp only [hwrite]
    rw [← hu, hw]
    rfl
  have hanswered : u.answer (.done none) = { u with processor := s.processor.answered (.done none) } := by
    have hp : s.processor.answered (.done none) =
        { words := [], taken := false, held := none, answers := s.processor.answers ++ [.done none] } := by
      rw [ProcessorPort.answered, ← hturn, ← htaken, ← hheld]
    rw [State.answer, hport, hp]
    rfl
  rw [makeWord_idle hs hturn hpath (.inr (.inl hready)) (by simp [State.mustWait, hready])
    (by rw [hw]; exact hj) (by rw [hperform, hanswered]; exact htaken) (by rw [hperform, hanswered]; exact .inl hturn),
    hperform, hanswered]
  exact note_mirrored _ _

/-- Settles O50: by the map's verdict. -/
theorem bankWriteStagesBank : Obligations.BankWriteStagesBank := by
  intro s x offset mode e d hturn a
  set w : ProcessorWord := ⟨a, mode, .write e d⟩ with hw
  have hexec : exec (.bankWrite x offset mode e d) s = .next (s.settle (s.makeWord w)) := rfl
  obtain ⟨htaken, -⟩ := hturn.sound.processor hturn.turn
  refine ⟨fun f hf => ?refused, fun hok hwf hclean hpath => ?admitted⟩
  case refused =>
    have hm := presentWord_refused hturn (w := w) hf
    have hdone : (s.presentWord w).processor.taken = false := by
      rw [hm.processor]
      exact htaken
    have hmake : s.makeWord w = s.presentWord w := by
      unfold State.makeWord
      rw [if_pos hturn.turn]
      simp [State.driveProcessor, hdone]
    exact ⟨_, hexec, by rw [hmake]; exact hm.trans (settle_mirrored _ _)⟩
  case admitted =>
    obtain ⟨hmode, hlocked⟩ := judge_bank hok
    obtain ⟨c, hwritten, hbank, hother, hval, hgot, hfall, hdue⟩ :=
      bankWritten_staging (s := { s.processorMakes w with memory := s.landed a e d }) hlocked
    have hm := processorRow_landed hw hok hturn.sound hturn.turn hpath hturn.ready (.inr (.inr hclean)) hwritten rfl
    obtain ⟨t, ht, hm⟩ : ∃ t, exec (.bankWrite x offset mode e d) s = .next t ∧ State.Mirrored _ t :=
      ⟨_, hexec, hm.trans (settle_mirrored s _)⟩
    have hmem : t.memory = s.landed a e d := hm.memory
    have hbanks : t.banks = c := hm.banks
    have hnone : needsNoOperation w.access = (e == 0) := rfl
    refine ⟨hmode, t, ht, ?_, ?_, fun b hb => ?_, ?_⟩
    · rw [hmem, hbanks]
      have harb : s.processorServed e = (s.processorMakes w).arbiter := by
        rw [State.processorServed, State.processorMakes, hnone]
        simp
      rw [harb]
      exact hm
    · rw [hmem]
      exact landed_word hwf a e d
    · rw [hmem]
      exact landed_bytes s a e d b hb
    · have hbankOf (y : BankId) : t.bank y = ({ s with banks := c } : State).bank y := by
        unfold State.bank
        rw [hbanks]
      rw [hbankOf, hbanks]
      exact ⟨hbank, fun y hy => (hbankOf y).trans (hother y hy), hval, hgot, hfall, hdue⟩

end

end Sys2Proof.Machine

/-! ### How a taken command is judged (R175 to R177, R188) -/

namespace Sys2Proof.Machine

section
variable {s t u y : State} {g : GoWrite} {i : Instr} {outcome : CommandOutcome} {detail : Detail}

/-! #### A go-write, whatever the unit state -/

/-- Every row of a go-write judges the command by a rule of its own. -/
theorem goRows_exec (hi : i ∈ goRows g) : ∃ judge, ∀ s, exec i s = .next (s.close (s.goWrite g judge)) := by
  simp only [goRows, List.mem_cons, List.not_mem_nil, or_false] at hi
  rcases hi with rfl | rfl | rfl | rfl | rfl | rfl | rfl | rfl | rfl | rfl | rfl | rfl | rfl | rfl | rfl | rfl | rfl | rfl |
    rfl | rfl | rfl <;> exact ⟨_, fun _ => rfl⟩

theorem slotAddress_step (s : State) (k : SlotId) (i : Nat) : s.slotAddress k i = s.slotAddress k 0 + 4 * i := by
  simp [State.slotAddress]

/-- Outside FAULTED the words of the command slots lie at word addresses (R161). -/
theorem slotAddress_aligned (h : s.unit ≠ .faulted) (k : SlotId) (i : Nat) : s.slotAddress k i % 4 = 0 := by
  have := regionBase_aligned (s := s) .command
  simp only [State.slotAddress, if_neg h]
  omega

/-- The machine in which the go-write has taken its command, the slot holding the result word of its outcome (R178). -/
def State.concluded (u s : State) (g : GoWrite) (outcome : CommandOutcome) (detail : Detail) : State :=
  { u.onTaken s g with
    slots := s.slots.set g.slot.val
      { busy := true, lastTaken := goSequence (s.goWord g), reading := none, command := none
        result := some ⟨resultWord (goSequence (s.goWord g)) outcome detail, false⟩
        detailValue := (s.slot g.slot).detailValue } }

/-- A command that its go-write has concluded leaves what `State.Completes` says, in whatever unit state (R178). -/
theorem completes_of_concluded (hr : s.CommandTurn g) (hc : u.cfg = s.cfg) (hs : u.startUp = s.startUp)
    (hrd : u.reader = s.reader) (hm : (u.concluded s g outcome detail).Mirrored y)
    (hreq : y.arbiter.requests = [.commandSlot g.slot]) :
    s.Completes g outcome detail none u (s.settle (s.deliverAll y)) := by
  have hyslot : y.slot g.slot = { busy := true, lastTaken := goSequence (s.goWord g), reading := none, command := none
                                  result := some ⟨resultWord (goSequence (s.goWord g)) outcome detail, false⟩
                                  detailValue := (s.slot g.slot).detailValue } := by
    simp only [State.slot, hm.slots, State.concluded]
    simp
  have hyother : ∀ j, j ≠ g.slot → y.slot j = s.slot j := fun j hj => by
    have : g.slot.val ≠ j.val := fun e => hj (Fin.ext e.symm)
    simp only [State.slot, hm.slots, State.concluded]
    simp [this]
  have hfree : y.PathFree (.commandSlot g.slot) 5 := by
    refine ⟨?_, ?_, fun x hx => Or.inl (by simpa [hreq] using hx)⟩
    · rw [hm.reader]
      exact (congrArg ReaderPort.taken hrd).trans hr.path.reader
    · rw [hm.processor]
      exact hr.path.processor
  have hdel := deliver_plain (by rw [hyslot]) hfree
  rw [deliverAll_one (k := g.slot) (by rw [hyslot]; rfl) (hr.written g.slot)
    (fun j hj h => by rw [hyother j hj] at h; exact h) (by rw [hdel]; simp [State.slot])]
  have haddr : y.slotAddress g.slot 6 = s.slotAddress g.slot 6 := by
    rw [show y = _ from hm]
    simp only [State.concluded, State.onTaken, State.slotAddress, State.unit, State.regionBase, State.region, hc, hs]
    rfl
  set final : Vector CommandSlot 8 := s.slots.set g.slot.val
    { busy := false, lastTaken := goSequence (s.goWord g), reading := none, command := none, result := none
      detailValue := (s.slot g.slot).detailValue } with hfinal
  set written := (s.goMemory g).writeWord (s.slotAddress g.slot 6) (resultWord (goSequence (s.goWord g)) outcome detail)
    with hwritten
  have hend : ({ u with
      memory := written, slots := final, processor := s.processor.answered (.done none), arbiter := s.goArbiter g }).Mirrored
      (s.settle (y.deliver g.slot)) := by
    refine State.Mirrored.trans ?_ (settle_mirrored s _)
    rw [hdel, hyslot, haddr, hm.memory, hm.slots]
    have hslots (x : CommandSlot) : (u.concluded s g outcome detail).slots.set g.slot.val x = s.slots.set g.slot.val x := by
      simp [State.concluded]
    rw [hslots]
    unfold State.Mirrored at hm ⊢
    generalize y.status.stale = y1, y.status.changeCount = y2, y.status.due = y3, y.arbiter.requests = y4 at hm
    subst hm
    rfl
  generalize s.settle (y.deliver g.slot) = t at hend
  have hwf : (s.goMemory g).wf = true := by
    unfold State.goMemory
    split_ifs
    · exact hr.form
    · exact Memory.wf_writeWord _ _ hr.form
  have h67 : s.slotAddress g.slot 7 = s.slotAddress g.slot 6 + 4 := by
    rw [slotAddress_step, slotAddress_step s g.slot 6]
  have hmem : t.memory = written := hend.memory
  have hslot (j : SlotId) : t.slot j = final[j.val] := by simp only [State.slot, hend.slots]
  constructor
  · rw [hmem, hend.slots, hend.processor]
    exact hend
  · exact hend.processor
  · rw [hslot, hfinal]
    simp
  · intro k hk
    have hne : g.slot.val ≠ k.val := fun e => hk (Fin.ext e.symm)
    rw [hslot, hfinal]
    simp [hne, State.slot]
  · rw [hmem, hwritten, Memory.word_writeWord_other _ (by omega)]
    exact taken_word hr.form
  · rw [hmem, hwritten, Memory.word_writeWord_self _ _ hwf]
  · intro v hv
    cases hv
  · intro b hb _
    rw [hmem, hwritten, Memory.byte_writeWord_other _ (by omega), State.goMemory]
    split_ifs
    · rfl
    · exact Memory.byte_writeWord_other _ (by omega)
  · intro a ha _
    rw [hmem, hwritten, Memory.upset_writeWord_other _ ha, State.goMemory]
    split_ifs
    · rfl
    · by_cases h7 : a = s.slotAddress g.slot 7
      · subst h7
        rw [Memory.upset_writeWord_self _ _ hr.form]
        exact (Memory.upset_of_clean hr.clean).symm
      · exact Memory.upset_writeWord_other _ h7

/-- The go word lies at a word address (09). -/
theorem goWord_address (ha : s.slotAddress g.slot 7 % 4 = 0) :
    processorWord (s.slotAddress g.slot 7) g.mode (.write g.enables g.data) =
      ⟨s.slotAddress g.slot 7, g.mode, .write g.enables g.data⟩ := by
  rw [processorWord, wordAddress, Nat.div_mul_cancel (Nat.dvd_of_mod_eq_zero ha)]

/-- The machine in which the go-write's word has been made, and takes the command (R175, R176). -/
theorem goWrite_takes (hr : s.CommandTurn g) :
    let w : ProcessorWord := ⟨s.slotAddress g.slot 7, g.mode, .write g.enables g.data⟩
    (s.processorMakes w).processorWrite w g.enables g.data =
      (true, State.takeCommand { s.processorMakes w with memory := s.goMemory g } g.slot (goSequence (s.goWord g)) g.mode) := by
  intro w
  obtain ⟨hq0, hq1⟩ := hr.sequence
  have hj : (s.processorMakes w).judge w.address (.processor w.mode) w.access = .ok (.commandWord g.slot 7) := hr.admitted
  have hport := portWrite_landed (s := s.processorMakes w) (a := w.address) (e := g.enables) (.inr (.inr hr.clean)) g.data
    .processor (some w.mode)
  have hmemory : (s.processorMakes w).landed w.address g.enables g.data = s.goMemory g := rfl
  have hwritten := writtenWord_landed (s := s.processorMakes w) (a := w.address) (e := g.enables) hr.form (.inr hr.clean) g.data
  rw [hmemory] at hport hwritten
  have hword : mergeBytes g.enables ((s.processorMakes w).memory.word w.address) g.data = s.goWord g := rfl
  rw [hword] at hwritten
  unfold State.processorWrite
  simp only [hj, hport]
  refine congrArg (Prod.mk true) ?_
  simp only [State.processorWritten, if_true, State.goWordWritten, hwritten]
  have hslot : State.slot { s.processorMakes w with memory := s.goMemory g } g.slot = s.slot g.slot := rfl
  simp only [hslot, hq0, hq1, hr.free, false_or, Bool.false_eq_true, if_false]
  rfl

/-- A block's request at an arbiter where none waits (R166). -/
theorem offer_empty (h : s.arbiter.requests = []) (b : Block) :
    s.offer b = { s with arbiter := { s.arbiter with requests := [b] } } := by
  rw [State.offer, if_neg (by simp [h]), h]
  rfl

theorem processorMakes_arbiter (s : State) (g : GoWrite) (a : Nat) (mode : Mode) :
    (s.processorMakes ⟨a, mode, .write g.enables g.data⟩).arbiter = s.goArbiter g := by
  simp [State.processorMakes, State.goArbiter, needsNoOperation]

/-- A go-write that takes a command outside READY: the command completes NOT_READY (R176, R188). -/
theorem goWrite_closed (hr : s.CommandTurn g) (ha : s.slotAddress g.slot 7 % 4 = 0)
    (hu : (s.unit = .scanning ∧ detail = .none)
      ∨ (s.unit = .faulted ∧ s.startUp.usableSlots ≠ none ∧ detail = (s.startUp.loadFault.map LoadFault.detail).getD .none))
    (judge : Handler) :
    s.Completes g .notReady detail none s (s.close (s.goWrite g judge)) := by
  set w : ProcessorWord := ⟨s.slotAddress g.slot 7, g.mode, .write g.enables g.data⟩ with hw
  obtain ⟨htaken, hheld⟩ := hr.sound.processor hr.turn
  set m : State := { s.processorMakes w with memory := s.goMemory g } with hm
  set t := m.setSlot g.slot { m.slot g.slot with busy := true, lastTaken := goSequence (s.goWord g) } with ht
  have htake : m.takeCommand g.slot (goSequence (s.goWord g)) g.mode = t.complete g.slot .notReady detail := by
    unfold State.takeCommand
    rcases hu with ⟨hu, rfl⟩ | ⟨hu, -, rfl⟩
    · have : m.unit = .scanning := hu
      rw [this]
    · have : m.unit = .faulted := hu
      rw [this]
      rfl
  have hcomplete : t.complete g.slot .notReady detail = (t.placeResult g.slot .notReady detail false).offer (.commandSlot g.slot) :=
    complete_none _ _ _
  have hperform : (s.processorMakes w).performProcessor w = (t.complete g.slot .notReady detail).answer (.done none) := by
    refine performProcessor_write (b := true) rfl ((goWrite_takes hr).trans (by rw [← htake])) ?_
    rw [hcomplete, (offer_mirrored _ _).processor]
    exact hheld
  have hport : ((t.complete g.slot .notReady detail).answer (.done none)).processor = s.processor.answered (.done none) := by
    have hp : s.processor.answered (.done none) =
        { words := [], taken := false, held := none, answers := s.processor.answers ++ [.done none] } := by
      rw [ProcessorPort.answered, ← hr.turn, ← htaken, ← hheld]
    rw [hcomplete, State.answer, (offer_mirrored _ _).processor, hp]
    rfl
  have hmake : s.makeWord (processorWord (s.slotAddress g.slot 7) g.mode (.write g.enables g.data)) =
      (s.processorMakes w).note ((t.complete g.slot .notReady detail).answer (.done none)) := by
    rw [goWord_address ha, ← hperform]
    refine makeWord_idle hr.sound hr.turn hr.path (by rcases hu with ⟨hu, -⟩ | ⟨hu, -⟩ <;> simp [hu])
      (by simp [State.mustWait]) hr.admitted ?_ (.inl ?_)
    · rw [hperform, hport]
      exact htaken
    · rw [hperform, hport]
      exact hr.turn
  have hgo : s.goWrite g judge = (s.processorMakes w).note ((t.complete g.slot .notReady detail).answer (.done none)) := by
    unfold State.goWrite
    rw [if_neg (by rintro ⟨h1, h2⟩; rcases hu with ⟨hu, -⟩ | ⟨-, hu, -⟩; exacts [by simp [hu] at h1, hu h2])]
    simp only [hmake]
    rw [if_neg (by rw [note_processor, hport]; simp [ProcessorPort.answered, hheld])]
  rw [hgo]
  have hplaced : t.placeResult g.slot .notReady detail false = { m with
      slots := s.slots.set g.slot.val
        { busy := true, lastTaken := goSequence (s.goWord g), reading := none, command := none
          result := some ⟨resultWord (goSequence (s.goWord g)) .notReady detail, false⟩
          detailValue := (s.slot g.slot).detailValue } } := by
    rw [ht, State.placeResult]
    simp [State.setSlot, State.slot, hm, State.processorMakes]
  have hanswered : (t.complete g.slot .notReady detail).answer (.done none) =
      { s.concluded s g .notReady detail with arbiter := { s.goArbiter g with requests := [.commandSlot g.slot] } } := by
    have hoffered : (t.complete g.slot .notReady detail) =
        { t.placeResult g.slot .notReady detail false with
          arbiter := { s.goArbiter g with requests := [.commandSlot g.slot] } } := by
      have hrequests : (t.placeResult g.slot .notReady detail false).arbiter.requests = [] := hr.path.blocks
      have harbiter : (t.placeResult g.slot .notReady detail false).arbiter = s.goArbiter g := processorMakes_arbiter s g _ _
      rw [hcomplete, offer_empty hrequests, harbiter]
    have hframe : (t.complete g.slot .notReady detail).answer (.done none) = { t.complete g.slot .notReady detail with
      processor := ((t.complete g.slot .notReady detail).answer (.done none)).processor } := rfl
    rw [hframe, hport, hoffered, hplaced]
    rfl
  rw [hanswered]
  refine completes_of_concluded hr rfl rfl rfl (note_mirrored _ _ : State.Mirrored _ _) ?_
  rw [note_arbiter]

/-! #### Words of the slot that are uncorrectable -/

/-- The faults of the uncorrectable words at the addresses of `l`, met by an internal read (R170, R172). -/
def State.readFaults (s : State) (l : List Nat) : State :=
  l.foldl (fun t a => t.faulted .uncorrectable .internal (some a) (some .read) none) s

/-- Words of which none is corrected are read with a fault for each uncorrectable one (R170). -/
theorem readEach_faults (b : Block) (before : Fetched) {l : List Nat} (hu : s.unit ≠ .faulted)
    (h : ∀ a ∈ l, s.memory.health a ≠ .corrected) :
    s.readThrough (Reads.each b before l) =
      (before.reverse ++ l.map (fun a => if s.memory.health a = .uncorrectable then none else some (s.memory.word a)),
       s.readFaults (l.filter (fun a => s.memory.health a = .uncorrectable))) := by
  induction l generalizing before s with
  | nil => simp [Reads.each, State.readThrough, State.readFaults]
  | cons a rest ih =>
    have hrest : ∀ c ∈ rest, s.memory.health c ≠ .corrected := fun c hc => h c (by simp [hc])
    rw [Reads.each, State.readThrough]
    cases hh : s.memory.health a with
    | clean =>
      rw [readWord_clean hh]
      dsimp only
      rw [ih _ hu hrest]
      simp [hh]
    | corrected => exact absurd hh (h a (by simp))
    | uncorrectable =>
      have hread : s.readWord a = (none, s.faulted .uncorrectable .internal (some a) (some .read) none) := by
        unfold State.readWord
        simp only [hh, reportFault_reported hu]
      rw [hread]
      dsimp only
      rw [ih (s := s.faulted .uncorrectable .internal (some a) (some .read) none) _ hu hrest]
      simp [hh, State.faulted, State.readFaults]

/-- Faults of reads change the Fault Record and the notices alone, by what stood there (R172). -/
theorem readFaults_eq (l : List Nat) (hf : t.faultRecord = s.faultRecord) (hn : t.status.notices = s.status.notices)
    (hc : t.clock = s.clock) :
    t.readFaults l = { t with
      faultRecord := (s.readFaults l).faultRecord
      status := { t.status with notices := (s.readFaults l).status.notices } } := by
  induction l generalizing s t with
  | nil => simp only [State.readFaults, List.foldl_nil, ← hf, ← hn]
  | cons a rest ih =>
    exact ih (s := s.faulted .uncorrectable .internal (some a) (some .read) none)
      (t := t.faulted .uncorrectable .internal (some a) (some .read) none)
      (by simp [State.faulted, hf, hc]) (by simp [State.faulted, hn]) hc

/-- A command of which a word could not be read completes BAD_ARGUMENT with detail MEMORY (R176). -/
theorem judgeSlot_memory {words : Fetched} (h : none ∈ words) (k : SlotId) (mode : Mode) (judge : Handler) :
    s.judgeSlot k mode words judge = s.complete k .badArgument .memory := by
  unfold State.judgeSlot
  split
  · simp at h
  · rfl

/-- A go-write in READY, of which nothing is said but that it takes a command: the six reads begin (R176). -/
theorem makeWord_reads (hr : s.CommandTurn g) (ha : s.slotAddress g.slot 7 % 4 = 0) (hu : s.unit = .ready) :
    s.makeWord (processorWord (s.slotAddress g.slot 7) g.mode (.write g.enables g.data)) = s.reading g := by
  set w : ProcessorWord := ⟨s.slotAddress g.slot 7, g.mode, .write g.enables g.data⟩ with hw
  obtain ⟨htaken, hheld⟩ := hr.sound.processor hr.turn
  have hperform : (s.processorMakes w).performProcessor w = s.reading g := by
    unfold State.performProcessor
    simp only [hw]
    rw [goWrite_takes hr]
    set m : State := { s.processorMakes ⟨s.slotAddress g.slot 7, g.mode, .write g.enables g.data⟩ with
      memory := s.goMemory g } with hm
    have hunit : m.unit = .ready := hu
    have harb : m.arbiter = s.goArbiter g := processorMakes_arbiter s g _ _
    have hslot : m.slot g.slot = s.slot g.slot := rfl
    have htake : m.takeCommand g.slot (goSequence (s.goWord g)) g.mode = { s.reading g with
        processor := { m.processor with held := some g.slot } } := by
      have hslots : (s.slots.set g.slot.val
          { s.slot g.slot with busy := true, lastTaken := goSequence (s.goWord g) }).set g.slot.val
            { s.slot g.slot with busy := true, lastTaken := goSequence (s.goWord g), reading := some ⟨g.mode, []⟩ } =
          s.slots.set g.slot.val
            { s.slot g.slot with busy := true, lastTaken := goSequence (s.goWord g), reading := some ⟨g.mode, []⟩ } := by
        simp
      have hset : (m.setSlot g.slot { m.slot g.slot with busy := true, lastTaken := goSequence (s.goWord g) }).slot g.slot =
          { s.slot g.slot with busy := true, lastTaken := goSequence (s.goWord g) } := by
        rw [hslot]
        simp [State.slot, State.setSlot]
      have hblocks : (s.goArbiter g).requests = [] := hr.path.blocks
      unfold State.takeCommand
      simp only [hunit, hset]
      rw [offer_empty (by exact hblocks)]
      simp only [State.setSlot, hslot, harb]
      rw [show m.slots = s.slots from rfl, hslots]
      rfl
    rw [htake]
    dsimp only [Option.isSome_some]
    rw [if_pos rfl]
    simp only [State.reading, State.goPort, hm, State.processorMakes]
  rw [goWord_address ha]
  rw [makeWord_idle hr.sound hr.turn hr.path (.inr (.inl hu)) (by simp [State.mustWait, hu]) hr.admitted
    (by rw [← hw, hperform]; rfl) (.inr (by rw [← hw, hperform]; rfl)), ← hw, hperform]
  exact note_same fun i => (reading_mirror (s := s) (g := g) i).symm

/-- A command of which a word is uncorrectable completes BAD_ARGUMENT with detail MEMORY (R176). -/
theorem goWrite_memory (hr : s.CommandTurn g) (ha : s.slotAddress g.slot 7 % 4 = 0) (hu : s.unit = .ready)
    (hno : ∀ i, i < 6 → s.memory.health (s.slotAddress g.slot i) ≠ .corrected)
    (hbad : ∃ i, i < 6 ∧ s.memory.health (s.slotAddress g.slot i) = .uncorrectable) (judge : Handler) :
    let bad := (List.range 6).filter (fun i => s.memory.health (s.slotAddress g.slot i) = .uncorrectable)
    s.Completes g .badArgument .memory none
      (bad.foldl (fun t w => t.faulted .uncorrectable .internal (some (s.slotAddress g.slot w)) (some .read) none) s)
      (s.close (s.goWrite g judge)) := by
  intro bad
  set l := (List.range 6).map (s.slotAddress g.slot) with hl
  have hrun : wordRun (s.slotAddress g.slot 0) 6 = l := by
    rw [wordRun, hl]
    exact List.map_congr_left fun i _ => (slotAddress_step s g.slot i).symm
  set v := (s.reading g).retract (.commandSlot g.slot) with hv
  have hvmem : v.memory = s.goMemory g := rfl
  have hhealth : ∀ a ∈ l, v.memory.health a = s.memory.health a := by
    intro a hal
    obtain ⟨i, hi, rfl⟩ := List.mem_map.1 hal
    have hne : s.slotAddress g.slot i ≠ s.slotAddress g.slot 7 := by
      rw [slotAddress_step, slotAddress_step s g.slot 7]
      have := List.mem_range.1 hi
      omega
    exact taken_health_other _ hne
  have hclean : ∀ a ∈ l, v.memory.health a ≠ .corrected := by
    intro a hal
    rw [hhealth a hal]
    obtain ⟨i, hi, rfl⟩ := List.mem_map.1 hal
    exact hno i (List.mem_range.1 hi)
  have hreads := readEach_faults (s := v) (.commandSlot g.slot) [] (by show s.unit ≠ _; rw [hu]; decide) hclean
  have hfilter : l.filter (fun a => v.memory.health a = .uncorrectable) = bad.map (s.slotAddress g.slot) := by
    rw [List.filter_congr fun a hal => by rw [hhealth a hal], hl, List.filter_map]
    rfl
  set addresses := bad.map (s.slotAddress g.slot) with haddresses
  have hgoal : bad.foldl (fun t w => t.faulted .uncorrectable .internal (some (s.slotAddress g.slot w)) (some .read) none) s =
      s.readFaults addresses := by
    rw [State.readFaults, haddresses, List.foldl_map]
  rw [hgoal]
  rw [hfilter] at hreads
  have hz := readFaults_eq (s := s) (t := v) addresses rfl rfl rfl
  have hs := readFaults_eq (s := s) (t := s) addresses rfl rfl rfl
  have hvreq : v.arbiter.requests = [] := by simp [hv, State.retract, State.reading]
  have hvarb : v.arbiter = s.goArbiter g := by
    have hempty : (s.goArbiter g).requests = [] := hr.path.blocks
    have hv' : v.arbiter = { s.goArbiter g with requests := v.arbiter.requests } := rfl
    rw [hv', hvreq, ← hempty]
  have hperform : (s.reading g).perform (Reads.each (.commandSlot g.slot) [] l) =
      v.readThrough (Reads.each (.commandSlot g.slot) [] l) :=
    perform_own (s := s.reading g) (x := .commandSlot g.slot) hr.path.reader rfl rfl
  set words := l.map (fun a => if v.memory.health a = .uncorrectable then none else some (v.memory.word a)) with hwords
  have hmissing : (none : Option Word) ∈ words := by
    obtain ⟨i, hi, hu⟩ := hbad
    have hmem : s.slotAddress g.slot i ∈ l := List.mem_map.2 ⟨i, List.mem_range.2 hi, rfl⟩
    exact List.mem_map.2 ⟨_, hmem, if_pos ((hhealth _ hmem).trans hu)⟩
  obtain ⟨htaken, hheld⟩ := hr.sound.processor hr.turn
  have hport : ((v.readFaults addresses).answer (.done none)).processor = s.processor.answered (.done none) := by
    have hp : s.processor.answered (.done none) =
        { words := [], taken := false, held := none, answers := s.processor.answers ++ [.done none] } := by
      rw [ProcessorPort.answered, ← hr.turn, ← htaken, ← hheld]
    rw [hz, hp]
    rfl
  have hconcluded : ((v.readFaults addresses).answer (.done none)).complete g.slot .badArgument .memory =
      { (s.readFaults addresses).concluded s g .badArgument .memory with
        arbiter := { s.goArbiter g with requests := [.commandSlot g.slot] } } := by
    have hslots : v.slots = s.slots.set g.slot.val { s.slot g.slot with
        busy := true, lastTaken := goSequence (s.goWord g), reading := some ⟨g.mode, []⟩ } := rfl
    have hplaced : ((v.readFaults addresses).answer (.done none)).placeResult g.slot .badArgument .memory false =
        { (s.readFaults addresses).concluded s g .badArgument .memory with arbiter := v.arbiter } := by
      have hframe : (v.readFaults addresses).answer (.done none) =
          { v.readFaults addresses with processor := ((v.readFaults addresses).answer (.done none)).processor } := rfl
      rw [hframe, hport, hz, hs]
      simp only [State.placeResult, State.setSlot, State.slot, hslots, State.concluded, State.onTaken]
      simp only [Vector.getElem_set_self, Vector.set_set]
      rfl
    rw [complete_none, hplaced, offer_empty (by exact hvreq), hvarb]
  have hgo : s.goWrite g judge = (v.readFaults addresses).note (((v.readFaults addresses).answer (.done none)).complete g.slot .badArgument .memory) := by
    have hheldv : (v.readFaults addresses).processor.held = some g.slot := by rw [hz]; rfl
    unfold State.goWrite
    rw [if_neg (by simp [hu])]
    simp only [makeWord_reads hr ha hu]
    rw [if_pos ⟨hr.turn, rfl⟩]
    have hslotreads : (s.reading g).slotReads g.slot = Reads.each (.commandSlot g.slot) [] l := by
      rw [← hrun]
      rfl
    rw [hslotreads, hperform, hreads]
    simp only [List.reverse_nil, List.nil_append]
    unfold State.finishSlotReads
    rw [if_pos (by exact hheldv)]
    dsimp only
    rw [judgeSlot_memory hmissing]
    refine resumeProcessor_empty ?_
    rw [note_processor, hconcluded]
    exact hr.turn
  rw [hgo, hconcluded]
  refine completes_of_concluded hr ?_ ?_ ?_ (note_mirrored _ _ : State.Mirrored _ _) ?_
  · rw [hs]
  · rw [hs]
  · rw [hs]
  · rw [note_arbiter]

/-! #### The Code and the authority (R177) -/

theorem ofWord_eq_none {w : Word} (h : w.toNat = 0 ∨ 19 < w.toNat) : CommandCode.ofWord w = none := by
  unfold CommandCode.ofWord
  split <;> simp_all

/-- Settles O12: the command is judged by the unit state, then by what its slot holds. -/
theorem commandsAreJudged : Obligations.CommandsAreJudged := by
  refine ⟨fun s g base cause hu hbase halign hcause hr => ?faulted, fun s g hu hnone i hi => ?nowhere,
    fun s g hu hr i hi => ?scanning, ?memory, fun s g hr => ⟨fun h => ?code, fun ha => ?_⟩⟩
  case faulted =>
    have hslot : s.slotAddress g.slot 7 % 4 = 0 := by
      simp only [State.slotAddress, hu, if_true, hbase, Option.getD_some]
      omega
    refine ⟨_, rfl, goWrite_closed hr hslot (.inr ⟨hu, by simp [hbase], ?_⟩) _⟩
    rw [hcause]
    cases cause <;> rfl
  case nowhere =>
    obtain ⟨judge, hexec⟩ := goRows_exec hi
    refine yields_of_eq (t := s.goWrite g judge) ((hexec s).trans ?_) (if_pos ⟨hu, hnone⟩)
    have hgo : s.goWrite g judge = s := if_pos ⟨hu, hnone⟩
    rw [hgo, State.close, deliverAll_none fun j h => h]
  case scanning =>
    obtain ⟨judge, hexec⟩ := goRows_exec hi
    exact ⟨_, hexec s, goWrite_closed hr (slotAddress_aligned (by simp [hu]) _ _) (.inl ⟨hu, rfl⟩) judge⟩
  case memory =>
    intro s g hu hr bad hbad hno i hi
    obtain ⟨judge, hexec⟩ := goRows_exec hi
    refine ⟨_, hexec s, goWrite_memory hr (slotAddress_aligned (by simp [hu]) _ _) hu hno ?_ judge⟩
    obtain ⟨w, hw⟩ := List.exists_mem_of_ne_nil _ hbad
    obtain ⟨hrange, hhealth⟩ := List.mem_filter.1 hw
    exact ⟨w, List.mem_range.1 hrange, of_decide_eq_true hhealth⟩
  case code =>
    refine ⟨_, rfl, completes_of hr rfl rfl rfl ?_⟩
    unfold judgeUnknown
    rw [ofWord_eq_none h]
    rfl
  have hcode {w : Nat} {c : CommandCode} (h : (s.commandRecord g.slot g.mode).code.toNat = w)
      (hc : CommandCode.ofWord (BitVec.ofNat 32 w) = some c) :
      CommandCode.ofWord (s.commandRecord g.slot g.mode).code = some c := by
    rw [← hc, ← h, BitVec.ofNat_toNat, BitVec.setWidth_eq]
  refine ⟨fun h => ?_, fun h => ?_, fun h => ?_, fun h => ?_, fun h => ?_, fun h => ?_⟩
  · exact refusedAuthority_answers hr (c := .setDirection) (fun _ => rfl) (hcode h rfl) rfl ha
  · exact refusedAuthority_answers hr (c := .bankSwitch) (fun _ => rfl) (hcode h rfl) rfl ha
  · exact refusedAuthority_answers hr (c := .denyRemove) (fun _ => rfl) (hcode h rfl) rfl ha
  · exact refusedAuthority_answers hr (c := .lineRestart) (fun _ => rfl) (hcode h rfl) rfl ha
  · exact refusedAuthority_answers hr (c := .lineCheckStart) (fun _ => rfl) (hcode h rfl) rfl ha
  · exact refusedAuthority_answers hr (c := .lineCheckStop) (fun _ => rfl) (hcode h rfl) rfl ha

end

end Sys2Proof.Machine

/-! ### The Status Writer (R184) -/

namespace Sys2Proof.Machine

section
variable {s t : State} {i : Nat} {rest : List Nat}

/-! #### The stale set -/

theorem mem_insertStale_iff {j : Nat} {l : List Nat} : j ∈ insertStale i l ↔ j = i ∨ j ∈ l := by
  induction l with
  | nil => simp [insertStale]
  | cons k rest ih =>
    unfold insertStale
    split_ifs with h1 h2
    · simp
    · subst h2
      simp
    · simp only [List.mem_cons, ih]
      tauto

theorem mem_mergeStale_iff {j : Nat} {l stale : List Nat} : j ∈ mergeStale l stale ↔ j ∈ l ∨ j ∈ stale := by
  induction l generalizing stale with
  | nil => simp [mergeStale]
  | cons k rest ih =>
    rw [mergeStale, ih, mem_insertStale_iff, List.mem_cons]
    tauto

/-- Words that become stale join the set, each once, and the others stay (R184). -/
theorem mem_makeStale_iff {l : List Nat} : i ∈ (s.makeStale l).status.stale ↔ i ∈ l ∨ i ∈ s.status.stale := by
  unfold State.makeStale
  split
  · simp
  · rename_i h
    rw [h]
    exact mem_mergeStale_iff
  · exact mem_mergeStale_iff

/-! #### The Change Counts that are due -/

/-- Memory after values have been written to one word, in order. -/
def countsWritten (m : Memory) (a : Nat) (l : List Word) : Memory := l.foldl (fun m v => m.writeWord a v) m

theorem countsWritten_byte (m : Memory) (a : Nat) (l : List Word) {b : Nat} (h : b < a ∨ a + 4 ≤ b) :
    (countsWritten m a l).byte b = m.byte b := by
  induction l generalizing m with
  | nil => rfl
  | cons v rest ih => exact (ih (m.writeWord a v)).trans (Memory.byte_writeWord_other v h)

theorem countsWritten_upset (m : Memory) (a : Nat) (l : List Word) {b : Nat} (h : b ≠ a) :
    (countsWritten m a l).upset b = m.upset b := by
  induction l generalizing m with
  | nil => rfl
  | cons v rest ih => exact (ih (m.writeWord a v)).trans (Memory.upset_writeWord_other v h)

theorem countsWritten_wf {m : Memory} (a : Nat) (l : List Word) (h : m.wf = true) : (countsWritten m a l).wf = true := by
  induction l generalizing m with
  | nil => exact h
  | cons v rest ih => exact ih (Memory.wf_writeWord a v h)

/-- The last of the values stands in the word, which is clean. -/
theorem countsWritten_last {m : Memory} (a : Nat) {l : List Word} (h : m.wf = true) {v : Word} (hl : l.getLast? = some v) :
    (countsWritten m a l).word a = v ∧ (countsWritten m a l).health a = .clean := by
  obtain ⟨before, rfl⟩ := List.getLast?_eq_some_iff.1 hl
  have hm := countsWritten_wf a before h
  rw [countsWritten, List.foldl_append]
  exact ⟨Memory.word_writeWord_self a v hm, Memory.health_writeWord_self a v hm⟩

/-- The requests may go from the arbiter where nothing goes before a word (R167). -/
theorem PathFree.of_requests {x : Block} {p : Nat} (h : s.PathFree x p) (hr : t.reader = s.reader)
    (hp : t.processor = s.processor) (hq : ∀ y ∈ t.arbiter.requests, y ∈ s.arbiter.requests) : t.PathFree x p :=
  ⟨by rw [hr]; exact h.reader, by rw [hp]; exact h.processor, fun y hy => h.others y (hq y hy)⟩

/-- Where nothing goes before the Status Writer's words, the Change Counts that are due are written one after the other
(R184). -/
theorem statusTurns_due (h : s.PathFree .statusArea 5) :
    ∃ l, s.statusTurns s.status.due.length = { s with
        memory := countsWritten s.memory (s.statusAddress 0) s.status.due, status := { s.status with due := [] }
        arbiter := { s.arbiter with requests := l } }
      ∧ ∀ y ∈ l, y ∈ s.arbiter.requests := by
  generalize hd : s.status.due = due
  induction due generalizing s with
  | nil =>
    have hstatus : ({ s.status with due := [] } : StatusWriter) = s.status := by rw [← hd]
    exact ⟨s.arbiter.requests, by rw [hstatus]; rfl, fun _ => id⟩
  | cons v due ih =>
    have hwrite : (s.retract .statusArea).statusOperation =
        ((s.retract .statusArea).writeWord (s.statusAddress 0) v).setStatus { s.status with due := due } := by
      have hd' : (s.retract .statusArea).status.due = v :: due := hd
      unfold State.statusOperation
      rw [hd']
      simp only [State.writeCount, hd']
      rfl
    obtain ⟨l, hl, hsub⟩ := ih (s := ((s.retract .statusArea).writeWord (s.statusAddress 0) v).setStatus
      { s.status with due := due }) (PathFree.of_requests (h.retract .statusArea) rfl rfl fun _ => id) rfl
    refine ⟨l, ?_, fun y hy => List.mem_of_mem_erase (hsub y hy)⟩
    rw [List.length_cons, State.statusTurns, turn_free h, hwrite, hl]
    rfl

/-- The end of a row after words of the Status Writer: nothing mirrored has changed (R184). -/
theorem settle_written (m : Memory) (stale : List Nat) (count : Option Word) (due : List Word) (a : Arbiter) :
    let t : State := { s with
      memory := m, status := { s.status with stale := stale, changeCount := count, due := due }, arbiter := a }
    s.settle t = t.enrol := by
  intro t
  rw [State.settle, note_same (s := s) (t := t) fun i => rfl]

/-- Settles O59: the due counts, the lowest stale word and, after the last, the new count; and the law of `makeStale`. -/
theorem statusWordIsWritten : Obligations.StatusWordIsWritten := by
  refine ⟨?stale, ?none, fun s words => ?marks⟩
  case none =>
    intro s hstale hw hp base
    have haddr : s.statusAddress 0 = base := rfl
    obtain ⟨l, hl, -⟩ := statusTurns_due hp
    have hrow : s.writeStatusWord = s.statusTurns s.status.due.length := by
      rw [State.writeStatusWord]
      dsimp only
      rw [hl]
      simp only [hstale]
    have hexec : exec .statusWordWrite s = .next (s.settle (s.statusTurns s.status.due.length)) := by rw [← hrow]; rfl
    have hsettle := settle_written (s := s) (countsWritten s.memory (s.statusAddress 0) s.status.due) s.status.stale
      s.status.changeCount [] { s.arbiter with requests := l }
    rw [hl, hsettle] at hexec
    refine ⟨_, hexec, rfl, hstale, rfl, rfl, fun v hv => countsWritten_last _ hw hv,
      fun b hb => countsWritten_byte _ _ _ hb, fun hd => ?_⟩
    show countsWritten s.memory _ s.status.due = s.memory
    rw [hd]
    rfl
  case stale =>
    intro s i rest count hstale hi0 hi hcount hw hp hresult base
    have haddr (k : Nat) : s.statusAddress k = base + 4 * k := rfl
    obtain ⟨l, hl, hsub⟩ := statusTurns_due hp
    set m := countsWritten s.memory (s.statusAddress 0) s.status.due with hm
    set v : State := { s with
      memory := m, status := { s.status with due := [] }, arbiter := { s.arbiter with requests := l } } with hv
    have hvfree : v.PathFree .statusArea 5 := PathFree.of_requests hp rfl rfl hsub
    have hone : v.statusTurns 1 = (v.retract .statusArea).writeStale i rest := by
      show (v.turn .statusArea).statusOperation = _
      rw [turn_free hvfree]
      unfold State.statusOperation
      have hstale' : (v.retract .statusArea).status.stale = i :: rest := hstale
      have hdue' : (v.retract .statusArea).status.due = [] := rfl
      rw [hstale', hdue']
    set x : State := ((v.retract .statusArea).writeWord (s.statusAddress i) (s.mirrorWord i)).setStatus
      { v.status with stale := rest } with hx
    have hwritten : (v.retract .statusArea).writeStale i rest =
        if rest = [] then x.setStatus (raiseCount x.status) else x := by
      rw [writeStale_eq]
      have hdetail : x.detailWritten i = x := detailWritten_none hresult
      exact (by rw [hdetail] : (let y := x.detailWritten i; if rest = [] then y.setStatus (raiseCount y.status) else y) = _)
    have hrow : s.writeStatusWord = (v.statusTurns 1).statusTurns (v.statusTurns 1).status.due.length := by
      have hleft : (s.statusTurns s.status.due.length).status.stale = i :: rest := by
        rw [hl]
        exact hstale
      unfold State.writeStatusWord
      simp only [hleft]
      rw [hl]
    have hexec : exec .statusWordWrite s = .next (s.settle s.writeStatusWord) := rfl
    have hwm : m.wf = true := countsWritten_wf _ _ hw
    have hbytes (b : Nat) (h1 : b < base ∨ base + 4 ≤ b) (h2 : b < base + 4 * i ∨ base + 4 * i + 4 ≤ b) :
        (m.writeWord (s.statusAddress i) (s.mirrorWord i)).byte b = s.memory.byte b :=
      (Memory.byte_writeWord_other _ h2).trans (countsWritten_byte _ _ _ h1)
    have hword : (m.writeWord (s.statusAddress i) (s.mirrorWord i)).word (s.statusAddress i) = s.mirrorWord i :=
      Memory.word_writeWord_self _ _ hwm
    have hhealth : (m.writeWord (s.statusAddress i) (s.mirrorWord i)).health (s.statusAddress i) = .clean :=
      Memory.health_writeWord_self _ _ hwm
    by_cases hrest : rest = []
    · set counted : State := x.setStatus (raiseCount x.status) with hcounted
      have hdone : v.statusTurns 1 = counted := by rw [hone, hwritten, if_pos hrest]
      have hdue : counted.status.due = [count + 1] := by simp [hcounted, raiseCount, State.setStatus, hx, hv, hcount]
      have hraised : counted.status.changeCount = some (count + 1) := by
        simp [hcounted, raiseCount, State.setStatus, hx, hv, hcount]
      obtain ⟨l', hl', -⟩ := statusTurns_due (s := counted) (PathFree.of_requests (hvfree.retract .statusArea) rfl rfl fun _ => id)
      have hmem : countsWritten counted.memory (counted.statusAddress 0) counted.status.due =
          (m.writeWord (s.statusAddress i) (s.mirrorWord i)).writeWord base (count + 1) := by
        rw [hdue]
        rfl
      have hsettle := settle_written (s := s) ((m.writeWord (s.statusAddress i) (s.mirrorWord i)).writeWord base (count + 1))
        rest (some (count + 1)) [] { s.arbiter with requests := l' }
      rw [hrow, hdone, hl', hmem] at hexec
      have hstate : ({ counted with
          memory := (m.writeWord (s.statusAddress i) (s.mirrorWord i)).writeWord base (count + 1)
          status := { counted.status with due := [] }, arbiter := { counted.arbiter with requests := l' } } : State) =
          { s with
            memory := (m.writeWord (s.statusAddress i) (s.mirrorWord i)).writeWord base (count + 1)
            status := { s.status with stale := rest, changeCount := some (count + 1), due := [] }
            arbiter := { s.arbiter with requests := l' } } := by
        rw [← hraised]
        rfl
      rw [hstate, hsettle] at hexec
      have hwf := Memory.wf_writeWord (s.statusAddress i) (s.mirrorWord i) hwm
      refine ⟨_, hexec, rfl, rfl, rfl, ?_, ?_, fun b h1 h2 => ?_, fun h => absurd hrest h, fun _ => ⟨rfl, ?_⟩⟩
      · exact (Memory.word_writeWord_other _ (by omega)).trans hword
      · exact (Memory.health_writeWord_other _ (by omega)).trans hhealth
      · exact (Memory.byte_writeWord_other _ h1).trans (hbytes b h1 h2)
      · exact Memory.word_writeWord_self _ _ hwf
    · have hdone : v.statusTurns 1 = x := by rw [hone, hwritten, if_neg hrest]
      have hsettle := settle_written (s := s) (m.writeWord (s.statusAddress i) (s.mirrorWord i)) rest s.status.changeCount []
        { s.arbiter with requests := l.erase .statusArea }
      rw [hrow, hdone, show x.statusTurns x.status.due.length = x from rfl] at hexec
      have hend : exec .statusWordWrite s = _ := hexec.trans (congrArg Host.Outcome.next hsettle)
      have hbase {b : Nat} (h : b + 4 ≤ s.statusAddress i ∨ s.statusAddress i + 4 ≤ b) :
          (m.writeWord (s.statusAddress i) (s.mirrorWord i)).word b = m.word b := Memory.word_writeWord_other _ h
      refine ⟨_, hend, rfl, rfl, rfl, hword, hhealth, hbytes, fun _ => ⟨hcount, fun c hc => ?_, fun hd => ?_⟩,
        fun h => absurd h hrest⟩
      · exact (hbase (by rw [haddr]; omega)).trans (countsWritten_last _ hw hc).1
      · refine (hbase (by rw [haddr]; omega)).trans ?_
        rw [hm, hd]
        rfl
  case marks =>
    intro t
    refine ⟨?_, fun i => mem_makeStale_iff, makeStale_rising, fun h => ?_,
      fun count hwords hstale hcount => ?_⟩
    · unfold t State.makeStale
      split <;> rfl
    · unfold t State.makeStale
      rcases h with rfl | h
      · exact ⟨rfl, rfl⟩
      · split
        · exact ⟨rfl, rfl⟩
        · exact absurd ‹_› h
        · exact ⟨rfl, rfl⟩
    · obtain ⟨w, l, rfl⟩ := List.exists_cons_of_ne_nil hwords
      have hmade : t = s.setStatus (raiseCount { s.status with stale := mergeStale (w :: l) [] }) := by
        unfold t State.makeStale
        rw [hstale]
      rw [hmade]
      simp [raiseCount, State.setStatus, hcount, State.hasWord, State.statusWaiting]

end

end Sys2Proof.Machine

/-! ### The start of a run, its hand-over, and the return to IDLE (R18, R19, R27, R78, R79, R99) -/

namespace Sys2Proof.Machine

section
variable {r s t u w y : State} {n : Lane} {k : SlotId} {i : Instr} {outcome : CommandOutcome} {detail : Detail}

/-! #### A row that may complete a command -/

/-- `s` with the command in slot `k` complete and its result word written (R178). -/
def State.ended (s : State) (k : SlotId) (outcome : CommandOutcome) (detail : Detail) : State :=
  { s with
    memory := s.memory.writeWord (s.slotAddress k 6) (resultWord (s.slot k).lastTaken outcome detail)
    slots := s.slots.set k.val { s.slot k with busy := false, reading := none, command := none, result := none } }

theorem ended_slot : (s.ended k outcome detail).slot k =
    { s.slot k with busy := false, reading := none, command := none, result := none } := by
  simp [State.ended, State.slot]

theorem ended_slot_other {j : SlotId} (h : j ≠ k) : (s.ended k outcome detail).slot j = s.slot j := by
  have : k.val ≠ j.val := fun e => h (Fin.ext e.symm)
  simp [State.ended, State.slot, this]

/-- The result word of a command that completes in a row, and carries no Detail Value, is written at its end (R178). -/
theorem deliverAll_ended (hy : (w.complete k outcome detail).Mirrored y) (hslots : w.slots = r.slots)
    (hresult : (r.slot k).result = none) (hfree : y.PathFree (.commandSlot k) 5) :
    (w.ended k outcome detail).Mirrored (r.deliverAll y) := by
  obtain ⟨hself, hother⟩ := complete_slots (s := w) k outcome detail none
  have hyslot (j : SlotId) : y.slot j = (w.complete k outcome detail).slot j := by simp only [State.slot, hy.slots]
  have hwslot (j : SlotId) : w.slot j = r.slot j := by simp only [State.slot, hslots]
  have hplaced : y.slot k = { w.slot k with
      busy := true, reading := none, command := none
      result := some ⟨resultWord (w.slot k).lastTaken outcome detail, false⟩ } := by
    rw [hyslot, complete_none]
    simp [State.offer, State.slot, State.placeResult, State.setSlot]
    split_ifs <;> simp
  have hdeliver := deliver_plain (by rw [hplaced]) hfree
  rw [deliverAll_one (by rw [hyslot]; exact hself) hresult
    (fun j hj h => by rwa [hyslot, hother j hj, hwslot] at h) (by rw [hdeliver]; simp [State.slot]), hdeliver, hplaced]
  have hframe : (w.placeResult k outcome detail false).Mirrored y := (offer_mirrored _ _).trans hy
  have haddress : y.slotAddress k 6 = w.slotAddress k 6 := by
    rw [show y = _ from hframe]
    rfl
  have hset (x : CommandSlot) : y.slots.set k.val x = w.slots.set k.val x := by
    rw [hframe.slots]
    simp [State.placeResult, State.setSlot]
  rw [haddress, hframe.memory, hset]
  unfold State.Mirrored at hframe ⊢
  generalize y.status.stale = y1, y.status.changeCount = y2, y.status.due = y3, y.arbiter.requests = y4 at hframe
  subst hframe
  rfl

theorem State.Mirrored.ended_effect (h : (w.ended k outcome detail).Mirrored t) (hwf : w.memory.wf = true) :
    ({ w with memory := t.memory, slots := t.slots }).Mirrored t ∧ (t.slot k).busy = false
    ∧ (∀ j, j ≠ k → t.slot j = w.slot j)
    ∧ t.memory.word (w.slotAddress k 6) = resultWord (w.slot k).lastTaken outcome detail
    ∧ w.SameBytesBut t (w.slotAddress k 6) 4 := by
  have hslot (j : SlotId) : t.slot j = (w.ended k outcome detail).slot j := by simp only [State.slot, h.slots]
  refine ⟨?_, ?_, fun j hj => ?_, ?_, fun b hb => ?_⟩
  · rw [h.memory, h.slots]
    exact h
  · rw [hslot, ended_slot]
  · rw [hslot, ended_slot_other hj]
  · rw [h.memory]
    exact Memory.word_writeWord_self _ _ hwf
  · rw [h.memory]
    exact Memory.byte_writeWord_other _ hb

/-- A row that completes no command leaves what its rule gives. -/
theorem yields_of_close (h : exec i s = .next (s.close t)) (hslots : t.slots = s.slots) (hu : t = u) : s.Yields i u := by
  have hnone : s.deliverAll t = t := deliverAll_none fun j hj => by
    rwa [State.slot, hslots] at hj
  exact yields_of_eq (t := t) (by rw [h, State.close, hnone]) hu

/-! #### The return to IDLE (R79) -/

/-- The pin that lane `n` gives back (R46). -/
theorem releasePin_eq (s : State) (n : Lane) :
    s.releasePin n = { s with
      banks := s.banks.unpinned (s.lane n).pinned, lanes := s.lanes.set n { s.lane n with pinned := none } } := by
  unfold State.releasePin
  rcases h : (s.lane n).pinned with _ | _ | _
  · have hsame : { s.lane n with pinned := none } = s.lane n := by rw [← h]
    rw [hsame, State.lane, Quad.set_get]
    rfl
  · rfl
  · rfl

/-- Lane `n` returns to IDLE (R79). -/
theorem returnToIdle_eq (s : State) (n : Lane) : s.returnToIdle n = s.idled n := by
  unfold State.returnToIdle
  rw [giveBack_eq, releasePin_eq]
  simp only [State.lane, State.setLane, Quad.get_set_self, Quad.set_set]
  rfl

/-- What lane `n` gives back where the Journal Writer is free: the Reservation Total falls at once (R109, R111). -/
theorem returned_free (hj : s.journal.job = none) (hq : s.journal.queue = []) :
    s.returned n = { s.journal with
      reservationTotal := s.journal.reservationTotal - (s.lane n).reservation } := by
  unfold State.returned
  split_ifs with h
  · rw [h]
    rfl
  · rw [State.request, hj]
    rw [hq]
    simp only [List.nil_append, State.serveFrom, State.serve, Journal.passed, State.setJournal, hj, hq]

/-- What lane `n` gives back while a request is in progress is requested behind the others (R109). -/
theorem returned_waits (hj : s.journal.job ≠ none) (hr : (s.lane n).reservation ≠ 0) :
    s.returned n = { s.journal with queue := s.journal.queue ++ [.giveBack (s.lane n).reservation] } := by
  obtain ⟨job, hjob⟩ := Option.ne_none_iff_exists'.1 hj
  rw [State.returned, if_neg hr, State.request, hjob]
  rfl

/-- A command that completes leaves the path as free for its own result word as it was (R166). -/
theorem State.PathFree.complete (h : w.PathFree (.commandSlot k) 5) :
    (w.complete k outcome detail).PathFree (.commandSlot k) 5 := by
  rw [complete_none]
  refine ⟨?_, ?_, fun z hz => ?_⟩
  · rw [(offer_mirrored _ _).reader]
    exact h.reader
  · rw [(offer_mirrored _ _).processor]
    exact h.processor
  · rw [offer_requests] at hz
    by_cases hz' : z ∈ w.arbiter.requests
    · exact h.others z hz'
    · left
      split_ifs at hz
      · exact absurd hz hz'
      · rcases List.mem_append.1 hz with h | h
        · exact absurd h hz'
        · exact List.mem_singleton.1 h

/-- A lane whose run is discarded is back in IDLE, and the LANE_RESET that waits is complete (R99). -/
theorem discardRun_ended (hk : (s.lane n).resetSlot = some k) (hs : s.slots = r.slots)
    (hresult : (r.slot k).result = none) (hfree : s.PathFree (.commandSlot k) 5) :
    ((s.idled n).ended k .done .discarded).Mirrored (r.close (s.discardRun n)) := by
  rw [State.discardRun, hk, returnToIdle_eq]
  have hfree' : (s.idled n).PathFree (.commandSlot k) 5 := ⟨hfree.reader, hfree.processor, hfree.others⟩
  exact (deliverAll_ended (w := s.idled n) (r := r) (.refl _) (by exact hs) hresult hfree'.complete).trans
    (settle_mirrored _ _)

/-! #### SCREENING_RUN_START -/

/-- Settles O34: the head lane's run stands before its first check, or is discarded. -/
theorem runStartsWithHeadLane : Obligations.RunStartsWithHeadLane := by
  intro s n rest hrun hqueue
  have hexec : exec .screeningRunStart s = .next (s.close s.startRun) := rfl
  set u : State := { s with screening := { queue := rest, run := none } } with hu
  have hleft : s.setScreening { s.screening with queue := rest } = u := by
    rw [hu, ← hrun]
    rfl
  have hstart : s.startRun = if (s.lane n).resetRequested then u.discardRun n
      else u.setScreening { u.screening with run := some (Run.start n) } := by
    unfold State.startRun
    rw [hrun, hqueue]
    dsimp only
    rw [hleft]
  refine ⟨fun hreset => yields_of_close (t := s.startRun) hexec ?_ ?_, fun k hreset hk hwf hfree hresult => ?_⟩
  · rw [hstart, if_neg (by simp [hreset])]
    rfl
  · rw [hstart, if_neg (by simp [hreset])]
    rfl
  · obtain ⟨t, ht, hm⟩ : ∃ t, exec .screeningRunStart s = .next t ∧ ((u.idled n).ended k .done .discarded).Mirrored t := by
      refine ⟨_, hexec, ?_⟩
      rw [hstart, if_pos hreset]
      exact discardRun_ended (s := u) hk rfl hresult ⟨hfree.reader, hfree.processor, hfree.others⟩
    obtain ⟨hframe, hbusy, hothers, hword, hbytes⟩ := hm.ended_effect hwf
    have hlane : t.lane n = (s.lane n).idled := by
      rw [State.lane, hm.lanes]
      exact Quad.get_set_self _ _ _
    refine ⟨t, ht, hframe, hm.banks, fun hj hq => hm.journal.trans ?_, fun hj hr => hm.journal.trans ?_, ?_, ?_, ?_, ?_, ?_,
      ?_, fun m hne => ?_, hbusy, hothers, hword, hbytes⟩
    · exact returned_free (s := u) hj hq
    · exact returned_waits (s := u) hj hr
    iterate 6 exact hlane ▸ rfl
    · rw [State.lane, hm.lanes]
      exact Quad.get_set_other _ _ hne

end

end Sys2Proof.Machine

/-! ### The hand-over of a verdict (R19, R20, R27, R28, R78, R99) -/

namespace Sys2Proof.Machine

section
variable {s t u : State} {r : Run} {d : Decision} {n : Lane} {k : SlotId}

theorem runAt_of {x : RunStage} (hr : s.screening.run = some r) (hx : r.stage = x) : s.runAt x = some r := by
  simp only [State.runAt, hr]
  exact if_pos hx

/-- The verdict that is handed over (R20). -/
theorem verdict_eq (h : if r.bankDamaged = true then d = .unitFault .bankDamaged else r.decision = some d) :
    r.verdict = d := by
  unfold Run.verdict
  split_ifs at h ⊢
  · exact h.symm
  · rw [h]
    rfl

theorem handedFare_eq (r : Run) :
    r.handedFare = if r.verdict = .accept ∨ r.verdict = .insufficient then (r.fare.map (·.fare)).getD 0 else 0 := by
  unfold Run.handedFare
  split
  · next h => rw [if_pos (.inl h)]
  · next h => rw [if_pos (.inr h)]
  · next h h' => rw [if_neg fun hv => hv.elim h h']

theorem handedFlags_eq (r : Run) :
    r.handedFlags =
      if r.verdict = .accept ∨ r.verdict = .insufficient then (r.fare.map (·.flags)).getD FareFlags.none
      else FareFlags.none := by
  unfold Run.handedFlags
  split
  · next h => rw [if_pos (.inl h)]
  · next h => rw [if_pos (.inr h)]
  · next h h' => rw [if_neg fun hv => hv.elim h h']

/-- The refusals that are journaled before the hand-over (R26, R27). -/
theorem journaled_iff (d : Decision) :
    d.journaled = true ↔ d = .forgedKey ∨ d = .forgedTag ∨ (∃ p q, d = .deniedCentral p q) ∨ d = .deniedLocal
      ∨ d = .deniedNeighbor ∨ d = .cloneRegression ∨ d = .cloneDiverged ∨ d = .passback ∨ d = .insufficient
      ∨ d = .counterExhausted := by
  cases d <;> simp [Decision.journaled]

/-- The Verdict Record of a run, its lane's Context being `l` (R82). -/
theorem runRecord_eq (s : State) (r : Run) (degraded : Bool) :
    s.runRecord r degraded =
      { number := 0, lane := r.lane, reissues := (s.lane r.lane).reissues, decision := r.verdict, flags := r.handedFlags
        degraded := degraded, recovery := false, fare := r.handedFare, serial := (s.lane r.lane).landed.map cardSerial
        counter := (s.lane r.lane).landed.map cardCounter
        balance := if r.verdict = .accept then (s.lane r.lane).composed.map (fun img => img[4])
          else (s.lane r.lane).landed.map (fun img => img[4])
        time := r.now } := rfl

/-- Settles O42: by the mark, and then by the verdict. -/
theorem verdictIsHandedOver : Obligations.VerdictIsHandedOver := by
  intro s r d hrun hstage hd
  have hexec : exec .verdictHandover s = .next (s.close (s.handOver r)) := by
    show Host.Outcome.next _ = _
    rw [runAt_of hrun hstage]
  obtain rfl := verdict_eq hd
  intro n l degraded free fare flags record landedBalance journaled
  have hfare : r.handedFare = fare := handedFare_eq r
  have hflags : r.handedFlags = flags := handedFlags_eq r
  have hdegraded : s.degradedNow = degraded := degradedNow_eq s
  refine ⟨fun hreset => ⟨fun ha => ?accept, fun hj => ?journaled, fun ha hj => ?refusal⟩,
    fun k hreset hk hwf hfree hresult => ?reset⟩
  case accept =>
    have hrule : s.handOver r = s.handAccept r := (if_neg (by simpa using hreset)).trans (if_pos ha)
    refine yields_of_close (t := s.handAccept r) (hrule ▸ hexec) rfl ?_
    unfold State.handAccept
    dsimp only
    rw [runRecord_eq, hfare, hflags, hdegraded, if_pos ha]
    simp only [State.lane, State.setLane, Quad.get_set_self]
    rfl
  case journaled =>
    have hj' : r.verdict.journaled = true := (journaled_iff _).2 hj
    have hne : r.verdict ≠ .accept := fun h => by
      rw [h] at hj'
      cases hj'
    have hrule : s.handOver r = s.journalRefusal r :=
      (if_neg (by simpa using hreset)).trans ((if_neg hne).trans (if_pos hj'))
    have hrefusing : s.journalRefusal r = State.request
        { s with screening := { s.screening with run := some { r with stage := .refusing, degraded := degraded } } }
        (.append (s.refusalDraft r degraded) (.handOver r.lane)) := by
      unfold State.journalRefusal State.changeRun
      rw [hrun, hdegraded]
      rfl
    rw [State.refusalDraft, hfare, hflags] at hrefusing
    exact yields_of_close (t := s.handOver r) hexec (by rw [hrule, hrefusing, request_frame]) (hrule.trans hrefusing)
  case refusal =>
    have hj' : r.verdict.journaled = false := by
      rw [← Bool.not_eq_true, journaled_iff]
      exact hj
    have hrule : s.handOver r = s.handRefusal r s.degradedNow :=
      (if_neg (by simpa using hreset)).trans ((if_neg ha).trans (if_neg (by simp [hj'])))
    refine yields_of_close (t := s.handRefusal r s.degradedNow) (hrule ▸ hexec) ?_ ?_
    all_goals
      unfold State.handRefusal
      rw [giveBack_eq]
    · rfl
    · dsimp only
      rw [runRecord_eq, hfare, hflags, hdegraded, if_neg ha]
      simp only [State.lane, Quad.get_set_self]
      rfl
  case reset =>
    have hrule : s.handOver r = free.discardRun n := if_pos hreset
    obtain ⟨t, ht, hm⟩ : ∃ t, exec .verdictHandover s = .next t
        ∧ ((free.idled n).ended k .done .discarded).Mirrored t := by
      refine ⟨_, hexec, ?_⟩
      rw [hrule]
      exact discardRun_ended (s := free) hk rfl hresult ⟨hfree.reader, hfree.processor, hfree.others⟩
    obtain ⟨hframe, hbusy, hothers, hword, hbytes⟩ := hm.ended_effect hwf
    exact ⟨t, ht, hframe, hbusy, hothers, hword, hbytes⟩

end

end Sys2Proof.Machine

/-! ### What the reads of a run find and leave (R22, R52, R53, R166, R170) -/

namespace Sys2Proof.Machine

section
variable {s t u : State} {r : Run} {d : Decision} {n : Lane} {x : BankId} {b : Block} {a : Nat} {l : List Nat} {i : Instr}

/-! #### The requests at the arbiter -/

/-- `s` with other requests at the arbiter (R166). -/
def State.queued (s : State) (q : List Block) : State := { s with arbiter := { s.arbiter with requests := q } }

theorem queued_mirrored (s : State) (q : List Block) : s.Mirrored (s.queued q) := rfl

theorem request_queued (q : List Block) (r : JournalRequest) : (s.queued q).request r = (s.request r).queued q := by
  have hjournal : ((s.queued q).request r).journal = (s.request r).journal := request_congr rfl rfl
  rw [request_frame, hjournal, request_frame (s := s)]
  rfl

/-- What a row's block reads where nothing goes before its words (R166). -/
theorem perform_gives {α : Type} {p : Reads α} {v : α} (hr : Reads.By b p) (h : s.PathFree b b.requester.place)
    (hp : s.readThrough p = (v, u)) : ∃ q, s.perform p = (v, u.queued q) ∧ ∀ y ∈ q, y ∈ s.arbiter.requests := by
  obtain ⟨q, hq, hsub⟩ := perform_free hr h
  have harb : u.arbiter = s.arbiter := by
    have hl := readThrough_leaves (s := s) p
    rw [hp] at hl
    rw [show u = _ from hl]
  refine ⟨q, ?_, hsub⟩
  rw [hq, hp, State.queued, harb]

/-- A row that leaves `u`, but for the requests at the arbiter. -/
theorem yields_of_mirrored (h : exec i s = .next (s.settle t)) (hu : u.Mirrored t) : s.Yields i u :=
  ⟨_, h, hu.trans (settle_mirrored _ _)⟩

/-! #### A run that has read no word of its step yet -/

theorem decideRun_unread (hr : s.screening.run = some r) (hg : r.got = []) (d : Decision) :
    s.decideRun d = { s with screening := { s.screening with
      run := some { r with decision := some d, stage := .decided } } } := by
  obtain ⟨⟩ := r
  obtain rfl := hg
  exact decideRun_eq hr d

theorem advanceRun_unread (hr : s.screening.run = some r) (hg : r.got = []) (y : RunStage) :
    s.advanceRun y = { s with screening := { s.screening with run := some { r with stage := y } } } := by
  obtain ⟨⟩ := r
  obtain rfl := hg
  exact advanceRun_eq hr y

/-! #### Words that are lost -/

theorem readWord_lost (h : s.memory.health a = .uncorrectable) :
    s.readWord a = (none, s.reportFault .uncorrectable .internal (some a) (some .read) none) := by
  simp [State.readWord, h]

/-- The reads of several words end at the first that is uncorrectable, those before it being clean (R170). -/
theorem readWordsAfter_lost (b : Block) (before : List Word) {front : List Nat} {rest : List Nat}
    (hfront : ∀ c ∈ front, s.memory.health c = .clean) (h : s.memory.health a = .uncorrectable) :
    s.readThrough (Reads.wordsAfter b before (front ++ a :: rest)) =
      (none, s.reportFault .uncorrectable .internal (some a) (some .read) none) := by
  induction front generalizing before with
  | nil =>
    rw [List.nil_append, Reads.wordsAfter, State.readThrough, readWord_lost h]
    rfl
  | cons c front ih =>
    rw [List.cons_append, Reads.wordsAfter, State.readThrough, readWord_clean (hfront c (by simp))]
    exact ih _ fun e he => hfront e (by simp [he])

theorem readWords_lost (b : Block) {front rest : List Nat} (hfront : ∀ c ∈ front, s.memory.health c = .clean)
    (h : s.memory.health a = .uncorrectable) :
    s.readThrough (Reads.words b (front ++ a :: rest)) =
      (none, s.reportFault .uncorrectable .internal (some a) (some .read) none) := readWordsAfter_lost b [] hfront h

/-- An uncorrectable word stays so, whatever is read (R168, R170). -/
theorem readWord_uncorrectable (c : Nat) (h : s.memory.health a = .uncorrectable) :
    (s.readWord c).2.memory.health a = .uncorrectable := by
  unfold State.readWord
  split
  · exact h
  · next hc =>
    have hne : a ≠ c := fun e => by
      rw [e, hc] at h
      cases h
    simp only [spendCorrection_memory, State.setMemory, Memory.health, Memory.upset_scrub_other hne]
    exact h
  · rw [reportFault_memory]
    exact h

/-- Where a word among several is uncorrectable, their reads deliver nothing (R170). -/
theorem readWordsAfter_none (b : Block) (before : List Word) (ha : a ∈ l) (h : s.memory.health a = .uncorrectable) :
    (s.readThrough (Reads.wordsAfter b before l)).1 = none := by
  induction l generalizing s before with
  | nil => cases ha
  | cons c rest ih =>
    rw [Reads.wordsAfter, State.readThrough]
    rcases List.mem_cons.1 ha with rfl | ha
    · rw [readWord_lost h]
      rfl
    · rcases hw : s.readWord c with ⟨w, v⟩
      dsimp only
      have hv : v.memory.health a = .uncorrectable := by
        have := readWord_uncorrectable c h
        rwa [hw] at this
      cases w with
      | none => rfl
      | some w => exact ih (w :: before) ha hv

/-! #### A bank that is lost (R52, R53) -/

/-- The request for the BANK_FALLBACK entry of bank `x` (R53). -/
def State.fallbackEntry (s : State) (x : BankId) (new : Option (BankId × Word)) : JournalRequest :=
  .append (s.freeDraft none (.bankFallback x new)) .nothing

/-- The other bank takes the place of a lost ACTIVE one where it is VALID (R53). -/
theorem fallBack_valid (h : (s.bank x.other).state = some .valid) :
    s.fallBack x = { s with
      banks := { (s.setBank x.other { s.bank x.other with state := some .active }).banks with fallback := true }
      journal := ((State.request { s with journal := { s.journal with
          activeBank := some x.other, activeVersion := (s.bank x.other).version } } (.rewrite false)).request
        (s.fallbackEntry x (some (x.other, (s.bank x.other).version)))).journal } := by
  unfold State.fallBack
  rw [if_pos h]
  set v : State := { s with
    banks := { (s.setBank x.other { s.bank x.other with state := some .active }).banks with fallback := true }
    journal := { s.journal with activeBank := some x.other, activeVersion := (s.bank x.other).version } } with hv
  have hrecord : State.recordBank { s.setBank x.other { s.bank x.other with state := some .active } with
      banks := { (s.setBank x.other { s.bank x.other with state := some .active }).banks with fallback := true } }
        x.other = v.request (.rewrite false) := by
    cases x <;> rfl
  have hversion : ((v.request (.rewrite false)).bank x.other).version = (s.bank x.other).version := by
    rw [request_frame]
    cases x <;> rfl
  have hdraft (body : EntryBody) : (v.request (.rewrite false)).freeDraft none body = s.freeDraft none body := by
    rw [request_frame]
    rfl
  have hjournal : (v.request (.rewrite false)).journal = (State.request { s with journal := { s.journal with
      activeBank := some x.other, activeVersion := (s.bank x.other).version } } (.rewrite false)).journal :=
    request_congr rfl rfl
  dsimp only
  rw [hrecord, State.requestEntry, hversion, hdraft, request_frame, request_congr (t := v.request (.rewrite false)) hjournal
    (by rw [request_frame, request_frame (s := { s with journal := _ })]), request_frame]
  rfl

theorem fallBack_none (h : (s.bank x.other).state ≠ some .valid) :
    s.fallBack x = { s with journal := (s.request (s.fallbackEntry x none)).journal } :=
  (if_neg h).trans (request_frame _)

/-- A lost bank, the run pinned to it being marked (R20, R52). -/
theorem damageBank_eq (hr : s.screening.run = some r) (hp : (s.lane r.lane).pinned = some x) :
    s.damageBank x = { s.bankLost x with
      screening := { s.screening with run := some { r with bankDamaged := true } } } := by
  have hmark : ((s.setBank x { s.bank x with state := some .damaged }).notify .bank).markRun x =
      { (s.setBank x { s.bank x with state := some .damaged }).notify .bank with
        screening := { s.screening with run := some { r with bankDamaged := true } } } := by
    have h1 : ((s.setBank x { s.bank x with state := some .damaged }).notify .bank).screening = s.screening := by
      cases x <;> rfl
    have h2 : (((s.setBank x { s.bank x with state := some .damaged }).notify .bank).lane r.lane).pinned = some x := by
      cases x <;> exact hp
    unfold State.markRun
    rw [h1, hr]
    dsimp only
    rw [if_pos h2]
    rfl
  unfold State.damageBank
  dsimp only
  rw [hmark]
  set v : State := { (s.setBank x { s.bank x with state := some .damaged }).notify .bank with
    screening := { s.screening with run := some { r with bankDamaged := true } } } with hv
  have hother : v.bank x.other = s.bank x.other := by cases x <;> rfl
  have hentry (new : Option (BankId × Word)) : v.fallbackEntry x new = s.fallbackEntry x new := by
    cases x <;> rfl
  have hjournal : v.journal = s.journal := by cases x <;> rfl
  have hcfg : v.cfg = s.cfg := by cases x <;> rfl
  unfold State.bankLost
  by_cases ha : (s.bank x).state = some .active
  · rw [if_pos ha, if_pos ha]
    by_cases hvalid : (s.bank x.other).state = some .valid
    · rw [if_pos hvalid, fallBack_valid (by rw [hother]; exact hvalid), hother, hentry, hjournal]
      have hfirst : (State.request { v with journal := { s.journal with
          activeBank := some x.other, activeVersion := (s.bank x.other).version } } (.rewrite false)).journal =
          (State.request { s with journal := { s.journal with
            activeBank := some x.other, activeVersion := (s.bank x.other).version } } (.rewrite false)).journal :=
        request_congr rfl hcfg
      rw [request_congr hfirst (by rw [request_frame, request_frame (s := { s with journal := _ })]; exact hcfg)]
      cases x <;> rfl
    · rw [if_neg hvalid, fallBack_none (by rw [hother]; exact hvalid), hentry, request_congr hjournal hcfg]
      cases x <;> rfl
  · rw [if_neg ha, if_neg ha]
    cases x <;> rfl

/-- A run that meets a lost word of its bank stops (R22, R52). -/
theorem stopRun_eq (hr : s.screening.run = some r) (hp : (s.lane r.lane).pinned = some x) (hg : r.got = [])
    (hu : s.unit ≠ .faulted) :
    (s.reportFault .uncorrectable .internal (some a) (some .read) none).stopRun x = s.runStopped r x a := by
  rw [reportFault_reported hu, State.stopRun, damageBank_eq (r := r) (by exact hr) (by exact hp),
    decideRun_unread (r := { r with bankDamaged := true }) (by rfl) (by exact hg)]
  rfl

/-- What a lost bank brings does not depend on the requests at the arbiter. -/
theorem bankLost_queued (q : List Block) : (s.queued q).bankLost x = (s.bankLost x).queued q := by
  have hentry (r : JournalRequest) : ((s.queued q).request r).journal = (s.request r).journal := request_congr rfl rfl
  have hrewrite (j : Journal) (r r' : JournalRequest) :
      ((State.request { s.queued q with journal := j } r).request r').journal =
        ((State.request { s with journal := j } r).request r').journal := by
    refine request_congr (request_congr rfl rfl) ?_
    rw [request_frame, request_frame (s := { s with journal := j })]
    rfl
  unfold State.bankLost
  dsimp only
  by_cases ha : (s.bank x).state = some .active
  · by_cases hv : (s.bank x.other).state = some .valid
    · rw [if_pos (by exact ha), if_pos (by exact hv), if_pos ha, if_pos hv]
      rw [hrewrite]
      cases x <;> rfl
    · rw [if_pos (by exact ha), if_neg (by exact hv), if_pos ha, if_neg hv]
      rw [hentry]
      cases x <;> rfl
  · rw [if_neg (by exact ha), if_neg ha]
    cases x <;> rfl

theorem runStopped_mirrored (q : List Block) : (s.runStopped r x a).Mirrored ((s.queued q).runStopped r x a) := by
  have h := bankLost_queued (s := s.faulted .uncorrectable .internal (some a) (some .read) none) (x := x) q
  have hq : (s.queued q).runStopped r x a = (s.runStopped r x a).queued q := by
    unfold State.runStopped
    rw [show (s.queued q).faulted _ _ _ _ _ = (s.faulted .uncorrectable .internal (some a) (some .read) none).queued q from rfl, h]
    rfl
  exact hq ▸ queued_mirrored _ q

end

end Sys2Proof.Machine

/-! ### The unit conditions of a run (R21, R22, R111) -/

namespace Sys2Proof.Machine

section
variable {s t u : State} {r : Run} {d : Decision} {n : Lane} {x : Arrival} {img : Image} {found : Except Decision Image}

theorem Reads.after_nil {α : Type} (p : Reads α) : p.after [] = p := by
  cases p <;> rfl

/-! #### LANDED_IMAGE_READ -/

theorem exec_landedImageRead (hr : s.screening.run = some r) (hs : r.stage = .landing) (hg : r.got = [])
    (hp : s.perform (s.firstCheckReads r.lane) = (found, t)) :
    exec .landedImageRead s = .next (s.settle (t.endFirstCheck r.lane found)) := by
  show Host.Outcome.next _ = _
  rw [runAt_of hr hs]
  dsimp only
  rw [hg, Reads.after_nil, hp]

theorem firstCheckReads_refused (hx : (s.lane n).arrival = some x) (hd : x.refusal = some d) :
    s.firstCheckReads n = .done (.error d) := by
  rw [State.firstCheckReads, hx, Option.getD_some, hd]

/-- What the first check finds of a landing that is read (R21). -/
def firstCheckFound : Option Image → Except Decision Image
  | some img => .ok img
  | none => .error (.unreadable .memory)

theorem firstCheckReads_lands (hx : (s.lane n).arrival = some x) (hd : x.refusal = none) :
    s.firstCheckReads n = (s.landingReads .run n).bind (fun img => .done (firstCheckFound img)) := by
  rw [State.firstCheckReads, hx, Option.getD_some, hd]
  dsimp only
  congr 1
  funext img
  cases img <;> rfl

theorem landingReads_by (s : State) (b : Block) (n : Lane) : Reads.By b (s.landingReads b n) :=
  .bind (.words b [] _) fun _ => .done _

theorem firstCheckReads_by (s : State) (n : Lane) : Reads.By .run (s.firstCheckReads n) := by
  unfold State.firstCheckReads
  split
  · exact .done _
  · refine .bind (landingReads_by s .run n) fun img => ?_
    cases img <;> exact .done _

theorem landing_address (s : State) (n : Lane) (i : Nat) : s.laneAddress n 0 + 4 * i = s.laneAddress n (4 * i) := by
  simp [State.laneAddress]

/-- The landing image that memory holds for lane `n` (01, section 1.3). -/
def State.landing (s : State) (n : Lane) : Image := Vector.ofFn (fun i : Fin 16 => s.memory.word (s.laneAddress n (4 * i.val)))

theorem landingReads_clean (b : Block) (h : ∀ i : Fin 16, s.memory.health (s.laneAddress n (4 * i.val)) = .clean) :
    s.readThrough (s.landingReads b n) = (some (s.landing n), s) := by
  have hclean : ∀ a ∈ wordRun (s.laneAddress n 0) 16, s.memory.health a = .clean := by
    intro a ha
    obtain ⟨i, hi, rfl⟩ := List.mem_map.1 ha
    rw [landing_address]
    exact h ⟨i, List.mem_range.1 hi⟩
  have himg : (Vector.ofFn fun i : Fin 16 => ((wordRun (s.laneAddress n 0) 16).map s.memory.word).getD i.val 0) =
      s.landing n := by
    refine Vector.ext fun i hi => ?_
    simp [wordRun, hi, State.landing, landing_address]
  rw [State.landingReads, readThrough_bind, readWords_clean b hclean, ← himg]
  rfl

theorem landingReads_lost (b : Block) (h : ∃ i : Fin 16, s.memory.health (s.laneAddress n (4 * i.val)) = .uncorrectable) :
    (s.readThrough (s.landingReads b n)).1 = none := by
  obtain ⟨i, hi⟩ := h
  have hmem : s.laneAddress n (4 * i.val) ∈ wordRun (s.laneAddress n 0) 16 :=
    List.mem_map.2 ⟨i.val, List.mem_range.2 i.isLt, landing_address s n i.val⟩
  have hnone := readWordsAfter_none (s := s) b [] hmem hi
  rw [State.landingReads, readThrough_bind]
  rcases hw : s.readThrough (Reads.words b (wordRun (s.laneAddress n 0) 16)) with ⟨words, u⟩
  obtain rfl : words = none := by
    rw [Reads.words] at hw
    rwa [hw] at hnone
  rfl

/-- `s` with the Landed Image and the run of lane `n` as its first check leaves them (R21, R22). -/
def State.checked (s : State) (n : Lane) (landed : Option Image) (r : Run) : State :=
  { s with lanes := s.lanes.set n { s.lane n with landed := landed }, screening := { s.screening with run := some r } }

theorem endFirstCheck_error (hr : s.screening.run = some r) (hg : r.got = []) :
    s.endFirstCheck n (.error d) = s.checked n none { r with decision := some d, stage := .decided } := by
  rw [State.endFirstCheck]
  dsimp only
  rw [decideRun_unread (r := r) (by exact hr) hg]
  rfl

/-- The first check passes, and the unit conditions are made (R22). -/
theorem endFirstCheck_ok (s : State) (n : Lane) (img : Image) :
    s.endFirstCheck n (.ok img) = (s.setLane n { s.lane n with landed := some img }).unitConditions n := rfl

theorem unitRefusal_landed : (s.setLane n { s.lane n with landed := some img }).unitRefusal n = s.unitRefusal n := by
  have h : ((s.setLane n { s.lane n with landed := some img }).lane n).pinned = (s.lane n).pinned := by
    rw [State.lane, State.setLane_lanes, Quad.get_set_self]
  unfold State.unitRefusal
  rw [h]
  rfl

/-- Condition 1: the Service Clock is SET (R22). -/
theorem unitConditions_unset (hr : s.screening.run = some r) (hg : r.got = []) (hc : s.clock = none) :
    s.unitConditions n = { s with screening := { s.screening with
      run := some { r with decision := some (.unitFault .clock), stage := .decided } } } := by
  have hrule : s.unitConditions n = s.decideRun (.unitFault .clock) := by
    rw [State.unitConditions, hc]
  rw [hrule, decideRun_unread hr hg]

theorem changeRun_now (hr : s.screening.run = some r) (now : ServiceTime) :
    s.changeRun (fun q => { q with now := some now }) =
      { s with screening := { s.screening with run := some { r with now := some now } } } := by
  rw [State.changeRun, hr]
  rfl

/-- Conditions 2 to 4: the first that fails refuses the tap (R22). -/
theorem unitConditions_refused {now : ServiceTime} (hr : s.screening.run = some r) (hg : r.got = [])
    (hc : s.clock = some now) (hd : s.unitRefusal n = some d) :
    s.unitConditions n = { s with screening := { s.screening with
      run := some { r with now := some now, decision := some d, stage := .decided } } } := by
  have hrule : s.unitConditions n = (s.changeRun (fun q => { q with now := some now })).decideRun d := by
    rw [State.unitConditions, hc]
    dsimp only
    rw [show State.unitRefusal (s.changeRun (fun q => { q with now := some now })) n = some d from hd]
  rw [hrule, changeRun_now hr,
    decideRun_unread (s := { s with screening := { s.screening with run := some { r with now := some now } } }) rfl hg]

/-- Past the unit conditions the Journal Writer is asked for a reservation (R22). -/
theorem unitConditions_passed {now : ServiceTime} (hr : s.screening.run = some r) (hg : r.got = [])
    (hc : s.clock = some now) (hd : s.unitRefusal n = none) :
    s.unitConditions n = { s with
      screening := { s.screening with run := some { r with now := some now, stage := .reserving } }
      journal := (s.request (.reserve n)).journal } := by
  have hrule : s.unitConditions n =
      ((s.changeRun (fun q => { q with now := some now })).advanceRun .reserving).request (.reserve n) := by
    rw [State.unitConditions, hc]
    dsimp only
    rw [show State.unitRefusal (s.changeRun (fun q => { q with now := some now })) n = none from hd]
  have hrequest : (State.request { s with screening := { s.screening with
      run := some { r with now := some now, stage := .reserving } } } (.reserve n)).journal =
      (s.request (.reserve n)).journal := request_congr rfl rfl
  rw [hrule, changeRun_now hr,
    advanceRun_unread (s := { s with screening := { s.screening with run := some { r with now := some now } } }) rfl hg,
    request_frame, hrequest]

/-- The conditions 2 to 4 by the pin, the bank, the EMERGENCY input and the credits (R22). -/
theorem unitRefusal_cases (s : State) (n : Lane) :
    ((s.lane n).pinned = none → s.unitRefusal n = some (.unitFault .noBank))
    ∧ ∀ b, (s.lane n).pinned = some b →
      ((s.bank b).state = some .damaged → s.unitRefusal n = some (.unitFault .bankDamaged))
      ∧ ((s.bank b).state ≠ some .damaged → s.emergency = true → s.unitRefusal n = some .emergency)
      ∧ ((s.bank b).state ≠ some .damaged → s.emergency = false → 3 ≤ (s.gate n).credits.length →
          s.unitRefusal n = some .gateBusy)
      ∧ ((s.bank b).state ≠ some .damaged → s.emergency = false → (s.gate n).credits.length < 3 →
          s.unitRefusal n = none) := by
  unfold State.unitRefusal
  refine ⟨fun h => by rw [h], fun b h => ?_⟩
  rw [h]
  refine ⟨fun hb => if_pos hb, fun hb he => ?_, fun hb he hc => ?_, fun hb he hc => ?_⟩
  · exact (if_neg hb).trans (if_pos he)
  · exact (if_neg hb).trans ((if_neg (by simp [he])).trans (if_pos hc))
  · exact (if_neg hb).trans ((if_neg (by simp [he])).trans (if_neg (by omega)))

/-! #### JOURNAL_RESERVATION -/

/-- The Journal Writer's next request changes neither sequence (R109). -/
theorem serveFrom_sequences (s : State) (l : List JournalRequest) :
    (s.serveFrom l).journal.next = s.journal.next ∧ (s.serveFrom l).journal.released = s.journal.released := by
  induction l generalizing s with
  | nil => exact ⟨rfl, rfl⟩
  | cons r rest ih =>
    rw [State.serveFrom]
    cases s.serve r with
    | some job => exact ⟨rfl, rfl⟩
    | none =>
      obtain ⟨hn, hr⟩ := ih (s.setJournal (s.journal.passed r))
      refine ⟨hn.trans ?_, hr.trans ?_⟩ <;> cases r <;> rfl

/-- A reservation that finds room (R111). -/
theorem reserve_held (hr : s.screening.run = some r) (h : 2 ≤ s.freeSpace) :
    s.reserve n = { s with
      lanes := s.lanes.set n { s.lane n with reservation := 2 }
      journal := { s.journal with reservationTotal := s.journal.reservationTotal + 2 }
      screening := { s.screening with run := some { r with stage := .format, got := [] } } } := by
  rw [State.reserve, if_pos h]
  exact advanceRun_eq (r := r) (by exact hr) _

/-- A reservation that finds none (R22, R111). -/
theorem reserve_full (hr : s.screening.run = some r) (h : s.freeSpace < 2) :
    s.reserve n = { s with
      screening := { s.screening with
        run := some { r with decision := some .journalFull, stage := .decided, got := [] } }
      status := { s.status with notices := s.status.notices ||| BitVec.ofNat 18 (2 ^ 9) } } := by
  rw [State.reserve, if_neg (by omega)]
  exact decideRun_eq (r := r) (by exact hr) _

/-- Settles O35: by the arrival, the words read and the conditions in order; and by the free space. -/
theorem unitConditionsAreMade : Obligations.UnitConditionsAreMade := by
  refine ⟨fun s r n x hr hn hs hg hfree hx => ?conditions, fun s r n hr hj => ?reservation⟩
  case reservation =>
    have hexec : exec .journalReservation s = .next (s.settle (s.reserve n).nextRequest) := by
      show Host.Outcome.next _ = _
      rw [hj]
    obtain ⟨t, ht, hm⟩ : ∃ t, exec .journalReservation s = .next t ∧ (s.reserve n).nextRequest.Mirrored t :=
      ⟨_, hexec, settle_mirrored _ _⟩
    have hsequences : t.journal.next = (s.reserve n).journal.next ∧ t.journal.released = (s.reserve n).journal.released := by
      rw [hm.journal]
      exact serveFrom_sequences (s.reserve n) _
    by_cases hfree : 2 ≤ s.freeSpace
    · rw [reserve_held hr hfree] at hm hsequences
      exact ⟨t, ht, hsequences.1, hsequences.2, fun _ => hm, fun h => by omega⟩
    · rw [reserve_full hr (by omega)] at hm hsequences
      exact ⟨t, ht, hsequences.1, hsequences.2, fun h => absurd h hfree, fun _ => hm⟩
  case conditions =>
    subst hn
    intro l outcome refused img
    have hrefused (d : Decision) (hd : x.refusal = some d) : s.Yields .landedImageRead (refused none r.now d) := by
      have hperform : s.perform (s.firstCheckReads r.lane) = (.error d, s) := by
        rw [firstCheckReads_refused hx hd]
        rfl
      exact yields_of_eq (exec_landedImageRead hr hs hg hperform) (endFirstCheck_error hr hg)
    have hreads := firstCheckReads_by s r.lane
    refine ⟨fun h => hrefused _ ?_, fun h => hrefused _ ?_, fun h hc => hrefused _ ?_, fun h hc hl => ?lost,
      fun h hc hl => ?read⟩
    · rw [refusal_eq (.inl (by simp [h])), h]
      rfl
    · rw [refusal_eq (.inl (by simp [h])), h]
      rfl
    · rw [refusal_eq (.inr hc), h]
      rfl
    case lost =>
      obtain ⟨u, hu⟩ : ∃ u, s.readThrough (s.firstCheckReads r.lane) = (.error (.unreadable .memory), u) := by
        refine ⟨_, Prod.ext ?_ rfl⟩
        rw [firstCheckReads_lands hx (refusal_none h hc), readThrough_bind, landingReads_lost .run hl]
        rfl
      obtain ⟨q, hq, -⟩ := perform_gives hreads hfree hu
      have hleaves := readThrough_leaves (s := s) (s.firstCheckReads r.lane)
      rw [hu] at hleaves
      unfold State.ReadLeaves at hleaves
      dsimp only at hleaves
      generalize u.memory.upsets = upsets, u.budget = budget, u.faultRecord = record, u.status.notices = notices at hleaves
      subst hleaves
      have hexec := exec_landedImageRead hr hs hg hq
      rw [endFirstCheck_error (r := r) (by exact hr) hg] at hexec
      obtain ⟨t, ht, hm⟩ : ∃ t, exec .landedImageRead s = .next t ∧ State.Mirrored _ t :=
        ⟨_, hexec, settle_mirrored _ _⟩
      have hmemory := hm.memory
      refine ⟨t, ht, ?_, fun a => by rw [hmemory]; rfl⟩
      unfold State.Mirrored at hm ⊢
      generalize t.status.stale = y1, t.status.changeCount = y2, t.status.due = y3, t.arbiter.requests = y4 at hm
      subst hm
      rfl
    case read =>
      have hread : s.readThrough (s.firstCheckReads r.lane) = (.ok img, s) := by
        rw [firstCheckReads_lands hx (refusal_none h hc), readThrough_bind, landingReads_clean .run hl]
        rfl
      obtain ⟨q, hq, -⟩ := perform_gives hreads hfree hread
      have hexec := exec_landedImageRead hr hs hg hq
      rw [endFirstCheck_ok] at hexec
      set v : State := (s.queued q).setLane r.lane { (s.queued q).lane r.lane with landed := some img } with hv
      have hrefusal : v.unitRefusal r.lane = s.unitRefusal r.lane := unitRefusal_landed
      obtain ⟨hpin, hbank⟩ := unitRefusal_cases s r.lane
      refine ⟨fun hclock => yields_of_mirrored hexec ?_, fun now hclock => ?_⟩
      · rw [unitConditions_unset (s := v) (r := r) hr hg hclock]
        rfl
      · have hdecides {d : Decision} (hd : s.unitRefusal r.lane = some d) :
            s.Yields .landedImageRead (refused (some img) (some now) d) := by
          refine yields_of_mirrored hexec ?_
          rw [unitConditions_refused (s := v) (r := r) hr hg hclock (hrefusal.trans hd)]
          rfl
        refine ⟨fun hp => hdecides (hpin hp), fun b hp => ?_⟩
        obtain ⟨hdamaged, hemergency, hbusy, hpasses⟩ := hbank b hp
        refine ⟨fun h1 => hdecides (hdamaged h1), fun h1 h2 => hdecides (hemergency h1 h2),
          fun h1 h2 h3 => hdecides (hbusy h1 h2 h3), fun h1 h2 h3 => yields_of_mirrored hexec ?_⟩
        have hjournal : (v.request (.reserve r.lane)).journal = (s.request (.reserve r.lane)).journal := request_congr rfl rfl
        rw [unitConditions_passed (s := v) (r := r) hr hg hclock (hrefusal.trans (hpasses h1 h2 h3)), hjournal]
        rfl

end

end Sys2Proof.Machine

/-! ### The checks of a run against its pinned bank: format, key, tag and deny lists (R23, R24, R29, R30) -/

namespace Sys2Proof.Machine

section
variable {s t u v : State} {r : Run} {d : Decision} {x : BankId} {img : Image} {now : ServiceTime} {i : Instr}
  {a : Nat} {y : RunStage}

/-! #### A check that reads -/

/-- A row that makes the reads `p` for the run and ends with `finish` (R166). -/
theorem yields_of_reads {α : Type} {p : Reads α} {finish : State → α → State} {found : α}
    (hexec : ∀ w t, s.perform p = (w, t) → exec i s = .next (s.settle (finish t w))) (hp : Reads.By .run p)
    (hfree : s.PathFree .run 4) (hread : s.readThrough p = (found, u))
    (hend : ∀ q, v.Mirrored (finish (u.queued q) found)) : s.Yields i v := by
  obtain ⟨q, hq, -⟩ := perform_gives hp hfree hread
  exact yields_of_mirrored (hexec _ _ hq) (hend q)

/-- The run `r` stands before the step `y`, has read no word of it, and holds what its later checks need: the pinned bank, the
Landed Image and its run's now (R22 to R25); and nothing goes before its words. -/
structure State.Checks (s : State) (r : Run) (y : RunStage) (x : BankId) (img : Image) (now : ServiceTime) : Prop where
  run    : s.screening.run = some r
  stage  : r.stage = y
  unread : r.got = []
  path   : s.PathFree .run 4
  pinned : (s.lane r.lane).pinned = some x
  landed : (s.lane r.lane).landed = some img
  now    : r.now = some now

section
variable (h : s.Checks r y x img now)
include h

theorem State.Checks.data : s.runData r = some (x, img, now) := by
  rw [State.runData, h.pinned, h.landed, h.now]

theorem State.Checks.decides (d : Decision) (q : List Block) :
    ({ s with screening := { s.screening with run := some { r with decision := some d, stage := .decided } } }).Mirrored
      ((s.queued q).decideRun d) := by
  rw [decideRun_unread (s := s.queued q) h.run h.unread]
  rfl

theorem State.Checks.advances (z : RunStage) (q : List Block) :
    ({ s with screening := { s.screening with run := some { r with stage := z } } }).Mirrored ((s.queued q).advanceRun z) := by
  rw [advanceRun_unread (s := s.queued q) h.run h.unread]
  rfl

theorem State.Checks.stops (hu : s.unit ≠ .faulted) (q : List Block) :
    (s.runStopped r x a).Mirrored
      (((s.reportFault .uncorrectable .internal (some a) (some .read) none).queued q).stopRun x) := by
  have hqueued : (s.reportFault .uncorrectable .internal (some a) (some .read) none).queued q =
      (s.queued q).reportFault .uncorrectable .internal (some a) (some .read) none := by
    rw [reportFault_reported hu, reportFault_reported (s := s.queued q) hu]
    rfl
  rw [hqueued, stopRun_eq (s := s.queued q) h.run h.pinned h.unread hu]
  exact runStopped_mirrored q

theorem State.Checks.formatCheck (hs : y = .format) (found : Option (Option Decision)) (t : State)
    (hp : s.perform (s.formatReads x img) = (found, t)) :
    exec .formatCheck s = .next (s.settle (t.endFormat x found)) := by
  show Host.Outcome.next _ = _
  rw [runAt_of h.run (h.stage.trans hs)]
  dsimp only
  rw [h.data]
  dsimp only
  rw [h.unread, Reads.after_nil, hp]

theorem State.Checks.denyLookup (hs : y = .deny) (found : CentralFind) (t : State)
    (hp : s.perform (s.centralReads x (cardSerial img)) = (found, t)) :
    exec .denyLookup s = .next (s.settle (t.endDeny x (cardSerial img) found)) := by
  show Host.Outcome.next _ = _
  rw [runAt_of h.run (h.stage.trans hs)]
  dsimp only
  rw [h.data]
  dsimp only
  rw [h.unread, Reads.after_nil, hp]

end

theorem bankReads_by (s : State) (x : BankId) (l : List Nat) : Reads.By .run (s.bankReads x l) := .words .run [] _

theorem bankReads_clean {l : List Nat} (h : ∀ o ∈ l, s.memory.health (s.bankAddress x o) = .clean) :
    s.readThrough (s.bankReads x l) = (some (l.map fun o => s.memory.word (s.bankAddress x o)), s) := by
  rw [State.bankReads, readWords_clean .run (by simpa using h), List.map_map]
  rfl

theorem bankReads_lost {front rest : List Nat} {o : Nat}
    (hfront : ∀ c ∈ front, s.memory.health (s.bankAddress x c) = .clean)
    (h : s.memory.health (s.bankAddress x o) = .uncorrectable) :
    s.readThrough (s.bankReads x (front ++ o :: rest)) =
      (none, s.reportFault .uncorrectable .internal (some (s.bankAddress x o)) (some .read) none) := by
  rw [State.bankReads, List.map_append, List.map_cons]
  exact readWords_lost .run (by simpa using hfront) h

/-! #### FORMAT_CHECK -/

/-- The key and tag check, as the statement writes it (R24). -/
theorem tagRefusal_eq (keys : List KeySlot) (img : Image) :
    tagRefusal keys img =
      match (keys.find? (fun k => k.generation == cardGeneration img)).bind
        (fun k => if k.use = .retired then none else some k) with
      | none => some .forgedKey
      | some k => if cardTag k.key img = img[15] then none else some .forgedTag := by
  unfold tagRefusal keyForCheck keySlotFor
  cases keys.find? (fun k => k.generation == cardGeneration img) with
  | none => rfl
  | some k =>
    rw [Option.bind_some]
    by_cases hu : k.use = .retired
    · simp only [hu, if_true]
    · simp only [hu, if_false] <;> rfl

/-- What the format, key and tag checks find, the product row's first word being `w` (R23, R24). -/
def formatFound (keys : List KeySlot) (img : Image) (w : Word) : Option Decision :=
  (imageRefusal img).or (if bits w 0 8 = 3 then some (.unreadable .product) else tagRefusal keys img)

theorem formatReads_by (s : State) (x : BankId) (img : Image) : Reads.By .run (s.formatReads x img) := by
  unfold State.formatReads
  split
  · exact .done _
  · refine .bind (bankReads_by s x _) fun words => ?_
    split <;> exact .done _

theorem formatReads_clean (h : s.memory.health (s.bankAddress x (612 + 8 * cardProduct img)) = .clean) :
    s.readThrough (s.formatReads x img) =
      (some (formatFound s.cfg.keys img (s.memory.word (s.bankAddress x (612 + 8 * cardProduct img)))), s) := by
  unfold State.formatReads formatFound
  cases imageRefusal img with
  | some d => rfl
  | none =>
    dsimp only
    rw [readThrough_bind, bankReads_clean (by simpa using h)]
    rfl

theorem formatReads_lost (hi : imageRefusal img = none)
    (h : s.memory.health (s.bankAddress x (612 + 8 * cardProduct img)) = .uncorrectable) :
    s.readThrough (s.formatReads x img) =
      (none, s.reportFault .uncorrectable .internal (some (s.bankAddress x (612 + 8 * cardProduct img))) (some .read) none) := by
  unfold State.formatReads
  rw [hi]
  dsimp only
  have hlost := bankReads_lost (front := []) (rest := []) (by simp) h
  rw [List.nil_append] at hlost
  rw [readThrough_bind, hlost]
  rfl

theorem imageRefusal_none (h1 : cardFormat img = 1) (h2 : cardSerial img ≠ 0) (h3 : cardCarryCount img ≤ 4) :
    imageRefusal img = none := by
  rw [imageRefusal, if_neg (by simpa using h1), if_neg h2, if_neg (by omega)]

/-- Settles O36: the row's first word, and the tests in order. -/
theorem formatAndTagAreChecked : Obligations.FormatAndTagAreChecked := by
  intro s r x img now hr hs hg hfree hp hl hn row kind slot held refusal
  have h : s.Checks r .format x img now := ⟨hr, hs, hg, hfree, hp, hl, hn⟩
  have hrefusal : refusal = formatFound s.cfg.keys img (s.memory.word row) := by
    unfold formatFound imageRefusal
    rw [tagRefusal_eq]
    simp only [refusal]
    split_ifs <;> rfl
  refine ⟨fun hclean => ?_, fun hlost hu h1 h2 h3 => ?_⟩
  · refine yields_of_reads (h.formatCheck rfl) (formatReads_by s x img) hfree (formatReads_clean hclean) fun q => ?_
    rw [← hrefusal]
    cases refusal with
    | some d => exact h.decides d q
    | none => exact h.advances .deny q
  · exact yields_of_reads (h.formatCheck rfl) (formatReads_by s x img) hfree
      (formatReads_lost (imageRefusal_none h1 h2 h3) hlost) fun q => h.stops hu q

end

end Sys2Proof.Machine

/-! ### The deny lookup of a run (R29, R30) -/

namespace Sys2Proof.Machine

section
variable {s : State} {x : BankId} {count i j : Nat}

/-! #### The central deny section -/

/-- The offset of word `j` of entry `i` of a bank's deny section (R43). -/
def denyOffset (i j : Nat) : Nat := 1024 + 16 * i + 4 * j

/-- The Serial of entry `i` of bank `x`'s deny section (R43). -/
def State.centralSerial (s : State) (x : BankId) (i : Nat) : Serial :=
  s.memory.word (s.bankAddress x (denyOffset i 1)) ++ s.memory.word (s.bankAddress x (denyOffset i 0))

/-- What a lookup that meets entry `i` finds (R29). -/
def State.centralFound (s : State) (x : BankId) (i : Nat) : CentralFind :=
  .found (byteOf (s.memory.word (s.bankAddress x (denyOffset i 2))) 0)
    (byteOf (s.memory.word (s.bankAddress x (denyOffset i 2))) 1)

theorem denyRun_eq (i : Nat) : wordRun (1024 + 16 * i) 4 = (List.range 4).map (denyOffset i) := rfl

theorem searchReads_by (s : State) (x : BankId) (target fuel low high : Nat) :
    Reads.By .run (s.searchReads x target fuel low high) := by
  induction fuel generalizing low high with
  | zero => exact .done _
  | succ fuel ih =>
    unfold State.searchReads
    split_ifs with hle
    · exact .done _
    · refine .bind (bankReads_by s x _) fun words => ?_
      split
      · dsimp only
        split_ifs
        · exact .done _
        · exact ih _ _
        · exact ih _ _
      · exact .done _

theorem centralReads_by (s : State) (x : BankId) (serial : Serial) : Reads.By .run (s.centralReads x serial) := by
  refine .bind (bankReads_by s x _) fun words => ?_
  split
  · exact searchReads_by ..
  · exact .done _

/-- The first `count` entries of bank `x`'s deny section are clean and strictly ascending (R43). -/
structure State.DenyOrdered (s : State) (x : BankId) (count : Nat) : Prop where
  clean  : ∀ i j, i < count → j < 4 → s.memory.health (s.bankAddress x (denyOffset i j)) = .clean
  rising : ∀ i, i + 1 < count → (s.centralSerial x i).toNat < (s.centralSerial x (i + 1)).toNat

section
variable (h : s.DenyOrdered x count)
include h

theorem State.DenyOrdered.lt (hij : i < j) (hj : j < count) :
    (s.centralSerial x i).toNat < (s.centralSerial x j).toNat := by
  induction j with
  | zero => omega
  | succ j ih =>
    have hstep := h.rising j hj
    rcases Nat.lt_succ_iff_lt_or_eq.1 hij with hlt | rfl
    · exact (ih hlt (by omega)).trans hstep
    · exact hstep

/-- One probe of the search reads one entry and halves the range (R29). -/
theorem State.DenyOrdered.probe (target fuel low high : Nat) (hlow : low < high) (hhigh : high ≤ count) :
    let mid := (low + high) / 2
    s.readThrough (s.searchReads x target (fuel + 1) low high) =
      if (s.centralSerial x mid).toNat = target then (s.centralFound x mid, s)
      else if (s.centralSerial x mid).toNat < target then s.readThrough (s.searchReads x target fuel (mid + 1) high)
      else s.readThrough (s.searchReads x target fuel low mid) := by
  intro mid
  have hread := bankReads_clean (s := s) (x := x) (l := wordRun (1024 + 16 * mid) 4) (by
    rw [denyRun_eq]
    intro o ho
    obtain ⟨j, hj, rfl⟩ := List.mem_map.1 ho
    exact h.clean mid j (by omega) (List.mem_range.1 hj))
  rw [State.searchReads, if_neg (by omega)]
  dsimp only
  rw [readThrough_bind, hread, denyRun_eq]
  have hserial : serialOf (s.memory.word (s.bankAddress x (denyOffset mid 0)))
      (s.memory.word (s.bankAddress x (denyOffset mid 1))) = s.centralSerial x mid := serialOf_eq ..
  show s.readThrough (if (serialOf (s.memory.word (s.bankAddress x (denyOffset mid 0)))
      (s.memory.word (s.bankAddress x (denyOffset mid 1)))).toNat = target then .done (s.centralFound x mid)
    else if (serialOf (s.memory.word (s.bankAddress x (denyOffset mid 0)))
      (s.memory.word (s.bankAddress x (denyOffset mid 1)))).toNat < target then s.searchReads x target fuel (mid + 1) high
    else s.searchReads x target fuel low mid) = _
  rw [hserial]
  split_ifs <;> rfl

/-- The search finds the entry of a Serial that stands in its range, and otherwise none (R29). -/
theorem State.DenyOrdered.search (target fuel low high : Nat) (hhigh : high ≤ count) (hfuel : high - low < 2 ^ fuel) :
    (∀ i, low ≤ i → i < high → (s.centralSerial x i).toNat = target →
      s.readThrough (s.searchReads x target fuel low high) = (s.centralFound x i, s))
    ∧ ((∀ i, low ≤ i → i < high → (s.centralSerial x i).toNat ≠ target) →
      s.readThrough (s.searchReads x target fuel low high) = (.absent, s)) := by
  induction fuel generalizing low high with
  | zero => exact ⟨fun i hi hi' => by omega, fun _ => rfl⟩
  | succ fuel ih =>
    by_cases hlow : high ≤ low
    · exact ⟨fun i hi hi' => by omega, fun _ => by rw [State.searchReads, if_pos hlow]; rfl⟩
    · rw [h.probe target fuel low high (by omega) hhigh]
      set mid := (low + high) / 2 with hmid
      rw [pow_succ] at hfuel
      obtain ⟨hupper, hupper'⟩ := ih (mid + 1) high hhigh (by omega)
      obtain ⟨hlower, hlower'⟩ := ih low mid (by omega) (by omega)
      refine ⟨fun i hi hi' htarget => ?_, fun hnone => ?_⟩
      · have hbefore : i < mid → (s.centralSerial x i).toNat < (s.centralSerial x mid).toNat := fun hlt =>
          h.lt hlt (by omega)
        have hbehind : mid < i → (s.centralSerial x mid).toNat < (s.centralSerial x i).toNat := fun hlt =>
          h.lt hlt (by omega)
        split_ifs with heq hlt
        · obtain rfl : mid = i := by
            rcases Nat.lt_trichotomy mid i with hc | hc | hc
            · have := hbehind hc
              omega
            · exact hc
            · have := hbefore hc
              omega
          rfl
        · have hne : ¬i < mid := fun hc => by
            have := hbefore hc
            omega
          have hmid : i ≠ mid := fun hc => heq (hc ▸ htarget)
          exact hupper i (by omega) hi' htarget
        · have hne : ¬mid < i := fun hc => by
            have := hbehind hc
            omega
          have hmid : i ≠ mid := fun hc => heq (hc ▸ htarget)
          exact hlower i hi (by omega) htarget
      · rw [if_neg (hnone mid (by omega) (by omega))]
        split_ifs with hlt
        · exact hupper' fun i hi hi' => hnone i (by omega) hi'
        · exact hlower' fun i hi hi' => hnone i hi (by omega)

end

/-- A probe of an entry with an uncorrectable word stops at the first such word (R22, log 41). -/
theorem searchReads_lost (target fuel low high : Nat) (hlow : low < high)
    (hmid : ∃ j, j < 4 ∧ s.memory.health (s.bankAddress x (denyOffset ((low + high) / 2) j)) = .uncorrectable)
    (hclean : ∀ j, j < 4 → s.memory.health (s.bankAddress x (denyOffset ((low + high) / 2) j)) ≠ .corrected) :
    ∃ j, j < 4 ∧ s.memory.health (s.bankAddress x (denyOffset ((low + high) / 2) j)) = .uncorrectable
      ∧ s.readThrough (s.searchReads x target (fuel + 1) low high) =
        (.damaged, s.reportFault .uncorrectable .internal (some (s.bankAddress x (denyOffset ((low + high) / 2) j)))
          (some .read) none) := by
  classical
  obtain ⟨⟨hj, hlost⟩, hfirst⟩ := Nat.find_spec hmid, fun c => Nat.find_min hmid (m := c)
  generalize Nat.find hmid = j at hj hlost hfirst
  refine ⟨j, hj, hlost, ?_⟩
  set mid := (low + high) / 2 with hm
  have hrun : wordRun (1024 + 16 * mid) 4 =
      (List.range j).map (denyOffset mid) ++ denyOffset mid j :: ((List.range 4).drop (j + 1)).map (denyOffset mid) := by
    rw [denyRun_eq]
    interval_cases j <;> rfl
  have hread := bankReads_lost (s := s) (x := x) (front := (List.range j).map (denyOffset mid))
    (rest := ((List.range 4).drop (j + 1)).map (denyOffset mid)) (o := denyOffset mid j) (by
      intro o ho
      obtain ⟨c, hc, rfl⟩ := List.mem_map.1 ho
      have hc := List.mem_range.1 hc
      have hnot := hfirst c hc
      cases hh : s.memory.health (s.bankAddress x (denyOffset mid c)) with
      | clean => rfl
      | corrected => exact absurd hh (hclean c (by omega))
      | uncorrectable => exact absurd ⟨by omega, hh⟩ hnot) hlost
  rw [← hrun] at hread
  rw [State.searchReads, if_neg (by omega)]
  dsimp only
  rw [readThrough_bind, hread]
  rfl

/-- The Deny Count is read first, and the search follows (R29, log 25). -/
theorem centralReads_clean (serial : Serial) (h : s.memory.health (s.bankAddress x 4) = .clean) :
    s.readThrough (s.centralReads x serial) =
      s.readThrough (s.searchReads x serial.toNat 16 0 (s.memory.word (s.bankAddress x 4)).toNat) := by
  rw [State.centralReads, readThrough_bind, bankReads_clean (by simpa using h)]
  rfl

theorem centralReads_lost (serial : Serial) (h : s.memory.health (s.bankAddress x 4) = .uncorrectable) :
    s.readThrough (s.centralReads x serial) =
      (.damaged, s.reportFault .uncorrectable .internal (some (s.bankAddress x 4)) (some .read) none) := by
  have hlost := bankReads_lost (front := []) (rest := []) (by simp) h
  rw [List.nil_append] at hlost
  rw [State.centralReads, readThrough_bind, hlost]
  rfl

/-- Settles O37: by the Deny Count, the search of the central section, and the Local Deny List. -/
theorem denyLookupFindsSerial : Obligations.DenyLookupFindsSerial := by
  intro s r x img now count hr hs hg hfree hp hl hn at_ serial decided
  have h : s.Checks r .deny x img now := ⟨hr, hs, hg, hfree, hp, hl, hn⟩
  have hby := centralReads_by s x (cardSerial img)
  refine ⟨fun hlost hu => ?_, fun hclean hcount hsmall => ⟨fun hpos hu hall hnone => ?_, fun hall hrise => ?_⟩⟩
  · exact yields_of_reads (h.denyLookup rfl) hby hfree (centralReads_lost _ hlost) fun q => h.stops hu q
  · have hmid : (0 + count) / 2 < count := by omega
    obtain ⟨j, hj, hlost, hread⟩ := searchReads_lost (s := s) (x := x) (cardSerial img).toNat 15 0 count hpos
      (hall _ hmid) (hnone _ · hmid)
    refine ⟨_, j, hmid, hj, hlost, ?_⟩
    rw [← hcount, ← centralReads_clean (cardSerial img) hclean, hcount] at hread
    exact yields_of_reads (h.denyLookup rfl) hby hfree hread fun q => h.stops hu q
  · have hordered : s.DenyOrdered x count := ⟨hall, hrise⟩
    obtain ⟨hfound, habsent⟩ := hordered.search (cardSerial img).toNat 16 0 count le_rfl (by omega)
    rw [← hcount, ← centralReads_clean (cardSerial img) hclean, hcount] at hfound habsent
    refine ⟨fun i hi heq => ?_, fun hne => ?_⟩
    · have hread := hfound i (by omega) hi (congrArg BitVec.toNat heq)
      exact yields_of_reads (h.denyLookup rfl) hby hfree hread fun q => h.decides _ q
    · have hread := habsent fun i _ hi heq => hne i hi (BitVec.eq_of_toNat_eq heq)
      refine ⟨fun e he => ?_, fun hlocal => ?_⟩
      · refine yields_of_reads (h.denyLookup rfl) hby hfree hread fun q => ?_
        have hdenied : (s.queued q).denied (cardSerial img) = some e := he
        rw [State.endDeny, hdenied]
        exact h.decides _ q
      · refine yields_of_reads (h.denyLookup rfl) hby hfree hread fun q => ?_
        have hdenied : (s.queued q).denied (cardSerial img) = none := denied_eq_none_iff.2 hlocal
        rw [State.endDeny, hdenied]
        exact h.advances _ q

end

end Sys2Proof.Machine

/-! ### The fare of an entry (R25, R39, R59 to R62) -/

namespace Sys2Proof.Machine

section
variable {s t u v : State} {r : Run} {d : Decision} {x : BankId} {img : Image} {now : ServiceTime} {f : FareResult}

/-! #### FARE_COMPUTATION, in either direction -/

/-- The state with another run. -/
def State.withRun (s : State) (r : Run) : State := { s with screening := { s.screening with run := some r } }

theorem fareReads_by (s : State) (x : BankId) (img : Image) (now : ServiceTime) (d : Direction) :
    Reads.By .run (s.fareReads x img now d) := by
  have hband : Reads.By .run (s.bandReads x img) := by
    unfold State.bandReads
    split_ifs
    · exact .done _
    · refine .bind (bankReads_by s x _) fun words => ?_
      split
      · exact .bind (bankReads_by s x _) fun _ => .done _
      · exact .done _
  refine .bind (bankReads_by s x _) fun words => ?_
  split
  · exact .done _
  · unfold State.exitReads
    split_ifs
    · refine .bind (bankReads_by s x _) fun words => ?_
      split
      · exact .bind hband fun _ => .done _
      · exact .done _
    · exact .done _
  · exact .done _

theorem fareStepReads_by (s : State) (n : Lane) (x : BankId) (img : Image) (now : ServiceTime) :
    Reads.By .run (s.fareStepReads n x img now) := by
  unfold State.fareStepReads
  dsimp only
  split
  · exact .done _
  · exact .bind (fareReads_by s x img now _) fun _ => .done _

section
variable (h : s.Checks r .fare x img now)
include h

theorem State.Checks.fareComputation (found : Option (Except Decision FareResult)) (t : State)
    (hp : s.perform (s.fareStepReads r.lane x img now) = (found, t)) :
    exec .fareComputation s = .next (s.settle (t.endFare x img found)) := by
  show Host.Outcome.next _ = _
  rw [runAt_of h.run h.stage]
  dsimp only
  rw [h.data]
  dsimp only
  rw [h.unread, Reads.after_nil, hp]

/-- A tap that its Counter or its journey refuses (R25, R39, R40). -/
theorem State.Checks.fareRefused (hd : directionRefusal s.cfg (s.gate r.lane).direction img now = some d) :
    s.Yields .fareComputation (s.withRun { r with decision := some d, stage := .decided }) := by
  have hread : s.readThrough (s.fareStepReads r.lane x img now) = (some (.error d), s) := by
    rw [State.fareStepReads, hd]
    rfl
  exact yields_of_reads h.fareComputation (fareStepReads_by ..) h.path hread fun q => h.decides d q

/-- A word that the Fare Unit meets is lost (R22, R52, R56). -/
theorem State.Checks.fareStops {a : Nat} (hd : directionRefusal s.cfg (s.gate r.lane).direction img now = none)
    (hu : s.unit ≠ .faulted)
    (hread : s.readThrough (s.fareReads x img now (s.gate r.lane).direction) =
      (none, s.reportFault .uncorrectable .internal (some a) (some .read) none)) :
    s.Yields .fareComputation (s.runStopped r x a) := by
  have hread' : s.readThrough (s.fareStepReads r.lane x img now) =
      (none, s.reportFault .uncorrectable .internal (some a) (some .read) none) := by
    rw [State.fareStepReads, hd]
    dsimp only
    rw [readThrough_bind, hread]
    rfl
  exact yields_of_reads h.fareComputation (fareStepReads_by ..) h.path hread' fun q => h.stops hu q

/-- The fare by the money test: on to the Composer, or INSUFFICIENT (R25, R100). -/
theorem State.Checks.fareTaken (hd : directionRefusal s.cfg (s.gate r.lane).direction img now = none)
    (hread : s.readThrough (s.fareReads x img now (s.gate r.lane).direction) = (some f, s)) :
    (f.passed = true → s.Yields .fareComputation (s.withRun { r with
      fare := some f, image := some (composeImage s.cfg.keys img f.writeBack), written := 0, stage := .composing }))
    ∧ (f.passed = false → s.Yields .fareComputation (s.withRun { r with
      fare := some f, decision := some .insufficient, stage := .decided })) := by
  have hread' : s.readThrough (s.fareStepReads r.lane x img now) = (some (.ok f), s) := by
    rw [State.fareStepReads, hd]
    dsimp only
    rw [readThrough_bind, hread]
    rfl
  have hrun (q : List Block) : (s.queued q).screening.run = some r := h.run
  refine ⟨fun hp => ?_, fun hp => ?_⟩ <;>
    refine yields_of_reads h.fareComputation (fareStepReads_by ..) h.path hread' fun q => ?_
  · have hend : (s.queued q).endFare x img (some (.ok f)) = (s.queued q).withRun { r with
        fare := some f, image := some (composeImage s.cfg.keys img f.writeBack), written := 0, stage := .composing } := by
      rw [State.endFare, State.takeFare, if_pos hp, State.changeRun, hrun, State.withRun]
      rw [← h.unread]
      rfl
    rw [hend]
    rfl
  · have hend : (s.queued q).endFare x img (some (.ok f)) =
        (((s.queued q).withRun { r with fare := some f })).decideRun .insufficient := by
      rw [State.endFare, State.takeFare, if_neg (by simp [hp]), State.changeRun, hrun]
      rfl
    rw [hend, decideRun_unread (r := { r with fare := some f }) rfl h.unread]
    rfl

end

/-! #### The entry computation -/

/-- The seconds from a card's time to now, as the statements write them (R39, R40). -/
theorem secondsSince_eq (day second : Nat) (now : ServiceTime) :
    secondsSince day second now = now.day * 86400 + now.second - (day * 86400 + second : Nat) := by
  simp [secondsSince, ServiceTime.absolute]

theorem directionRefusal_exhausted (cfg : Configuration) (dir : Direction) (h : cardCounter img = 65535) :
    directionRefusal cfg dir img now = some .counterExhausted := if_pos h

/-- The product row of the card in bank `x`, both words being clean (R42). -/
def State.productRowOf (s : State) (x : BankId) (img : Image) : ProductRow :=
  productRow (s.memory.word (s.bankAddress x (612 + 8 * cardProduct img)))
    (s.memory.word (s.bankAddress x (616 + 8 * cardProduct img)))

/-- The first word of the product row is lost, or, that being clean, the second (log 41). -/
theorem productReads_lost {o : Nat}
    (h : (o = 612 + 8 * cardProduct img ∧ s.memory.health (s.bankAddress x o) = .uncorrectable)
      ∨ (o = 616 + 8 * cardProduct img ∧ s.memory.health (s.bankAddress x (612 + 8 * cardProduct img)) = .clean
        ∧ s.memory.health (s.bankAddress x o) = .uncorrectable)) :
    s.readThrough (s.bankReads x (productOffsets (cardProduct img))) =
      (none, s.reportFault .uncorrectable .internal (some (s.bankAddress x o)) (some .read) none) := by
  obtain ⟨rfl, hlost⟩ | ⟨rfl, hclean, hlost⟩ := h
  · exact bankReads_lost (front := []) (rest := [616 + 8 * cardProduct img]) (by simp) hlost
  · exact bankReads_lost (front := [612 + 8 * cardProduct img]) (rest := []) (by simpa using hclean) hlost

theorem fareReads_lost {a : Nat} (d : Direction)
    (h : s.readThrough (s.bankReads x (productOffsets (cardProduct img))) =
      (none, s.reportFault .uncorrectable .internal (some a) (some .read) none)) :
    s.readThrough (s.fareReads x img now d) = (none, s.reportFault .uncorrectable .internal (some a) (some .read) none) := by
  rw [State.fareReads, readThrough_bind, h]
  cases d <;> rfl

theorem productReads_clean (h0 : s.memory.health (s.bankAddress x (612 + 8 * cardProduct img)) = .clean)
    (h1 : s.memory.health (s.bankAddress x (616 + 8 * cardProduct img)) = .clean) :
    s.readThrough (s.bankReads x (productOffsets (cardProduct img))) =
      (some [s.memory.word (s.bankAddress x (612 + 8 * cardProduct img)),
        s.memory.word (s.bankAddress x (616 + 8 * cardProduct img))], s) :=
  bankReads_clean (by
    intro o ho
    rcases List.mem_cons.1 ho with rfl | ho
    · exact h0
    · rw [List.mem_singleton.1 ho]
      exact h1)

theorem productKind_pass (w0 w1 : Word) : ((productRow w0 w1).kind == .pass) = true ↔ bits w0 0 8 = 2 := by
  unfold productRow
  dsimp only
  split_ifs with h2 <;> simp [h2]

/-- The money test of an entry (R61). -/
theorem entryComputation_passed (cfg : Configuration) (img : Image) (now : ServiceTime) (row : ProductRow) :
    let f := entryComputation cfg img now row
    f.passed = true ↔ (f.flags.pass = true ∧ -(cfg.overdraftLimit : Int) ≤ cardBalance img - f.fare)
      ∨ (¬f.flags.pass = true ∧ (row.floor : Int) ≤ cardBalance img - f.fare) := by
  intro f
  have hpassed : f.passed = if f.flags.pass = true then decide (-(cfg.overdraftLimit : Int) ≤ cardBalance img - f.fare)
    else decide ((row.floor : Int) ≤ cardBalance img - f.fare) := rfl
  rw [hpassed]
  split_ifs with hv <;> simp [hv]

/-- Settles O39: the refusals in order, the words of the row, and the entry computation. -/
theorem entryFareIsComputed : Obligations.EntryFareIsComputed := by
  intro s r x img now hr hs hg hfree hp hl hn hdir run refused inside seconds age repeated passback
  have h : s.Checks r .fare x img now := ⟨hr, hs, hg, hfree, hp, hl, hn⟩
  have hseconds : secondsSince (cardEntryDay img) (cardEntrySecond img) now = seconds := secondsSince_eq ..
  have hcurrent : journeyCurrent s.cfg img now = true ↔ 0 ≤ age ∧ age ≤ s.cfg.maximumJourney := decide_eq_true_iff
  have hwithin : withinRepeat s.cfg (cardEntryDay img) (cardEntrySecond img) now = true ↔
      0 ≤ seconds ∧ seconds ≤ s.cfg.repeatWindow := by
    rw [withinRepeat, hseconds, decide_eq_true_iff]
  have hcheck (hc : cardCounter img < 65535) :
      directionRefusal s.cfg (s.gate r.lane).direction img now = entryCheck s.cfg img now := by
    rw [hdir]
    exact if_neg (by omega)
  have hnone (hc : cardCounter img < 65535) (h1 : ¬repeated) (h2 : ¬passback) :
      directionRefusal s.cfg (s.gate r.lane).direction img now = none := by
    rw [hcheck hc, entryCheck]
    split_ifs with hin hrep hcur
    · exact absurd ⟨hin, hrep.1, hwithin.1 hrep.2⟩ h1
    · exact absurd ⟨hin, h1, hcurrent.1 hcur⟩ h2
    · rfl
    · rfl
  refine ⟨fun hc => h.fareRefused (directionRefusal_exhausted _ _ hc), fun hc h1 => h.fareRefused ?_,
    fun hc h2 => h.fareRefused ?_, fun hc h1 h2 hu => ⟨fun hlost => ?_, fun hclean hlost => ?_⟩,
    fun hc h1 h2 hc0 hc1 => ?_⟩
  · obtain ⟨hin, hst, hw⟩ := h1
    rw [hcheck hc, entryCheck, if_pos hin, if_pos ⟨hst, hwithin.2 hw⟩]
  · obtain ⟨hin, hrep, hcur⟩ := h2
    rw [hcheck hc, entryCheck, if_pos hin, if_neg fun hst => hrep ⟨hin, hst.1, hwithin.1 hst.2⟩,
      if_pos (hcurrent.2 hcur)]
  · exact h.fareStops (hnone hc h1 h2) hu (fareReads_lost _ (productReads_lost (.inl ⟨rfl, hlost⟩)))
  · exact h.fareStops (hnone hc h1 h2) hu (fareReads_lost _ (productReads_lost (.inr ⟨rfl, hclean, hlost⟩)))
  · intro w0 w1 pass gap linked fare balance
    have hread : s.readThrough (s.fareReads x img now (s.gate r.lane).direction) =
        (some (entryComputation s.cfg img now (productRow w0 w1)), s) := by
      rw [hdir, State.fareReads, readThrough_bind, productReads_clean hc0 hc1]
      rfl
    obtain ⟨hpassed, hfailed⟩ := h.fareTaken (hnone hc h1 h2) hread
    have hpenalty : (cardInside img && !journeyCurrent s.cfg img now) = cardInside img := by
      by_cases hin : cardInside img = true
      · have hcur : journeyCurrent s.cfg img now ≠ true := fun hcur => h2 ⟨hin, h1, hcurrent.1 hcur⟩
        rw [hin, Bool.not_eq_true _ |>.mp hcur]
        rfl
      · rw [Bool.not_eq_true _ |>.mp hin]
        rfl
    have hfare : (entryComputation s.cfg img now (productRow w0 w1)).fare = fare := by
      show entryFare s.cfg img now = _
      rw [entryFare, hpenalty]
    have hpass : (entryComputation s.cfg img now (productRow w0 w1)).flags.pass = true ↔ pass := by
      show validOnEntry s.cfg img now (productRow w0 w1) = true ↔ _
      simp only [validOnEntry, Bool.and_eq_true, productKind_pass, decide_eq_true_iff, inPass, pass, and_assoc]
    have hlinked : (entryComputation s.cfg img now (productRow w0 w1)).flags.linked = true ↔ linked := by
      show entryLinked s.cfg img now = true ↔ _
      simp only [entryLinked, Bool.and_eq_true, bne_iff_ne, decide_eq_true_iff, linked, and_assoc]
      rfl
    have hbalance : cardBalance img - (entryComputation s.cfg img now (productRow w0 w1)).fare = balance := by
      rw [hfare]
      rfl
    refine ⟨_, hfare, ?_, hpenalty, rfl, rfl, hpass, hlinked, ?_, ?_, hpassed, hfailed⟩
    · have hmoney := entryComputation_passed s.cfg img now (productRow w0 w1)
      dsimp only at hmoney
      rw [hmoney, hbalance, hpass]
      rfl
    · rw [← hbalance]
      exact Bool.and_eq_true_iff.trans (and_congr_right fun _ => decide_eq_true_iff)
    · rw [← hbalance]
      rfl

end

end Sys2Proof.Machine

/-! ### The fare of an exit (R25, R40, R59, R63 to R74) -/

namespace Sys2Proof.Machine

section
variable {s t u v : State} {r : Run} {d : Decision} {x : BankId} {img : Image} {now : ServiceTime} {f : FareResult}
  {bands : List Word} {i o : Nat} {row : ProductRow}

/-! #### The bands (R65) -/

/-- The entry minute's band is the last that has started, or the last of all where none has (R65). -/
theorem bandFactor_eq {minute : Nat} (hi : i < bands.length)
    (h : (bits bands[i] 0 16 ≤ minute ∧ ∀ j (hj : j < bands.length), i < j → minute < bits bands[j] 0 16)
      ∨ (i + 1 = bands.length ∧ ∀ j (hj : j < bands.length), minute < bits bands[j] 0 16)) :
    bandFactor bands minute = bits bands[i] 16 16 := by
  have hreverse : bands.reverse = (bands.drop (i + 1)).reverse ++ (bands[i] :: (bands.take i).reverse) := by
    calc bands.reverse = (bands.take i ++ bands[i] :: bands.drop (i + 1)).reverse := by
          rw [List.getElem_cons_drop, List.take_append_drop]
      _ = _ := by simp
  unfold bandFactor
  rcases h with ⟨hstart, hlater⟩ | ⟨hlast, hall⟩
  · have hnone : (bands.drop (i + 1)).reverse.find? (fun w => decide (bits w 0 16 ≤ minute)) = none := by
      rw [List.find?_eq_none]
      intro w hw
      obtain ⟨j, hj, rfl⟩ := List.mem_iff_getElem.1 (List.mem_reverse.1 hw)
      rw [List.length_drop] at hj
      rw [List.getElem_drop, decide_eq_true_iff]
      have := hlater (i + 1 + j) (by omega) (by omega)
      omega
    have hfind : bands.reverse.find? (fun w => decide (bits w 0 16 ≤ minute)) = some bands[i] := by
      rw [hreverse, List.find?_append, hnone, List.find?_cons_of_pos (by simpa using hstart)]
      rfl
    rw [hfind]
  · have hfind : bands.reverse.find? (fun w => decide (bits w 0 16 ≤ minute)) = none := by
      rw [List.find?_eq_none]
      intro w hw
      obtain ⟨j, hj, rfl⟩ := List.mem_iff_getElem.1 (List.mem_reverse.1 hw)
      have := hall j hj
      simpa using this
    have hlast' : bands.getLast? = some bands[i] := by
      rw [List.getLast?_eq_getElem?, ← hlast, Nat.add_sub_cancel, List.getElem?_eq_getElem hi]
    rw [hfind, hlast']

/-- The band factor's words are read in order, and none after a lost one (log 41). -/
theorem bandReads_clean {count : Nat} (ho : s.fareUnit.overrideOn = false)
    (hc : s.memory.health (s.bankAddress x 576) = .clean) (hcount : (s.memory.word (s.bankAddress x 576)).toNat = count)
    (hle : count ≤ 8) (hclean : ∀ j, j < count → s.memory.health (s.bankAddress x (580 + 4 * j)) = .clean) :
    s.readThrough (s.bandReads x img) =
      (some (bandFactor ((List.range count).map fun j => s.memory.word (s.bankAddress x (580 + 4 * j)))
        (cardEntrySecond img / 60), false), s) := by
  have hoffsets : bandOffsets count = (List.range count).map (fun j => 580 + 4 * j) := by
    rw [bandOffsets, Nat.min_eq_right hle]
    rfl
  have hbands := bankReads_clean (s := s) (x := x) (l := bandOffsets count) (by
    rw [hoffsets]
    intro o ho
    obtain ⟨j, hj, rfl⟩ := List.mem_map.1 ho
    exact hclean j (List.mem_range.1 hj))
  rw [State.bandReads, if_neg (by simp [ho]), readThrough_bind, bankReads_clean (l := [576]) (by simpa using hc)]
  dsimp only [List.map]
  rw [hcount, readThrough_bind, hbands, hoffsets, List.map_map]
  rfl

theorem bandReads_lost (ho : s.fareUnit.overrideOn = false)
    (h : (o = 576 ∧ s.memory.health (s.bankAddress x o) = .uncorrectable)
      ∨ ∃ i, o = 580 + 4 * i ∧ s.memory.health (s.bankAddress x 576) = .clean
        ∧ i < (s.memory.word (s.bankAddress x 576)).toNat ∧ i < 8
        ∧ (∀ j, j < i → s.memory.health (s.bankAddress x (580 + 4 * j)) = .clean)
        ∧ s.memory.health (s.bankAddress x o) = .uncorrectable) :
    s.readThrough (s.bandReads x img) =
      (none, s.reportFault .uncorrectable .internal (some (s.bankAddress x o)) (some .read) none) := by
  rw [State.bandReads, if_neg (by simp [ho]), readThrough_bind]
  obtain ⟨rfl, hlost⟩ | ⟨i, rfl, hclean, hi, h8, hbefore, hlost⟩ := h
  · have hread := bankReads_lost (front := []) (rest := []) (by simp) hlost
    rw [List.nil_append] at hread
    rw [hread]
    rfl
  · generalize hcount : (s.memory.word (s.bankAddress x 576)).toNat = count at hi
    have hoffsets : bandOffsets count = (List.range i).map (fun j => 580 + 4 * j) ++
        (580 + 4 * i) :: ((List.range (min 8 count)).drop (i + 1)).map (fun j => 580 + 4 * j) := by
      have hi' : i < min 8 count := by omega
      have hrange : List.range (min 8 count) = List.range i ++ i :: (List.range (min 8 count)).drop (i + 1) := by
        have hcons := List.getElem_cons_drop (as := List.range (min 8 count)) (i := i) (by simpa using hi')
        rw [List.getElem_range] at hcons
        have htake : List.range i = (List.range (min 8 count)).take i := by
          rw [List.take_range, Nat.min_eq_left hi'.le]
        rw [hcons, htake, List.take_append_drop]
      rw [bandOffsets, wordRun, hrange, List.map_append, List.map_cons, ← hrange]
    have hread := bankReads_lost (s := s) (x := x) (front := (List.range i).map (fun j => 580 + 4 * j))
      (rest := ((List.range (min 8 count)).drop (i + 1)).map (fun j => 580 + 4 * j)) (o := 580 + 4 * i) (by
        intro c hc
        obtain ⟨j, hj, rfl⟩ := List.mem_map.1 hc
        exact hbefore j (List.mem_range.1 hj)) hlost
    rw [bankReads_clean (l := [576]) (by simpa using hclean)]
    dsimp only [List.map]
    rw [hcount, readThrough_bind, hoffsets, hread]
    rfl

/-! #### The exit computation -/

theorem exitReads_penalty (hv : validEntryShown s.cfg img now = false) (row : ProductRow) :
    s.readThrough (s.exitReads x img now row) = (some (penaltyExit s.cfg img now), s) := by
  rw [State.exitReads, if_neg (by simp [hv])]
  rfl

/-- The address of the Fare Matrix entry, as the statement writes it (12.7). -/
theorem matrixOffset_eq (ze zx : Nat) : matrixOffset ze zx = 64 + (32 * ze + 2 * zx) / 4 * 4 := by
  unfold matrixOffset
  omega

section
variable (hv : validEntryShown s.cfg img now = true)
include hv

theorem exitReads_clean {w : Word} {b : Nat × Bool}
    (hm : s.readThrough (s.bankReads x [matrixOffset (cardEntryZone img) s.cfg.zone]) = (some [w], s))
    (hb : s.readThrough (s.bandReads x img) = (some b, s)) (row : ProductRow) :
    s.readThrough (s.exitReads x img now row) =
      (some (fareExit s.cfg img now row (matrixEntry s.cfg.zone w) b.1 b.2), s) := by
  rw [State.exitReads, if_pos hv, readThrough_bind, hm]
  dsimp only
  rw [readThrough_bind, hb]
  rfl

theorem exitReads_matrixLost {a : Nat}
    (hm : s.readThrough (s.bankReads x [matrixOffset (cardEntryZone img) s.cfg.zone]) =
      (none, s.reportFault .uncorrectable .internal (some a) (some .read) none)) (row : ProductRow) :
    s.readThrough (s.exitReads x img now row) =
      (none, s.reportFault .uncorrectable .internal (some a) (some .read) none) := by
  rw [State.exitReads, if_pos hv, readThrough_bind, hm]
  rfl

theorem exitReads_bandLost {w : Word} {a : Nat}
    (hm : s.readThrough (s.bankReads x [matrixOffset (cardEntryZone img) s.cfg.zone]) = (some [w], s))
    (hb : s.readThrough (s.bandReads x img) =
      (none, s.reportFault .uncorrectable .internal (some a) (some .read) none)) (row : ProductRow) :
    s.readThrough (s.exitReads x img now row) =
      (none, s.reportFault .uncorrectable .internal (some a) (some .read) none) := by
  rw [State.exitReads, if_pos hv, readThrough_bind, hm]
  dsimp only
  rw [readThrough_bind, hb]
  rfl

end

/-- Past the product row an exit's reads go on (R58). -/
theorem fareReads_exit (h0 : s.memory.health (s.bankAddress x (612 + 8 * cardProduct img)) = .clean)
    (h1 : s.memory.health (s.bankAddress x (616 + 8 * cardProduct img)) = .clean) :
    s.readThrough (s.fareReads x img now .exit) =
      s.readThrough (s.exitReads x img now (productRow (s.memory.word (s.bankAddress x (612 + 8 * cardProduct img)))
        (s.memory.word (s.bankAddress x (616 + 8 * cardProduct img))))) := by
  rw [State.fareReads, readThrough_bind, productReads_clean h0 h1]

/-- A pass that is valid on exit (R59). -/
theorem validOnExit_eq (cfg : Configuration) (img : Image) (now : ServiceTime) (w0 w1 : Word) :
    validOnExit cfg img now (productRow w0 w1) = decide (bits w0 0 8 = 2 ∧ now.day ≤ cardPassExpiry img
      ∧ cardPassLow img ≤ cardEntryZone img ∧ cardEntryZone img ≤ cardPassHigh img ∧ cardPassLow img ≤ cfg.zone
      ∧ cfg.zone ≤ cardPassHigh img) := by
  rw [Bool.eq_iff_iff]
  simp only [validOnExit, Bool.and_eq_true, productKind_pass, decide_eq_true_iff, inPass, and_assoc]

/-- The product factor of a row (R68). -/
theorem productFactor_eq (w0 w1 : Word) (pass : Bool) :
    productFactor (productRow w0 w1) pass =
      if pass = true then 0 else if bits w0 0 8 = 2 then 1000 else bits w0 16 16 := by
  have hkind : (productRow w0 w1).kind = .pass ↔ bits w0 0 8 = 2 := by
    rw [← productKind_pass w0 w1, beq_iff_eq]
  simp only [productFactor, hkind]
  rfl

/-- Settles O40: the refusals, the words in order, the penalty, and the whole exit fare. -/
theorem exitFareIsComputed : Obligations.ExitFareIsComputed := by
  intro s r x img now hr hs hg hfree hp hl hn hdir run outcome seconds repeated age valid clean at_ w0 w1 cap row matrix stops
  have h : s.Checks r .fare x img now := ⟨hr, hs, hg, hfree, hp, hl, hn⟩
  have hrepeated : (cardInside img = false ∧ cardLastExitStation img ≠ 0 ∧ cardLastExitStation img = s.cfg.station
      ∧ withinRepeat s.cfg (cardLastExitDay img) (cardLastExitSecond img) now = true) ↔ repeated := by
    simp only [withinRepeat, secondsSince_eq, decide_eq_true_iff, repeated, seconds]
  have hcheck (hc : cardCounter img < 65535) :
      directionRefusal s.cfg (s.gate r.lane).direction img now = if repeated then some .repeated else none := by
    rw [hdir, directionRefusal, if_neg (by omega), ← if_congr hrepeated rfl rfl]
    rfl
  have hvalid : validEntryShown s.cfg img now = true ↔ valid := by
    rw [validEntryShown, Bool.and_eq_true, journeyCurrent, decide_eq_true_iff]
    rfl
  have hnone (hc : cardCounter img < 65535) (h1 : ¬repeated) :
      directionRefusal s.cfg (s.gate r.lane).direction img now = none := (hcheck hc).trans (if_neg h1)
  have houtcome (hc : cardCounter img < 65535) (h1 : ¬repeated) (fare spent day : Nat) (flags : FareFlags)
      (hread : s.readThrough (s.fareReads x img now (s.gate r.lane).direction) =
        (some (exitResult s.cfg img now fare flags spent day), s)) :
      outcome (exitResult s.cfg img now fare flags spent day) fare flags spent day := by
    obtain ⟨hpassed, hfailed⟩ := h.fareTaken (hnone hc h1) hread
    exact ⟨rfl, decide_eq_true_iff, rfl, rfl, hpassed, hfailed⟩
  have hmatrix : matrixOffset (cardEntryZone img) s.cfg.zone = matrix := matrixOffset_eq ..
  have hrow : row + 4 = 616 + 8 * cardProduct img := by omega
  have hmatrixRead (hc : clean matrix) :
      s.readThrough (s.bankReads x [matrixOffset (cardEntryZone img) s.cfg.zone]) = (some [at_ matrix], s) := by
    rw [hmatrix]
    exact bankReads_clean (by simpa using hc)
  refine ⟨fun hc => h.fareRefused (directionRefusal_exhausted _ _ hc),
    fun hc h1 => h.fareRefused ((hcheck hc).trans (if_pos h1)), fun hc h1 hu => ⟨fun hlost => ?_, fun hc0 hlost => ?_,
      fun hc0 hc1 hv => ⟨fun hlost => ?_, fun hcm hov => ⟨fun hlost => ?_, fun i hcb hi h8 hbefore hlost => ?_⟩⟩⟩,
    fun hc h1 hc0 hc1 => ⟨fun hv => ⟨_, houtcome hc h1 _ _ _ _ ?_⟩, fun band hv hcm hon hoff => ?_⟩⟩
  · exact h.fareStops (hnone hc h1) hu (fareReads_lost _ (productReads_lost (.inl ⟨rfl, hlost⟩)))
  · exact h.fareStops (hnone hc h1) hu (fareReads_lost _ (productReads_lost (.inr ⟨hrow, hc0, hlost⟩)))
  · have hm := bankReads_lost (front := []) (rest := []) (by simp) hlost
    rw [List.nil_append, ← hmatrix] at hm
    refine h.fareStops (hnone hc h1) hu ?_
    rw [hdir, fareReads_exit hc0 (hrow ▸ hc1), ← hmatrix]
    exact exitReads_matrixLost (hvalid.2 hv) hm _
  · refine h.fareStops (hnone hc h1) hu ?_
    rw [hdir, fareReads_exit hc0 (hrow ▸ hc1)]
    exact exitReads_bandLost (hvalid.2 hv) (hmatrixRead hcm) (bandReads_lost hov (.inl ⟨rfl, hlost⟩)) _
  · refine h.fareStops (hnone hc h1) hu ?_
    rw [hdir, fareReads_exit hc0 (hrow ▸ hc1)]
    exact exitReads_bandLost (hvalid.2 hv) (hmatrixRead hcm)
      (bandReads_lost hov (.inr ⟨i, rfl, hcb, hi, h8, hbefore, hlost⟩)) _
  · rw [hdir, fareReads_exit hc0 hc1, exitReads_penalty (by rw [Bool.eq_false_iff, ne_eq, hvalid]; exact hv)]
    rfl
  · have hband : s.readThrough (s.bandReads x img) = (some (band, s.fareUnit.overrideOn), s) := by
      cases hov : s.fareUnit.overrideOn with
      | true =>
        rw [State.bandReads, if_pos hov, hon hov]
        rfl
      | false =>
        obtain ⟨hcb, hpos, hle, hclean, i, hi, rfl, hstart⟩ := hoff hov
        rw [bandReads_clean hov hcb rfl hle hclean]
        have hfactor := bandFactor_eq
          (bands := (List.range (at_ 576).toNat).map fun j => s.memory.word (s.bankAddress x (580 + 4 * j)))
          (i := i) (minute := cardEntrySecond img / 60) (by simpa using hi)
        simp only [List.length_map, List.length_range, List.getElem_map, List.getElem_range] at hfactor
        rw [hfactor]
        rcases hstart with ⟨h1, h2⟩ | ⟨h1, h2⟩
        · exact .inl ⟨h1, fun j hj hij => h2 j hij hj⟩
        · exact .inr ⟨h1, h2⟩
    have hread : s.readThrough (s.fareReads x img now (s.gate r.lane).direction) =
        (some (fareExit s.cfg img now (productRow w0 w1) (matrixEntry s.cfg.zone (at_ matrix)) band
          s.fareUnit.overrideOn), s) := by
      rw [hdir, fareReads_exit hc0 hc1]
      exact exitReads_clean (hvalid.2 hv) (hmatrixRead hcm) hband _
    unfold fareExit at hread
    dsimp only at hread
    rw [validOnExit_eq, productFactor_eq] at hread
    exact ⟨_, houtcome hc h1 _ _ _ _ hread⟩

end

end Sys2Proof.Machine

/-! ### The words that a row writes, and the Composer (R100, R101) -/

namespace Sys2Proof.Machine

section
variable {s t u : State} {m : Memory} {cells : List (Nat × Word)} {c : Nat × Word} {r : Run} {img : Image} {a b : Nat}

/-! #### A list of cells -/

/-- No two cells share a byte. -/
def CellsApart (cells : List (Nat × Word)) : Prop := cells.Pairwise (fun c d => c.1 + 4 ≤ d.1 ∨ d.1 + 4 ≤ c.1)

theorem putAll_cons (m : Memory) (c : Nat × Word) (cells : List (Nat × Word)) :
    putAll m (c :: cells) = putAll (m.writeWord c.1 c.2) cells := rfl

theorem putAll_wf (h : m.wf = true) : (putAll m cells).wf = true := by
  induction cells generalizing m with
  | nil => exact h
  | cons c rest ih => exact ih (Memory.wf_writeWord _ _ h)

theorem putAll_byte_other (h : ∀ c ∈ cells, b < c.1 ∨ c.1 + 4 ≤ b) : (putAll m cells).byte b = m.byte b := by
  induction cells generalizing m with
  | nil => rfl
  | cons c rest ih =>
    rw [putAll_cons, ih fun d hd => h d (by simp [hd]), Memory.byte_writeWord_other _ (h c (by simp))]

theorem putAll_word_other (h : ∀ c ∈ cells, a + 4 ≤ c.1 ∨ c.1 + 4 ≤ a) :
    (putAll m cells).word a = m.word a ∧ (putAll m cells).health a = m.health a := by
  induction cells generalizing m with
  | nil => exact ⟨rfl, rfl⟩
  | cons c rest ih =>
    obtain ⟨hword, hhealth⟩ := ih (m := m.writeWord c.1 c.2) fun d hd => h d (by simp [hd])
    have hc := h c (by simp)
    rw [putAll_cons, hword, hhealth]
    exact ⟨Memory.word_writeWord_other _ (by omega), Memory.health_writeWord_other _ (by omega)⟩

/-- A cell that is written holds its word, clean (R168). -/
theorem putAll_word (hm : m.wf = true) (h : CellsApart cells) (hc : c ∈ cells) :
    (putAll m cells).word c.1 = c.2 ∧ (putAll m cells).health c.1 = .clean := by
  induction cells generalizing m with
  | nil => cases hc
  | cons d rest ih =>
    obtain ⟨hd, hrest⟩ := List.pairwise_cons.1 h
    rw [putAll_cons]
    rcases List.mem_cons.1 hc with rfl | hc
    · obtain ⟨hword, hhealth⟩ := putAll_word_other (m := m.writeWord c.1 c.2) hd
      rw [hword, hhealth]
      exact ⟨Memory.word_writeWord_self _ _ hm, Memory.health_writeWord_self _ _ hm⟩
    · exact ih (Memory.wf_writeWord _ _ hm) hrest hc

/-! #### Words at consecutive addresses -/

/-- The words of a list, from address `a` on. -/
def runCells (a : Nat) (l : List Word) : List (Nat × Word) := (wordRun a l.length).zip l

theorem mem_runCells {l : List Word} : c ∈ runCells a l ↔ ∃ i, ∃ h : i < l.length, c = (a + 4 * i, l[i]) := by
  unfold runCells
  rw [List.mem_iff_getElem]
  simp only [List.length_zip, wordRun, List.length_map, List.length_range, Nat.min_self, List.getElem_zip,
    List.getElem_map, List.getElem_range]
  exact ⟨fun ⟨i, hi, h⟩ => ⟨i, hi, h.symm⟩, fun ⟨i, hi, h⟩ => ⟨i, hi, h.symm⟩⟩

theorem runCells_apart (a : Nat) (l : List Word) : CellsApart (runCells a l) := by
  unfold CellsApart
  rw [List.pairwise_iff_getElem]
  intro i j hi hj hij
  simp only [runCells, List.getElem_zip, wordRun, List.getElem_map, List.getElem_range]
  omega

theorem runCells_word {l : List Word} (hm : m.wf = true) {i : Nat} (h : i < l.length) :
    (putAll m (runCells a l)).word (a + 4 * i) = l[i] ∧ (putAll m (runCells a l)).health (a + 4 * i) = .clean :=
  putAll_word (c := (a + 4 * i, l[i])) hm (runCells_apart a l) (mem_runCells.2 ⟨i, h, rfl⟩)

theorem runCells_byte_other {l : List Word} (h : b < a ∨ a + 4 * l.length ≤ b) :
    (putAll m (runCells a l)).byte b = m.byte b := by
  refine putAll_byte_other fun c hc => ?_
  obtain ⟨i, hi, rfl⟩ := mem_runCells.1 hc
  dsimp only
  omega

/-! #### The Composer -/

theorem imageCells_eq (s : State) (r : Run) (img : Image) :
    s.imageCells r img = runCells (s.laneAddress r.lane (128 + 4 * r.written)) (img.toList.drop r.written) := by
  rw [State.imageCells, runCells, List.length_drop, Vector.length_toList]

theorem exec_composeWriteBack (hr : s.screening.run = some r) (hs : r.stage = .composing) (hi : r.image = some img) :
    exec .composeWriteBack s =
      .next (s.settle ((s.putWords .composer (s.imageCells r img)).finishImage r.lane img)) := by
  have hrun : s.composingRun = some (r, img) := by
    rw [State.composingRun, runAt_of hr hs, Option.bind_some, hi]
    rfl
  show Host.Outcome.next _ = _
  rw [hrun]

/-- COMPOSE_WRITE_BACK writes what is left of the image and decides ACCEPT (R101). -/
theorem composeWriteBack_written (hr : s.screening.run = some r) (hs : r.stage = .composing) (hi : r.image = some img)
    (hw : r.written < 16) (hg : r.got = []) (hfree : s.PathFree .composer 3) (hm : s.memory.wf = true) :
    ∃ t, exec .composeWriteBack s = .next t
      ∧ ({ s with
            memory := t.memory, lanes := s.lanes.set r.lane { s.lane r.lane with composed := some img }
            screening := { s.screening with run := some { r with decision := some .accept, stage := .decided } }
          }).Mirrored t
      ∧ (∀ i : Fin 16, r.written ≤ i.val →
          t.memory.word (s.laneAddress r.lane (128 + 4 * i.val)) = img[i.val]
          ∧ t.memory.health (s.laneAddress r.lane (128 + 4 * i.val)) = .clean)
      ∧ s.SameBytesBut t (s.laneAddress r.lane (128 + 4 * r.written)) (64 - 4 * r.written) := by
  have hput := putWords_free (s.imageCells r img) hfree
  have hexec := exec_composeWriteBack hr hs hi
  generalize s.putWords .composer (s.imageCells r img) = v at hput hexec
  have hvrun : (v.setLane r.lane { v.lane r.lane with composed := some img }).screening.run = some r := by
    rw [State.setLane_screening, hput.screening]
    exact hr
  rw [State.finishImage, decideRun_unread hvrun hg] at hexec
  obtain ⟨t, ht, hmir⟩ : ∃ t, exec .composeWriteBack s = .next t ∧ State.Mirrored _ t := ⟨_, hexec, settle_mirrored _ _⟩
  have hmemory : t.memory = putAll s.memory (s.imageCells r img) := hmir.memory.trans hput.memory
  have haddress (i : Nat) (h : r.written ≤ i) : s.laneAddress r.lane (128 + 4 * i) =
      s.laneAddress r.lane (128 + 4 * r.written) + 4 * (i - r.written) := by
    simp only [State.laneAddress]
    omega
  refine ⟨t, ht, ?_, fun i hi => ?_, fun b hb => ?_⟩
  · rw [hmemory]
    unfold State.Mirrored at hput hmir ⊢
    generalize t.status.stale = y1, t.status.changeCount = y2, t.status.due = y3, t.arbiter.requests = y4 at hmir
    generalize v.status.stale = z1, v.status.changeCount = z2, v.status.due = z3, v.arbiter.requests = z4 at hput
    subst hput
    subst hmir
    rfl
  · have hlen : i.val - r.written < (img.toList.drop r.written).length := by
      rw [List.length_drop, Vector.length_toList]
      omega
    obtain ⟨hword, hhealth⟩ := runCells_word (a := s.laneAddress r.lane (128 + 4 * r.written)) hm hlen
    rw [hmemory, imageCells_eq, haddress i hi, hword, hhealth, List.getElem_drop]
    refine ⟨?_, rfl⟩
    simp only [Nat.add_sub_cancel' hi, Vector.getElem_toList]
  · rw [hmemory, imageCells_eq]
    refine runCells_byte_other ?_
    rw [List.length_drop, Vector.length_toList]
    omega

end

end Sys2Proof.Machine

/-! ### The fields of the write-back image (R2, R5, R100, R101; layout 12.2) -/

namespace Sys2Proof.Machine

section
variable {w : Word} {keys : List KeySlot} {key : KeySlot} {img : Image} {b : WriteBack} {lo len : Nat}

theorem bits_mod (w : Word) (lo len : Nat) : bits w lo len % 2 ^ len = bits w lo len :=
  Nat.mod_mod _ _

/-- The day, second, station and zone of entry that a write-back carries (R62, R74). -/
def WriteBack.entryStamp (b : WriteBack) (img : Image) : Nat × Nat × Nat × Nat :=
  match b.stamp with
  | .entry now station zone => (now.day, now.second, station, zone)
  | .exit _ _ => (cardEntryDay img, cardEntrySecond img, cardEntryStation img, cardEntryZone img)

/-- The day, second and station of the last exit that a write-back carries (R62, R74). -/
def WriteBack.exitStamp (b : WriteBack) (img : Image) : Nat × Nat × Nat :=
  match b.stamp with
  | .entry _ _ _ => (cardLastExitDay img, cardLastExitSecond img, cardLastExitStation img)
  | .exit now station => (now.day, now.second, station)

/-- The fifteen words before the tag (R100, R101). -/
def untaggedImage (key : KeySlot) (img : Image) (b : WriteBack) : Image :=
  let carry (i : Fin 4) : Word := if i.val < cardCarryCount img then cardCarryWord img i else 0
  let entry := b.entryStamp img
  let exit := b.exitStamp img
  #v[put 1 0 8 ||| put key.generation.toNat 8 8 ||| putFlag b.inside 16 ||| putFlag b.linked 17
       ||| put (cardFurtherFlags img) 18 6 ||| put (cardProduct img) 24 4 ||| put (cardCarryCount img) 28 3,
     img[1], img[2], put (cardCounter img + 1) 0 16 ||| put b.daySpent 16 16, BitVec.ofInt 32 b.balance,
     put b.spendDay 0 16 ||| put entry.1 16 16,
     put entry.2.1 0 17 ||| put entry.2.2.1 17 12 ||| put b.transferCount 29 2,
     put exit.1 0 16 ||| put (cardPassExpiry img) 16 16, put exit.2.1 0 17 ||| put exit.2.2 17 12,
     put entry.2.2.2 0 4 ||| put (cardPassLow img) 4 4 ||| put (cardPassHigh img) 8 4,
     carry 0, carry 1, carry 2, carry 3, 0, 0]

theorem composeImage_eq (h : keys.find? (fun k => k.use == .current) = some key) (img : Image) (b : WriteBack) :
    composeImage keys img b = (untaggedImage key img b).set 15 (cardTag key.key (untaggedImage key img b)) := by
  have hkey : currentKey keys = key := by rw [currentKey, h, Option.getD_some]
  have himage : composeImage keys img b = (untaggedImage (currentKey keys) img b).set 15
      (cardTag (currentKey keys).key (untaggedImage (currentKey keys) img b)) := by
    obtain ⟨balance, daySpent, spendDay, transferCount, inside, linked, stamp⟩ := b
    cases stamp <;> rfl
  rw [himage, hkey]

/-- A word of the image other than the tag. -/
theorem composeImage_word (h : keys.find? (fun k => k.use == .current) = some key) (i : Fin 16) (hi : i.val < 15) :
    (composeImage keys img b)[i.val] = (untaggedImage key img b)[i.val] := by
  rw [composeImage_eq h]
  exact Vector.getElem_set_ne (by omega) _ (by omega)

theorem composeImage_tag (h : keys.find? (fun k => k.use == .current) = some key) :
    cardTag key.key (composeImage keys img b) = (composeImage keys img b)[15] := by
  rw [composeImage_eq h, Vector.getElem_set_self]
  unfold cardTag
  rw [Vector.toList_set, List.take_set_of_le (by omega)]

/-! #### Field by field -/

theorem getLsbD_putFlag (f : Bool) (i j : Nat) (hi : i < 32) : (putFlag f i).getLsbD j = (decide (j = i) && f) := by
  cases f with
  | false => simp [putFlag]
  | true =>
    rw [putFlag, if_pos rfl, getLsbD_put]
    by_cases h : j = i
    · subst h
      simp [hi]
    · by_cases hj : i ≤ j
      · simp [h, show ¬j - i < 1 by omega]
      · simp [h, hj]

section
variable (h : keys.find? (fun k => k.use == .current) = some key)
include h

/-- The first word: format, generation, flags, class and Carry Count (R100). -/
theorem composeImage_head (img : Image) (b : WriteBack) :
    let out := composeImage keys img b
    cardFormat out = 1 ∧ cardGeneration out = key.generation ∧ cardInside out = b.inside ∧ cardLinked out = b.linked
    ∧ cardFurtherFlags out = cardFurtherFlags img ∧ cardProduct out = cardProduct img
    ∧ cardCarryCount out = cardCarryCount img ∧ bits out[0] 31 1 = 0 := by
  intro out
  have hword : out[0] = put 1 0 8 ||| put key.generation.toNat 8 8 ||| putFlag b.inside 16 ||| putFlag b.linked 17
      ||| put (cardFurtherFlags img) 18 6 ||| put (cardProduct img) 24 4 ||| put (cardCarryCount img) 28 3 :=
    composeImage_word h 0 (by decide)
  have hgeneration : bits out[0] 8 8 = key.generation.toNat := by
    have := key.generation.isLt
    rw [hword]
    simp (disch := omega) only [bits_or, bits_put_self, bits_put_apart, bits_putFlag_apart, Nat.or_zero, Nat.zero_or]
    omega
  refine ⟨?_, ?_, ?_, ?_, ?_, ?_, ?_, ?_⟩
  · rw [cardFormat, hword]
    simp (disch := omega) only [bits_or, bits_put_self, bits_put_apart, bits_putFlag_apart, Nat.or_zero]
    rfl
  · rw [cardGeneration, byteOf, show 8 * 1 = 8 from rfl, hgeneration, BitVec.ofNat_toNat, BitVec.setWidth_eq]
  · rw [cardInside, hword]
    simp (disch := omega) only [BitVec.getLsbD_or, getLsbD_put, getLsbD_putFlag]
    simp
  · rw [cardLinked, hword]
    simp (disch := omega) only [BitVec.getLsbD_or, getLsbD_put, getLsbD_putFlag]
    simp
  · rw [cardFurtherFlags, hword]
    simp (disch := omega) only [bits_or, bits_put_self, bits_put_apart, bits_putFlag_apart, Nat.or_zero, Nat.zero_or]
    exact bits_mod ..
  · rw [cardProduct, hword]
    simp (disch := omega) only [bits_or, bits_put_self, bits_put_apart, bits_putFlag_apart, Nat.or_zero, Nat.zero_or]
    exact bits_mod ..
  · rw [cardCarryCount, hword]
    simp (disch := omega) only [bits_or, bits_put_self, bits_put_apart, bits_putFlag_apart, Nat.or_zero, Nat.zero_or]
    exact bits_mod ..
  · rw [hword]
    simp (disch := omega) only [bits_or, bits_put_apart, bits_putFlag_apart, Nat.or_zero]

/-- The money words: Counter, Day Spent, Balance and Spend Day (R100). -/
theorem composeImage_money (img : Image) (b : WriteBack) :
    let out := composeImage keys img b
    (cardCounter img < 65535 → cardCounter out = cardCounter img + 1)
    ∧ (b.daySpent < 65536 → cardDaySpent out = b.daySpent) ∧ (b.spendDay < 65536 → cardSpendDay out = b.spendDay)
    ∧ (-2147483648 ≤ b.balance → b.balance ≤ 2147483647 → cardBalance out = b.balance)
    ∧ (b.transferCount < 4 → cardTransferCount out = b.transferCount) := by
  intro out
  have h3 : out[3] = put (cardCounter img + 1) 0 16 ||| put b.daySpent 16 16 := composeImage_word h 3 (by decide)
  have h4 : out[4] = BitVec.ofInt 32 b.balance := composeImage_word h 4 (by decide)
  have h5 : out[5] = put b.spendDay 0 16 ||| put (b.entryStamp img).1 16 16 := composeImage_word h 5 (by decide)
  have h6 : out[6] = put (b.entryStamp img).2.1 0 17 ||| put (b.entryStamp img).2.2.1 17 12 ||| put b.transferCount 29 2 :=
    composeImage_word h 6 (by decide)
  refine ⟨fun hc => ?_, fun hd => ?_, fun hd => ?_, fun hl hh => ?_, fun ht => ?_⟩
  · rw [cardCounter, h3]
    simp (disch := omega) only [bits_or, bits_put_self, bits_put_apart, Nat.or_zero]
    omega
  · rw [cardDaySpent, h3]
    simp (disch := omega) only [bits_or, bits_put_self, bits_put_apart, Nat.zero_or]
    omega
  · rw [cardSpendDay, h5]
    simp (disch := omega) only [bits_or, bits_put_self, bits_put_apart, Nat.or_zero]
    omega
  · rw [cardBalance, h4]
    exact BitVec.toInt_ofInt_eq_self (by decide) (by simpa using hl) (by norm_num; omega)
  · rw [cardTransferCount, h6]
    simp (disch := omega) only [bits_or, bits_put_self, bits_put_apart, Nat.zero_or]
    omega

/-- The words of the pass and the Carry Words are kept (R100, R101). -/
theorem composeImage_kept (img : Image) (b : WriteBack) :
    let out := composeImage keys img b
    cardSerial out = cardSerial img ∧ cardPassExpiry out = cardPassExpiry img ∧ cardPassLow out = cardPassLow img
    ∧ cardPassHigh out = cardPassHigh img
    ∧ (∀ i : Fin 4, cardCarryWord out i = if i.val < cardCarryCount img then cardCarryWord img i else 0)
    ∧ bits out[6] 31 1 = 0 ∧ bits out[8] 29 3 = 0 ∧ bits out[9] 12 20 = 0 ∧ out[14] = 0 := by
  intro out
  have h1 : out[1] = img[1] := composeImage_word h 1 (by decide)
  have h2 : out[2] = img[2] := composeImage_word h 2 (by decide)
  have h6 : out[6] = put (b.entryStamp img).2.1 0 17 ||| put (b.entryStamp img).2.2.1 17 12 ||| put b.transferCount 29 2 :=
    composeImage_word h 6 (by decide)
  have h7 : out[7] = put (b.exitStamp img).1 0 16 ||| put (cardPassExpiry img) 16 16 := composeImage_word h 7 (by decide)
  have h8 : out[8] = put (b.exitStamp img).2.1 0 17 ||| put (b.exitStamp img).2.2 17 12 := composeImage_word h 8 (by decide)
  have h9 : out[9] = put (b.entryStamp img).2.2.2 0 4 ||| put (cardPassLow img) 4 4 ||| put (cardPassHigh img) 8 4 :=
    composeImage_word h 9 (by decide)
  refine ⟨?_, ?_, ?_, ?_, fun i => ?_, ?_, ?_, ?_, composeImage_word h 14 (by decide)⟩
  · rw [cardSerial, h1, h2]
    rfl
  · rw [cardPassExpiry, h7]
    simp (disch := omega) only [bits_or, bits_put_self, bits_put_apart, Nat.zero_or]
    exact bits_mod ..
  · rw [cardPassLow, h9]
    simp (disch := omega) only [bits_or, bits_put_self, bits_put_apart, Nat.or_zero, Nat.zero_or]
    exact bits_mod ..
  · rw [cardPassHigh, h9]
    simp (disch := omega) only [bits_or, bits_put_self, bits_put_apart, Nat.zero_or]
    exact bits_mod ..
  · have hword := composeImage_word (img := img) (b := b) h ⟨10 + i.val, by omega⟩ (by show 10 + i.val < 15; omega)
    refine Eq.trans hword ?_
    fin_cases i <;> rfl
  · rw [h6]
    simp (disch := omega) only [bits_or, bits_put_apart, Nat.or_zero]
  · rw [h8]
    simp (disch := omega) only [bits_or, bits_put_apart, Nat.or_zero]
  · rw [h9]
    simp (disch := omega) only [bits_or, bits_put_apart, Nat.or_zero]

/-- The journey fields, as far as they fit their fields (R62, R74). -/
theorem composeImage_journey (img : Image) (b : WriteBack) :
    let out := composeImage keys img b
    let entry := b.entryStamp img
    let exit := b.exitStamp img
    cardEntryDay out = entry.1 % 65536 ∧ bits out[6] 0 17 = entry.2.1 % 131072 ∧ cardEntryStation out = entry.2.2.1 % 4096
    ∧ cardEntryZone out = entry.2.2.2 % 16 ∧ cardLastExitDay out = exit.1 % 65536 ∧ bits out[8] 0 17 = exit.2.1 % 131072
    ∧ cardLastExitStation out = exit.2.2 % 4096 := by
  intro out entry exit
  have h5 : out[5] = put b.spendDay 0 16 ||| put entry.1 16 16 := composeImage_word h 5 (by decide)
  have h6 : out[6] = put entry.2.1 0 17 ||| put entry.2.2.1 17 12 ||| put b.transferCount 29 2 :=
    composeImage_word h 6 (by decide)
  have h7 : out[7] = put exit.1 0 16 ||| put (cardPassExpiry img) 16 16 := composeImage_word h 7 (by decide)
  have h8 : out[8] = put exit.2.1 0 17 ||| put exit.2.2 17 12 := composeImage_word h 8 (by decide)
  have h9 : out[9] = put entry.2.2.2 0 4 ||| put (cardPassLow img) 4 4 ||| put (cardPassHigh img) 8 4 :=
    composeImage_word h 9 (by decide)
  simp only [cardEntryDay, cardEntryStation, cardEntryZone, cardLastExitDay, cardLastExitStation, h5, h6, h7, h8, h9]
  simp (disch := omega) only [bits_or, bits_put_self, bits_put_apart, Nat.or_zero, Nat.zero_or]
  exact ⟨rfl, rfl, rfl, rfl, rfl, rfl, rfl⟩

end

/-- A field's value fits its field. -/
theorem bits_lt (w : Word) (lo len : Nat) : bits w lo len < 2 ^ len := Nat.mod_lt _ (Nat.two_pow_pos len)

/-- Settles O41: the Composer's writes, and the image field by field. -/
theorem writeBackIsComposed : Obligations.WriteBackIsComposed := by
  refine ⟨fun s r img hr hs hi hw hg hfree hm => composeWriteBack_written hr hs hi hw hg hfree hm, ?_⟩
  intro keys key img w h hc hlow hhigh out
  obtain ⟨hformat, hgeneration, hinside, hlinked, hflags, hproduct, hcount, hzero0⟩ := composeImage_head h img w
  obtain ⟨hcounter, hspent, hspend, hbalance, htransfer⟩ := composeImage_money h img w
  obtain ⟨hserial, hexpiry, hpassLow, hpassHigh, hcarry, hzero6, hzero8, hzero9, hzero14⟩ := composeImage_kept h img w
  obtain ⟨hday, hsecond, hstation, hzone, hexitDay, hexitSecond, hexitStation⟩ := composeImage_journey h img w
  refine ⟨hserial, hcounter hc, hbalance hlow hhigh, hformat, hgeneration, composeImage_tag h, hinside, hlinked, hexpiry,
    hproduct, hflags, hcount, hpassLow, hpassHigh, hcarry, hspent, hspend, htransfer, fun now station zone hs h1 h2 h3 h4 => ?_,
    fun now station hs h1 h2 h3 => ?_, hzero0, hzero6, hzero8, hzero9, hzero14⟩
  · have hentry : w.entryStamp img = (now.day, now.second, station, zone) := by rw [WriteBack.entryStamp, hs]
    have hexit : w.exitStamp img = (cardLastExitDay img, cardLastExitSecond img, cardLastExitStation img) := by
      rw [WriteBack.exitStamp, hs]
    rw [hentry] at hday hsecond hstation hzone
    rw [hexit] at hexitDay hexitSecond hexitStation
    have hkept : cardLastExitSecond img < 131072 := (Nat.min_le_left _ _).trans_lt (by decide)
    exact ⟨hday.trans (Nat.mod_eq_of_lt h1),
      (congrArg (min 86399) hsecond).trans (by dsimp only; omega), hstation.trans (Nat.mod_eq_of_lt h3),
      hzone.trans (Nat.mod_eq_of_lt h4), hexitDay.trans (Nat.mod_eq_of_lt (bits_lt img[7] 0 16)),
      hexitSecond.trans (Nat.mod_eq_of_lt hkept), hexitStation.trans (Nat.mod_eq_of_lt (bits_lt img[8] 17 12))⟩
  · have hentry : w.entryStamp img =
        (cardEntryDay img, cardEntrySecond img, cardEntryStation img, cardEntryZone img) := by rw [WriteBack.entryStamp, hs]
    have hexit : w.exitStamp img = (now.day, now.second, station) := by rw [WriteBack.exitStamp, hs]
    rw [hentry] at hday hsecond hstation hzone
    rw [hexit] at hexitDay hexitSecond hexitStation
    have hkept : cardEntrySecond img < 131072 := (Nat.min_le_left _ _).trans_lt (by decide)
    exact ⟨hexitDay.trans (Nat.mod_eq_of_lt h1),
      (congrArg (min 86399) hexitSecond).trans (by dsimp only; omega), hexitStation.trans (Nat.mod_eq_of_lt h3),
      hday.trans (Nat.mod_eq_of_lt (bits_lt img[5] 16 16)), hsecond.trans (Nat.mod_eq_of_lt hkept),
      hstation.trans (Nat.mod_eq_of_lt (bits_lt img[6] 17 12)), hzone.trans (Nat.mod_eq_of_lt (bits_lt img[9] 0 4))⟩

end

end Sys2Proof.Machine

/-! ### Commands that wait for a lane while a result word of theirs waits too (R80, R178)

Three statements say of the commands that waited for a lane that the row leaves exactly the result words written of those
that have come to complete. They ask nothing of the slots, so that a command may wait for a lane whose slot already has a
result word to write, without a request of its own at the arbiter. The row then completes it anew, its request reaches the
arbiter before that of a slot that completes after it, and the arbiter writes its result word before the later slot's. -/

namespace Sys2Proof.Machine

/-- A command that names no present lane. -/
def strayCommand : CommandRecord := { code := 1, target := 0, arg3 := 0, arg4 := 0, arg5 := 0, authority := .maint }

/-- A state in which the commands of slots 0 and 1 wait for lane 0, and a result word of slot 0 waits as well. -/
def doublyWaiting : State :=
  let waiting : CommandSlot := { State.reset.slot 0 with busy := true, command := some strayCommand }
  { State.reset with
    slots := (State.reset.slots.set 0 { waiting with result := some ⟨0, false⟩ }).set 1 waiting
    lanes := State.reset.lanes.set 0 { State.reset.lane 0 with waiting := [0, 1] } }

/-- Whether a row leaves slot 0 free. -/
def leavesFree : Host.Outcome State Fault Refusal → Bool
  | .next t => !(t.slot 0).busy
  | _ => false

/-- Whether slot 0 is busy in what `f` makes of the state that a row leaves. -/
def leavesBusy (f : State → State) : Host.Outcome State Fault Refusal → Bool
  | .next u => ((f u).slot 0).busy
  | _ => false

/-- A row that frees slot 0 does not leave a state in which the slot is busy. -/
theorem not_mirrored_of_busy {i : Instr} {s : State} {n : Lane} {f : State → State} (hrow : leavesFree (exec i s) = true)
    (hfirst : leavesBusy f (exec i (s.unawaited n)) = true) :
    ¬∃ u t, exec i (s.unawaited n) = .next u ∧ exec i s = .next t ∧ (f u).Mirrored t := by
  rintro ⟨u, t, hu, ht, hm⟩
  rw [ht] at hrow
  rw [hu] at hfirst
  have hslot : t.slot 0 = (f u).slot 0 := by simp only [State.slot, hm.slots]
  simp only [leavesFree, leavesBusy, hslot, Bool.not_eq_true'] at hrow hfirst
  rw [hrow] at hfirst
  cases hfirst

/-! #### A Verdict Record's last word -/

/-- The same state with a Verdict Record of lane 0 that lacks its last word. -/
def recordEnding : State :=
  { doublyWaiting with status := { doublyWaiting.status with records :=
    [{ lane := 0, number := 1, words := Vector.replicate 8 0, written := 7, next := .answeredInRecovery }] } }

/-- Refutes O43: as the record of `recordEnding` ends, slot 0's result word is written before slot 1's. -/
theorem not_verdictRecordIsWritten : ¬Obligations.VerdictRecordIsWritten := by
  rintro ⟨-, -, h⟩
  refine not_mirrored_of_busy (i := .verdictRecordWritten 0) (s := recordEnding) (n := 0) ?_ ?_
    (h recordEnding 0 _ rfl (State.PathIdle.free (s := recordEnding) ⟨rfl, rfl, rfl⟩ _ _) (by decide))
  · decide +kernel
  · decide +kernel

/-! #### A recovery comparison -/

/-- The same state with lane 0 comparing. -/
def comparisonEnding : State :=
  { doublyWaiting with
    lanes := doublyWaiting.lanes.set 0 { doublyWaiting.lane 0 with state := .recovery, comparing := true } }

/-- Refutes O46: as the comparison of `comparisonEnding` ends, slot 0's result word is written before slot 1's. -/
theorem not_recoveryComparisonDecides : ¬Obligations.RecoveryComparisonDecides := by
  rintro ⟨-, -, h⟩
  refine not_mirrored_of_busy (i := .recoveryComparison 0) (s := comparisonEnding) (n := 0) ?_ ?_
    (h comparisonEnding 0 rfl rfl (fun j hj => by cases hj) (by decide) rfl
      (State.PathIdle.free (s := comparisonEnding) ⟨rfl, rfl, rfl⟩ _ _) (by decide))
  · decide +kernel
  · decide +kernel

/-! #### The last word of an entry -/

/-- The same state with an entry of lane 0 that lacks its closing mark. -/
def appendEnding : State :=
  { doublyWaiting with journal := { doublyWaiting.journal with
    job := some (.append 1 (Vector.replicate 8 0) 7 none (.toIdle 0 none)) } }

/-- Refutes O47: as the append of `appendEnding` ends, slot 0's result word is written before slot 1's. -/
theorem not_appendCompletes : ¬Obligations.AppendCompletes := by
  rintro ⟨-, -, h⟩
  refine not_mirrored_of_busy (i := .journalAppendComplete) (s := appendEnding) (n := 0)
    (f := fun u => appendEnding.resultsWritten (State.nextRequest
      (appendEnding.waitingTaken 0 { u with journal := { u.journal with job := appendEnding.journal.job } }))) ?_ ?_
    (h appendEnding 0 _ _ _ _ _ rfl rfl rfl (State.PathIdle.free (s := appendEnding) ⟨rfl, rfl, rfl⟩ _ _) (by decide))
  · decide +kernel
  · decide +kernel

end Sys2Proof.Machine

/-! ### The rewrite of the Unit Record (R109, R114, R115) -/

namespace Sys2Proof.Machine

section
variable {r s t u v w : State} {words : Vector Word 8} {written : Nat} {releasing : Bool} {k : SlotId} {q : Nat}
  {outcome : CommandOutcome} {detail : Detail}

/-- A block's writes leave its own requests made, and bring none (R166). -/
theorem putWords_requests {x : Block} {l : List (Nat × Word)} (h : s.PathFree x x.requester.place) :
    ∀ y ∈ (s.putWords x l).arbiter.requests, y ∈ s.arbiter.requests := by
  induction l generalizing s with
  | nil => exact fun _ => id
  | cons c rest ih =>
    have hp : ((s.retract x).writeWord c.1 c.2).PathFree x x.requester.place :=
      ⟨h.reader, h.processor, fun z hz => h.others z (List.mem_of_mem_erase hz)⟩
    rw [State.putWords, turn_free h]
    exact fun y hy => List.mem_of_mem_erase (ih hp y hy)

/-- After a block's writes nothing goes before a word of another at its place (R167). -/
theorem putWords_path {x b : Block} {p : Nat} {l : List (Nat × Word)} (h : s.PathFree x p) (hp : x.requester.place ≤ p)
    (hl : l ≠ []) (hd : s.arbiter.requests.Nodup) : (s.putWords x l).PathFree b p := by
  have hm := putWords_free l (h.mono hp)
  refine ⟨by rw [hm.reader]; exact h.reader, by rw [hm.processor]; exact h.processor, fun y hy => .inr ?_⟩
  obtain ⟨c, rest, rfl⟩ := List.exists_cons_of_ne_nil hl
  rw [State.putWords, turn_free (h.mono hp)] at hy
  have hfree : ((s.retract x).writeWord c.1 c.2).PathFree x x.requester.place :=
    ⟨h.reader, h.processor, fun z hz => (h.mono hp).others z (List.mem_of_mem_erase hz)⟩
  have hmem : y ∈ s.arbiter.requests.erase x := putWords_requests hfree y hy
  rw [hd.mem_erase_iff] at hmem
  exact (h.others y hmem.2).resolve_left hmem.1

/-- A row that completes no command ends with what its rule gives. -/
theorem close_mirrored (h : t.slots = s.slots) : t.Mirrored (s.close t) := by
  have hnone : s.deliverAll t = t := deliverAll_none fun j hj => by
    rwa [State.slot, h] at hj
  rw [State.close, hnone]
  exact settle_mirrored _ _

/-! #### The next request -/

theorem nextRequest_eq (s : State) : s.nextRequest = { s with journal := s.nextRequest.journal } := serveFrom_frame _

theorem nextRequest_congr (hj : t.journal = s.journal) (hc : t.cfg = s.cfg) :
    t.nextRequest.journal = s.nextRequest.journal := by
  rw [State.nextRequest, hj]
  exact serveFrom_congr hj hc

theorem State.Mirrored.nextRequest (h : u.Mirrored t) : u.nextRequest.Mirrored t.nextRequest := by
  have hjournal : t.nextRequest.journal = u.nextRequest.journal := nextRequest_congr h.journal (by rw [h])
  rw [nextRequest_eq t, nextRequest_eq u, hjournal]
  unfold State.Mirrored at h ⊢
  generalize t.status.stale = y1, t.status.changeCount = y2, t.status.due = y3, t.arbiter.requests = y4 at h
  subst h
  rfl

/-- A command that completes leaves the Journal Writer alone. -/
theorem complete_nextRequest (s : State) (k : SlotId) (outcome : CommandOutcome) (detail : Detail) :
    (s.complete k outcome detail).nextRequest = s.nextRequest.complete k outcome detail := by
  have hoffer (x : State) (b : Block) : (x.offer b).nextRequest = x.nextRequest.offer b := by
    have hjournal : (x.offer b).nextRequest.journal = x.nextRequest.journal := by
      refine nextRequest_congr ?_ ?_ <;> rw [State.offer] <;> split_ifs <;> rfl
    rw [nextRequest_eq, hjournal, nextRequest_eq x]
    unfold State.offer
    dsimp only
    split_ifs <;> rfl
  have hplace : (s.placeResult k outcome detail false).nextRequest = s.nextRequest.placeResult k outcome detail false := by
    have hjournal : (s.placeResult k outcome detail false).nextRequest.journal = s.nextRequest.journal :=
      nextRequest_congr rfl rfl
    rw [nextRequest_eq, hjournal, nextRequest_eq s]
    rfl
  rw [complete_none, hoffer, hplace, complete_none]

/-! #### UNIT_RECORD_REWRITE_COMPLETE -/

/-- The words of the Unit Record that are left to write (R114). -/
theorem rewriteCells_eq (s : State) (words : Vector Word 8) (written : Nat) (releasing : Bool) :
    s.jobCells (.rewrite words written releasing) =
      runCells (s.regionBase .journal + 4 * written) (words.toList.drop written) := rfl

theorem exec_unitRecordRewriteComplete (hj : s.journal.job = some (.rewrite words written releasing)) :
    exec .unitRecordRewriteComplete s =
      .next (s.close ((s.putWords .journal (s.jobCells (.rewrite words written releasing))).finishRewrite releasing)) := by
  show Host.Outcome.next _ = _
  rw [hj]
  rfl

theorem finishRewrite_plain (s : State) : s.finishRewrite false = s.nextRequest := rfl

theorem finishRewrite_released (h : s.journal.release = some (k, q)) :
    s.finishRewrite true =
      (State.nextRequest { s with journal := { s.journal with released := q, release := none } }).complete k .done := by
  have hrule : s.finishRewrite true =
      (State.complete { s with journal := { s.journal with released := q, release := none } } k .done).nextRequest := by
    unfold State.finishRewrite
    rw [h]
    rfl
  rw [hrule, complete_nextRequest]

/-- The words of a record, from the first that is not written yet on (R109, R114). -/
theorem runCells_drop {m : Memory} {a : Nat} (hm : m.wf = true) (i : Fin 8) (hi : written ≤ i.val) :
    (putAll m (runCells (a + 4 * written) (words.toList.drop written))).word (a + 4 * i.val) = words[i.val]
    ∧ (putAll m (runCells (a + 4 * written) (words.toList.drop written))).health (a + 4 * i.val) = .clean := by
  have hlen : i.val - written < (words.toList.drop written).length := by
    rw [List.length_drop, Vector.length_toList]
    omega
  obtain ⟨hword, hhealth⟩ := runCells_word (a := a + 4 * written) hm hlen
  have haddress : a + 4 * written + 4 * (i.val - written) = a + 4 * i.val := by omega
  rw [haddress] at hword hhealth
  refine ⟨hword.trans ?_, hhealth⟩
  rw [List.getElem_drop]
  simp only [Nat.add_sub_cancel' hi, Vector.getElem_toList]

theorem runCells_drop_other {m : Memory} {a b : Nat} (h : b < a + 4 * written ∨ a + 32 ≤ b) (hw : written ≤ 8) :
    (putAll m (runCells (a + 4 * written) (words.toList.drop written))).byte b = m.byte b := by
  refine runCells_byte_other ?_
  rw [List.length_drop, Vector.length_toList]
  omega

/-- Settles O48: with a JOURNAL_RELEASE and without one. -/
theorem rewriteCompletes : Obligations.RewriteCompletes := by
  intro s words written releasing hj hw hwf hfree hnodup a
  have hplace : s.PathFree .journal 2 := hfree.mono (by split_ifs <;> omega)
  have hput := putWords_free (s.jobCells (.rewrite words written releasing)) hplace
  have hexec := exec_unitRecordRewriteComplete hj
  rw [rewriteCells_eq] at hput hexec
  generalize hv : s.putWords .journal _ = v at hput hexec
  refine ⟨fun hr => ?plain, fun k q hr hk hresult hapart => ?released⟩
  case plain =>
    subst hr
    have hm := hput.nextRequest
    have hslots : v.nextRequest.slots = s.slots := by
      rw [nextRequest_eq]
      exact hput.slots
    obtain ⟨t, ht, hend⟩ : ∃ t, exec .unitRecordRewriteComplete s = .next t
        ∧ (State.nextRequest { s with memory := putAll s.memory (runCells (a + 4 * written) (words.toList.drop written)) }).Mirrored t :=
      ⟨_, hexec, hm.trans (close_mirrored hslots)⟩
    have hmemory : t.memory = putAll s.memory (runCells (a + 4 * written) (words.toList.drop written)) := by
      rw [hend.memory, nextRequest_eq]
    refine ⟨t, ht, ?_, fun i hi => ?_, fun b hb => ?_⟩
    · rw [hmemory]
      exact hend
    · rw [hmemory]
      exact (runCells_drop hwf i hi).1
    · rw [hmemory]
      exact runCells_drop_other (by omega) hw.le
  case released =>
    subst hr
    set p : State := State.nextRequest { s with
      memory := putAll s.memory (runCells (a + 4 * written) (words.toList.drop written))
      journal := { s.journal with released := q, release := none } } with hp
    have hrelease : v.journal.release = some (k, q) := by rw [hput.journal]; exact hk
    rw [finishRewrite_released hrelease] at hexec
    set x : State := State.nextRequest { v with journal := { v.journal with released := q, release := none } } with hx
    have hm : p.Mirrored x := by
      refine State.Mirrored.nextRequest ?_
      unfold State.Mirrored at hput ⊢
      generalize v.status.stale = y1, v.status.changeCount = y2, v.status.due = y3, v.arbiter.requests = y4 at hput
      subst hput
      rfl
    have hpslots : p.slots = s.slots := by rw [hp, nextRequest_eq]
    have hxfree : x.PathFree (.commandSlot k) 5 := by
      have hvfree : v.PathFree (.commandSlot k) 5 := by
        refine hv ▸ putWords_path (by simpa using hfree) (by decide) ?_ hnodup
        rw [runCells, ne_eq, ← List.length_eq_zero_iff]
        simp [wordRun]
        omega
      rw [hx, nextRequest_eq]
      exact ⟨hvfree.reader, hvfree.processor, hvfree.others⟩
    have hxslots : x.slots = s.slots := hm.slots.trans hpslots
    obtain ⟨t, ht, hend⟩ : ∃ t, exec .unitRecordRewriteComplete s = .next t ∧ (x.ended k .done .none).Mirrored t :=
      ⟨_, hexec, (deliverAll_ended (w := x) (r := s) (.refl _) hxslots hresult hxfree.complete).trans (settle_mirrored _ _)⟩
    have haddress : x.slotAddress k 6 = s.slotAddress k 6 := by
      rw [show x = _ from hm, hp, nextRequest_eq]
      rfl
    have hxmemory : x.memory = putAll s.memory (runCells (a + 4 * written) (words.toList.drop written)) := by
      rw [hm.memory, hp, nextRequest_eq]
    have hxwf : x.memory.wf = true := by rw [hxmemory]; exact putAll_wf hwf
    have hxslot (j : SlotId) : x.slot j = s.slot j := by rw [State.slot, hxslots]; rfl
    obtain ⟨hframe, -, hothers, hword, hbytes⟩ := hend.ended_effect hxwf
    rw [haddress] at hword hbytes
    refine ⟨t, ht, ?_, fun i hi => ?_, ?_, fun j hj => (hothers j hj).trans (hxslot j), ?_, fun b hb hb' => ?_⟩
    · have hjournal : (State.nextRequest { s with
          memory := t.memory, slots := t.slots
          journal := { s.journal with released := q, release := none } }).journal = p.journal := nextRequest_congr rfl rfl
      have hpeq : p = { s with
          memory := putAll s.memory (runCells (a + 4 * written) (words.toList.drop written)), journal := p.journal } :=
        nextRequest_eq _
      rw [nextRequest_eq, hjournal]
      refine State.Mirrored.trans ?_ hframe
      rw [show x = _ from hm]
      generalize p.journal = journal at hpeq ⊢
      rw [hpeq]
      rfl
    · rw [hend.memory]
      refine (Memory.word_writeWord_other _ ?_).trans ?_
      · rw [haddress]
        omega
      · rw [hxmemory]
        exact (runCells_drop hwf i hi).1
    · have hslot : t.slot k = (x.ended k .done .none).slot k := by simp only [State.slot, hend.slots]
      rw [hslot, ended_slot, hxslot, ← hresult]
    · rw [hword, hxslot]
    · rw [hbytes b hb', hxmemory]
      exact runCells_drop_other hb hw.le

end

end Sys2Proof.Machine

/-! ### The end of the configuration load (R184, R186 to R188) -/

namespace Sys2Proof.Machine

section
variable {s t u : State} {rom : List Byte} {i : Nat} {n : Lane} {l : List Nat}

theorem makeStale_count (h : s.status.stale ≠ []) : (s.makeStale l).status.changeCount = s.status.changeCount := by
  unfold State.makeStale
  split
  · rfl
  · contradiction
  · rfl

/-- Words that join an empty stale set raise the Change Count (R184). -/
theorem makeStale_raised (hl : l ≠ []) (h : s.status.stale = []) :
    (s.makeStale l).status.changeCount = s.status.changeCount.map (· + 1) := by
  unfold State.makeStale
  split
  · contradiction
  · rfl
  · contradiction

/-- Words that are stale stay so at the end of an event, and then the Change Count stays (R184). -/
theorem settle_stale (h : t.status.stale ≠ []) :
    (s.settle t).status.changeCount = t.status.changeCount ∧ ∀ i ∈ t.status.stale, i ∈ (s.settle t).status.stale := by
  show (s.note t).status.changeCount = _ ∧ ∀ i ∈ _, i ∈ (s.note t).status.stale
  unfold State.note
  split
  · exact ⟨makeStale_count h, fun i hi => mem_makeStale (.inr hi)⟩
  · exact ⟨rfl, fun _ => id⟩

theorem mem_scanningStale (h0 : 1 ≤ i) (hi : i < 1024) (hregion : ¬(216 ≤ i ∧ i < 280)) : i ∈ scanningStale := by
  rw [scanningStale, List.mem_append, mirroredWords, List.mem_map, List.mem_map]
  by_cases h : i < 216
  · exact .inl ⟨i - 1, List.mem_range.2 (by omega), by omega⟩
  · exact .inr ⟨i - 280, List.mem_range.2 (by omega), by omega⟩

theorem scanningStale_ne_nil : scanningStale ≠ [] := List.ne_nil_of_mem (mem_scanningStale (i := 1) (by omega) (by omega) (by omega))

theorem loadGates_gate (s : State) (n : Lane) :
    s.loadGates.gate n = (s.gate n).loaded (s.present n) (s.cfg.directions.get n) := by
  match n with
  | 0 => rfl
  | 1 => rfl
  | 2 => rfl
  | 3 => rfl

/-- The state in which the Change Count word is read (R184): loaded, with the gates and banks of SCANNING. -/
def State.imageLoaded (s : State) (rom : List Byte) : State :=
  ({ s with cfg := (loadImage rom).1
            startUp := { s.startUp with unit := .scanning, clamped := (loadImage rom).2 } } : State).loadGates.beginSelection

/-- SCANNING begins: the Change Count word is read, and the words become stale (R184). -/
theorem beginStatus_free (h : s.PathFree .statusArea 5) :
    ∃ (q : List Block) (w : Option Word) (u : State), s.readWord (s.statusAddress 0) = (w, u)
      ∧ s.beginStatus = ((u.queued q).setStatus
          { u.status with changeCount := some (firstCount w), stale := [], due := [] }).makeStale scanningStale := by
  rcases hr : s.readWord (s.statusAddress 0) with ⟨w, u⟩
  have hread : s.readThrough (Reads.word .statusArea (s.statusAddress 0)) = (w, u) := by
    rw [Reads.word, State.readThrough, hr]
    rfl
  obtain ⟨q, hq, -⟩ := perform_gives (p := Reads.word .statusArea (s.statusAddress 0)) (.read _ _ fun _ => .done _) h hread
  refine ⟨q, w, u, rfl, ?_⟩
  rw [State.beginStatus, hq]
  rfl

/-- A clean Change Count word gives the odd count with which SCANNING begins (R184). -/
theorem firstCount_raised (w : Word) : firstCount (some w) + 1 = if w.getLsbD 0 = true then w + 2 else w + 1 := by
  rw [firstCount]
  split
  · rw [BitVec.add_assoc]
    rfl
  · rfl

/-- Settles O21: the faulty image, and the sound one, whose Change Count word is read before the words become stale. -/
theorem configurationLoadEnds : Obligations.ConfigurationLoadEnds := by
  intro s rom hu
  have hexec : exec (.configurationLoadEnd rom) s = .next (s.settle (s.loadEnd rom)) := rfl
  refine ⟨fun cause hc => yields_of_eq hexec ?_, fun hsound hp => ?_⟩
  · rw [State.loadEnd, if_pos hu, hc]
    rfl
  · have hload : s.loadEnd rom = (s.imageLoaded rom).beginStatus := by
      rw [State.loadEnd, if_pos hu, hsound]
      rfl
    rw [hload] at hexec
    obtain ⟨q, w, u, hr, hbegin⟩ := beginStatus_free (s := s.imageLoaded rom) ⟨hp.reader, hp.processor, hp.others⟩
    set v := (u.queued q).setStatus { u.status with changeCount := some (firstCount w), stale := [], due := [] } with hv
    have hleaves : (s.imageLoaded rom).ReadLeaves u := by
      have h := readWord_leaves (s := s.imageLoaded rom) ((s.imageLoaded rom).statusAddress 0)
      rwa [hr] at h
    have hstale : (v.makeStale scanningStale).status.stale ≠ [] :=
      List.ne_nil_of_mem (mem_makeStale (i := 1) (.inl (mem_scanningStale (by omega) (by omega) (by omega))))
    obtain ⟨hcount, hkept⟩ := settle_stale (s := s) hstale
    rw [hbegin] at hexec
    obtain ⟨t, ht, hm, hcount, hkept⟩ : ∃ t, exec (.configurationLoadEnd rom) s = .next t
        ∧ v.Mirrored t ∧ t.status.changeCount = some (firstCount w + 1) ∧ ∀ i ∈ scanningStale, i ∈ t.status.stale := by
      refine ⟨_, hexec, (makeStale_mirrored _ _).trans (settle_mirrored _ _), ?_, fun i hi => hkept i (mem_makeStale (.inl hi))⟩
      rw [hcount, makeStale_raised scanningStale_ne_nil rfl]
      rfl
    have hgate (n : Lane) : t.gate n = (s.gate n).loaded (t.present n) (t.cfg.directions.get n) := by
      have hg : t.gate n = (s.imageLoaded rom).gate n := by rw [hm, hv, hleaves]; rfl
      have hc : t.cfg = (loadImage rom).1 := by rw [hm, hv, hleaves]; rfl
      rw [hg, show t.present n = t.cfg.present.get n from rfl, hc]
      exact loadGates_gate _ n
    refine ⟨t, ht, ?_, ?_, fun n => ?_, fun n hn => ?_, fun n hn => ?_, fun i h0 hi hregion => hkept i (mem_scanningStale h0 hi hregion),
      fun hclean => ?_⟩
    · rw [hm, hv, hleaves]
      rfl
    · intro a
      have hmem : t.memory = u.memory := by rw [hm]; rfl
      rw [hmem]
      exact hleaves.sameBytes a
    · rw [hgate]
      unfold Gate.loaded
      split <;> rfl
    · rw [hgate, hn]
      rfl
    · rw [hgate, hn]
      rfl
    · have haddr : t.statusAddress 0 = (s.imageLoaded rom).statusAddress 0 := by rw [hm, hv, hleaves]; rfl
      have hw : w = some (s.memory.word (t.statusAddress 0)) := by
        have h := readWord_clean (s := s.imageLoaded rom) (a := (s.imageLoaded rom).statusAddress 0)
          (by rw [← haddr]; exact hclean)
        rw [hr] at h
        rw [(Prod.mk.inj h).1, haddr]
        rfl
      rw [hcount, hw, firstCount_raised]

end

end Sys2Proof.Machine

/-! ### The configuration image (R186, R187, R161; 12.8) -/

namespace Sys2Proof.Machine

section
variable {rom : List Byte} {f : Nat → RegionEntry}

/-! #### Numbers of the image -/

theorem wordOfBytes_toNat (b0 b1 b2 b3 : Byte) :
    (wordOfBytes b0 b1 b2 b3).toNat = b0.toNat + 256 * b1.toNat + 65536 * (b2.toNat + 256 * b3.toNat) := by
  have h0 := b0.isLt
  have h1 := b1.isLt
  have h2 := b2.isLt
  have h3 := b3.isLt
  have low : b1.toNat * 2 ^ 8 ||| b0.toNat = b1.toNat * 2 ^ 8 + b0.toNat := by
    rw [Nat.mul_comm]; exact (Nat.two_pow_add_eq_or_of_lt (by omega) _).symm
  have mid : b2.toNat * 2 ^ 16 ||| (b1.toNat * 2 ^ 8 + b0.toNat) = b2.toNat * 2 ^ 16 + (b1.toNat * 2 ^ 8 + b0.toNat) := by
    rw [Nat.mul_comm b2.toNat]; exact (Nat.two_pow_add_eq_or_of_lt (by omega) _).symm
  have high : b3.toNat * 2 ^ 24 ||| (b2.toNat * 2 ^ 16 + (b1.toNat * 2 ^ 8 + b0.toNat)) =
      b3.toNat * 2 ^ 24 + (b2.toNat * 2 ^ 16 + (b1.toNat * 2 ^ 8 + b0.toNat)) := by
    rw [Nat.mul_comm b3.toNat]; exact (Nat.two_pow_add_eq_or_of_lt (by omega) _).symm
  simp only [wordOfBytes, put, BitVec.toNat_or, BitVec.toNat_ofNat]
  rw [Nat.mod_eq_of_lt (a := b0.toNat) (by omega), Nat.mod_eq_of_lt (a := b1.toNat) (by omega),
    Nat.mod_eq_of_lt (a := b2.toNat) (by omega), Nat.mod_eq_of_lt (a := b3.toNat) (by omega),
    Nat.mod_eq_of_lt (a := b0.toNat * _) (by omega), Nat.mod_eq_of_lt (a := b1.toNat * _) (by omega),
    Nat.mod_eq_of_lt (a := b2.toNat * _) (by omega), Nat.mod_eq_of_lt (a := b3.toNat * _) (by omega),
    Nat.pow_zero, Nat.mul_one, Nat.or_comm, Nat.or_comm b0.toNat, Nat.or_comm (_ ||| _) (b2.toNat * _), low, mid, high]
  omega

theorem romWord_toNat (rom : List Byte) (i : Nat) : (romWord rom i).toNat = romHalf rom i + 65536 * romHalf rom (i + 2) :=
  wordOfBytes_toNat ..

theorem regionKindOf_isNone (v : Nat) : (regionKindOf v).isNone = true ↔ 7 < v := by
  by_cases h : v ≤ 7
  · interval_cases v <;> simp [regionKindOf]
  · obtain ⟨m, rfl⟩ := Nat.exists_eq_add_of_le' (show 8 ≤ v by omega)
    simp [regionKindOf]

theorem regionKindOf_code {v : Nat} (h : v ≤ 7) : ((regionKindOf v).getD .absent).code = v := by
  interval_cases v <;> rfl

theorem regionKindOf_code_self (k : RegionKind) : regionKindOf k.code = some k := by
  cases k <;> rfl

theorem code_injective {k m : RegionKind} (h : k.code = m.code) : k = m :=
  Option.some.inj (by rw [← regionKindOf_code_self k, h, regionKindOf_code_self])

/-- Region entry `r` of an image without an unknown Kind is of the Kind with its byte's code (12.8). -/
theorem romRegion_kind {r : Nat} (h : (romByte rom (16 * r)).toNat ≤ 7) (k : RegionKind) :
    (romRegion rom r).kind = k ↔ (romByte rom (16 * r)).toNat = k.code := by
  have hcode : (romRegion rom r).kind.code = (romByte rom (16 * r)).toNat := regionKindOf_code h
  exact ⟨fun hk => by rw [← hcode, hk], fun hk => code_injective (by rw [hcode, hk])⟩

/-! #### The Region Map (R161) -/

/-- Exactly one index below `n` is counted. -/
theorem countP_range_eq_one {n : Nat} {p : Nat → Bool} :
    (List.range n).countP p = 1 ↔ ∃ r, r < n ∧ p r = true ∧ ∀ q, q < n → p q = true → q = r := by
  have hmem (q : Nat) : q ∈ (List.range n).filter p ↔ q < n ∧ p q = true := by simp
  rw [List.countP_eq_length_filter, List.length_eq_one_iff]
  constructor
  · rintro ⟨r, hr⟩
    have hq (q : Nat) : q < n ∧ p q = true ↔ q = r := by rw [← hmem, hr, List.mem_singleton]
    exact ⟨r, ((hq r).2 rfl).1, ((hq r).2 rfl).2, fun q h h' => (hq q).1 ⟨h, h'⟩⟩
  · rintro ⟨r, hr, hpr, honly⟩
    refine ⟨r, List.perm_singleton.1 ((List.perm_ext_iff_of_nodup (List.nodup_range.filter p) (List.nodup_singleton r)).2
      fun q => ?_)⟩
    rw [hmem, List.mem_singleton]
    exact ⟨fun h => honly q h.1 h.2, by rintro rfl; exact ⟨hr, hpr⟩⟩

theorem disjointRegions_iff {l : List RegionEntry} :
    disjointRegions l = true ↔ l.Pairwise fun x y => x.overlaps y = false := by
  induction l with
  | nil => simp [disjointRegions]
  | cons r rest ih => simp [disjointRegions, ih]

theorem overlaps_eq_false_iff {x y : RegionEntry} :
    x.overlaps y = false ↔ x.base + x.size ≤ y.base ∨ y.base + y.size ≤ x.base := by
  simp only [RegionEntry.overlaps, Bool.and_eq_false_iff, decide_eq_false_iff_not]
  omega

theorem pairwise_range_iff {n : Nat} {R : Nat → Nat → Prop} :
    (List.range n).Pairwise R ↔ ∀ r, r < n → ∀ q, q < r → R q r := by
  rw [List.pairwise_iff_getElem]
  simp only [List.length_range, List.getElem_range]
  exact ⟨fun h r hr q hq => h q r (by omega) hr hq, fun h q r _ hr hqr => h r hr q hqr⟩

/-- A map of sixteen entries is sound where each mandatory Kind stands once, and the entries in use have their Size, end
within 16 MiB and share no address (R161). -/
theorem soundMap_iff : soundMap ((List.range 16).map f) = true ↔
    (∀ k ∈ [RegionKind.lane, .command, .status, .journal, .bankA, .bankB],
      ∃ r, r < 16 ∧ (f r).kind = k ∧ ∀ q, q < 16 → (f q).kind = k → q = r)
    ∧ ∀ r, r < 16 → (f r).kind ≠ .absent → (f r).sizeSound = true ∧ (f r).base + (f r).size ≤ 4096
      ∧ ∀ q, q < r → (f q).kind ≠ .absent →
        (f q).base + (f q).size ≤ (f r).base ∨ (f r).base + (f r).size ≤ (f q).base := by
  have hone (k : RegionKind) (hk : k ∈ [RegionKind.lane, .command, .status, .journal, .bankA, .bankB]) :
      (((List.range 16).map f).filter fun r => r.kind != .absent).countP (fun r => r.kind == k) = 1 ↔
        ∃ r, r < 16 ∧ (f r).kind = k ∧ ∀ q, q < 16 → (f q).kind = k → q = r := by
    have hne : k ≠ .absent := by rintro rfl; simp at hk
    have hsame (r : Nat) : (((f r).kind == k) && ((f r).kind != .absent)) = decide ((f r).kind = k) := by
      by_cases h : (f r).kind = k
      · rw [h]; simp [hne]
      · simp [h]
    rw [List.countP_filter, List.countP_map, List.countP_congr (q := fun r => decide ((f r).kind = k))
      (fun r _ => by rw [Function.comp_apply, hsame]), countP_range_eq_one]
    simp only [decide_eq_true_eq]
  have hpair : disjointRegions (((List.range 16).map f).filter fun r => r.kind != .absent) = true ↔
      ∀ r, r < 16 → ∀ q, q < r → (f q).kind ≠ .absent → (f r).kind ≠ .absent →
        (f q).base + (f q).size ≤ (f r).base ∨ (f r).base + (f r).size ≤ (f q).base := by
    rw [disjointRegions_iff, List.pairwise_filter, List.pairwise_map, pairwise_range_iff]
    simp only [bne_iff_ne, overlaps_eq_false_iff]
  have hall (p : RegionEntry → Bool) : (((List.range 16).map f).filter fun r => r.kind != .absent).all p = true ↔
      ∀ r, r < 16 → (f r).kind ≠ .absent → p (f r) = true := by
    simp [or_iff_not_imp_left]
  rw [soundMap]
  rw [Bool.and_eq_true, Bool.and_eq_true, Bool.and_eq_true, hpair, hall, hall, List.all_eq_true]
  simp only [beq_iff_eq, decide_eq_true_eq]
  constructor
  · rintro ⟨⟨⟨hk, hs⟩, he⟩, hd⟩
    exact ⟨fun k h => (hone k h).1 (hk k h), fun r hr hne => ⟨hs r hr hne, he r hr hne, fun q hq hqne => hd r hr q hq hqne hne⟩⟩
  · rintro ⟨hk, hr⟩
    exact ⟨⟨⟨fun k h => (hone k h).2 (hk k h), fun r h hne => (hr r h hne).1⟩, fun r h hne => (hr r h hne).2.1⟩,
      fun r h q hq hqne hne => (hr r h hne).2.2 q hq hqne⟩

/-- The Size that R161 asks, by the code of the entry's Kind. -/
theorem sizeSound_iff (e : RegionEntry) : e.sizeSound = true ↔
    (1 ≤ e.kind.code → e.kind.code ≤ 3 → e.size = 1) ∧ (e.kind.code = 4 → ∃ p, 1 ≤ p ∧ p ≤ 9 ∧ e.size = 2 ^ p)
    ∧ (e.kind.code = 5 ∨ e.kind.code = 6 → 16 ≤ e.size ∧ e.size ≤ 256) ∧ (e.kind.code = 7 → 1 ≤ e.size) := by
  have hpow : e.size ∈ [2, 4, 8, 16, 32, 64, 128, 256, 512] ↔ ∃ p, 1 ≤ p ∧ p ≤ 9 ∧ e.size = 2 ^ p := by
    constructor
    · intro h
      obtain ⟨p, hp, he⟩ := List.mem_map.1 (show e.size ∈ (List.range 9).map (fun p => 2 ^ (p + 1)) from h)
      exact ⟨p + 1, by omega, by have := List.mem_range.1 hp; omega, he.symm⟩
    · rintro ⟨p, h1, h9, he⟩
      rw [he]
      interval_cases p <;> simp
  unfold RegionEntry.sizeSound
  cases hk : e.kind with
  | journal => simpa [RegionKind.code] using hpow
  | _ => simp [RegionKind.code]

end

end Sys2Proof.Machine

/-! ### What the load judges and loads (R187; 12.8) -/

namespace Sys2Proof.Machine

section
variable {rom : List Byte}

/-! #### The first cause -/

theorem unknownKind_iff (rom : List Byte) :
    (List.range 16).any (fun r => (regionKindOf (romByte rom (16 * r)).toNat).isNone) = true ↔
      ∃ r, r < 16 ∧ 7 < (romByte rom (16 * r)).toNat := by
  simp only [List.any_eq_true, List.mem_range, regionKindOf_isNone]

theorem romSize (rom : List Byte) (r : Nat) :
    (romRegion rom r).size = romHalf rom (16 * r + 12) + 65536 * romHalf rom (16 * r + 14) := romWord_toNat ..

theorem romBase (rom : List Byte) (r : Nat) :
    (romRegion rom r).base = romHalf rom (16 * r + 8) + 65536 * romHalf rom (16 * r + 10) := romWord_toNat ..

/-- The mandatory Kinds, by their codes (R161). -/
theorem mandatory_iff {p : Nat → Prop} :
    (∀ k ∈ [RegionKind.lane, .command, .status, .journal, .bankA, .bankB], p k.code) ↔ ∀ k, 1 ≤ k → k ≤ 6 → p k := by
  simp only [List.forall_mem_cons, RegionKind.code]
  constructor
  · rintro ⟨h1, h2, h3, h4, h5, h6, -⟩ k hlow hhigh
    interval_cases k <;> assumption
  · intro h
    exact ⟨h 1 (by omega) (by omega), h 2 (by omega) (by omega), h 3 (by omega) (by omega), h 4 (by omega) (by omega),
      h 5 (by omega) (by omega), h 6 (by omega) (by omega), by simp⟩

/-- The map of an image without an unknown Kind is sound as R161 says, by the bytes of the image. -/
theorem romMap_sound (hkinds : ∀ r, r < 16 → (romByte rom (16 * r)).toNat ≤ 7) (sized : Nat → Prop)
    (hsized : ∀ r, r < 16 → ((romRegion rom r).sizeSound = true ↔ sized r)) :
    soundMap ((List.range 16).map (romRegion rom)) = true ↔
      (∀ k, 1 ≤ k → k ≤ 6 → ∃ r, r < 16 ∧ (romByte rom (16 * r)).toNat = k
        ∧ ∀ q, q < 16 → (romByte rom (16 * q)).toNat = k → q = r)
      ∧ ∀ r, r < 16 → (romByte rom (16 * r)).toNat ≠ 0 → sized r
        ∧ (romRegion rom r).base + (romRegion rom r).size ≤ 4096
        ∧ ∀ q, q < r → (romByte rom (16 * q)).toNat ≠ 0 →
          (romRegion rom q).base + (romRegion rom q).size ≤ (romRegion rom r).base
          ∨ (romRegion rom r).base + (romRegion rom r).size ≤ (romRegion rom q).base := by
  have hkind (r : Nat) (hr : r < 16) (k : RegionKind) := romRegion_kind (hkinds r hr) k
  have hused (r : Nat) (hr : r < 16) : (romRegion rom r).kind ≠ .absent ↔ (romByte rom (16 * r)).toNat ≠ 0 :=
    not_congr (hkind r hr .absent)
  rw [soundMap_iff, ← mandatory_iff]
  refine and_congr (forall₂_congr fun k _ => exists_congr fun r => and_congr_right fun hr => ?_)
    (forall₂_congr fun r hr => ?_)
  · rw [hkind r hr]
    exact and_congr_right fun _ => forall₂_congr fun q hq => by rw [hkind q hq]
  · rw [hused r hr, hsized r hr]
    exact imp_congr_right fun _ => and_congr_right fun _ => and_congr_right fun _ => forall₂_congr fun q hq => by
      rw [hused q (hq.trans hr)]

theorem keyUseOf_current (v : Nat) : (keyUseOf v == .current) = decide (v = 1) := by
  unfold keyUseOf
  split_ifs <;> simp [*]

theorem romKeys_iff : ((List.range 4).map (romKey rom)).countP (fun k => k.use == .current) = 1 ↔
    ∃ k, k < 4 ∧ (romByte rom (256 + 8 * k + 1)).toNat = 1
      ∧ ∀ j, j < 4 → (romByte rom (256 + 8 * j + 1)).toNat = 1 → j = k := by
  have hsame : (fun k : KeySlot => k.use == .current) ∘ romKey rom =
      fun k => decide ((romByte rom (256 + 8 * k + 1)).toNat = 1) := by
    funext k
    exact keyUseOf_current _
  rw [List.countP_map, hsame, countP_range_eq_one]
  simp only [decide_eq_true_eq]

theorem loadFaultOf_check (h : crc32 ((List.range 1020).map (romByte rom)) ≠ romWord rom 1020) :
    loadFaultOf rom = some .check := by
  rw [loadFaultOf]
  exact if_pos (by simpa using h)

theorem loadFaultOf_mapped (h : crc32 ((List.range 1020).map (romByte rom)) = romWord rom 1020) : loadFaultOf rom =
    if (List.range 16).any (fun r => (regionKindOf (romByte rom (16 * r)).toNat).isNone) = true then some .kind
    else if ¬soundMap ((List.range 16).map (romRegion rom)) = true then some .region
    else if ¬((List.range 4).map (romKey rom)).countP (fun k => k.use == .current) = 1 then some .key else none := by
  rw [loadFaultOf]
  simp only [h, bne_self_eq_false, Bool.false_eq_true, if_false, Bool.not_eq_true', Bool.not_eq_true, bne_iff_ne, ne_eq]

/-! #### The values loaded -/

/-- The items of an image that have a range, each with its ends and its value as the image has it (12.8). -/
def loadItems (rom : List Byte) : List (Nat × Nat × Nat) :=
  [ (0, 15, (romByte rom 288).toNat), (1, 8, (romByte rom 290).toNat), (1, 4095, romHalf rom 292)
  , (0, 15, (romByte rom 294).toNat), (2, 60, romHalf rom 300), (500, 10000, romHalf rom 302), (5, 60, romHalf rom 304)
  , (0, 3, romHalf rom 306), (3, 20, romHalf rom 308), (2, 30, romHalf rom 310), (1, 20, romHalf rom 312)
  , (0, 300, romHalf rom 314), (5, 240, romHalf rom 316), (30, 600, romHalf rom 320), (0, 120, romHalf rom 322)
  , (0, 3, romHalf rom 324), (0, 65535, romHalf rom 326), (0, 2000, romHalf rom 328), (1, 100, romHalf rom 330)
  , (1, 65535, romHalf rom 332), (0, clamp 1 65535 (romHalf rom 332), romHalf rom 334), (0, 1439, romHalf rom 336) ]

theorem clamp_ne_iff {low high v : Nat} (h : low ≤ high) : clamp low high v ≠ v ↔ v < low ∨ high < v := by
  unfold clamp
  omega

theorem loadItems_ranges : ∀ x ∈ loadItems rom, x.1 ≤ x.2.1 := by
  simp [loadItems]

/-- The configuration holds the items as clamped. -/
theorem loadImage_values (rom : List Byte) :
    let cfg : Configuration := (loadImage rom).1
    [cfg.unitId.val, cfg.slotLength, cfg.station, cfg.zone, cfg.decisionHold, cfg.writeTimeout, cfg.recoveryWindow,
       cfg.maximumReissues, cfg.passageTimeout, cfg.alarmHold, cfg.grantHoldLimit, cfg.repeatWindow, cfg.sightingsWindow,
       cfg.maximumJourney, cfg.transferWindow, cfg.maximumTransfers, cfg.transferDiscount, cfg.overdraftLimit,
       cfg.roundingUnit, cfg.fareCeiling, cfg.penaltyFare, cfg.serviceDayStart]
      = (loadItems rom).map (fun x => clamp x.1 x.2.1 x.2.2) := by
  intro cfg
  have hlt : clamp 0 15 (romByte rom 288).toNat < 16 := by unfold clamp; omega
  have hunit : cfg.unitId.val = clamp 0 15 (romByte rom 288).toNat := Nat.mod_eq_of_lt hlt
  rw [hunit]
  rfl

theorem present_iff (rom : List Byte) (n : Lane) : (loadImage rom).1.present.get n = true ↔
    (romByte rom (296 + n.val)).toNat % 2 = 1 ∨ (n = 0 ∧ ∀ m : Lane, ¬(romByte rom (296 + m.val)).toNat % 2 = 1) := by
  have hall : (∀ m : Lane, ¬(romByte rom (296 + m.val)).toNat % 2 = 1) ↔
      (!((romLane rom 0).1 || (romLane rom 1).1 || (romLane rom 2).1 || (romLane rom 3).1)) = true := by
    simp [Fin.forall_fin_succ, romLane, and_assoc]
  rw [hall]
  match n with
  | 0 => simp [loadImage, romLane, Quad.get]
  | 1 => simp [loadImage, romLane, Quad.get]
  | 2 => simp [loadImage, romLane, Quad.get]
  | 3 => simp [loadImage, romLane, Quad.get]

theorem directions_eq (rom : List Byte) (n : Lane) : (loadImage rom).1.directions.get n =
    if (romByte rom (296 + n.val)).toNat / 2 % 4 = 2 then .exit else .entry := by
  match n with
  | 0 => rfl
  | 1 => rfl
  | 2 => rfl
  | 3 => rfl

theorem admitted_get (rom : List Byte) (r : Nat) (n : Lane) :
    (romRegion rom r).admitted.get n = (romByte rom (16 * r + 4)).toNat.testBit n.val := by
  match n with
  | 0 => rfl
  | 1 => rfl
  | 2 => rfl
  | 3 => rfl

theorem itemsTaken_iff (rom : List Byte) : (loadItems rom).any (fun x => clamp x.1 x.2.1 x.2.2 != x.2.2) = true ↔
    ∃ x ∈ loadItems rom, x.2.2 < x.1 ∨ x.2.1 < x.2.2 := by
  simp only [List.any_eq_true, bne_iff_ne]
  exact exists_congr fun x => and_congr_right fun hx => clamp_ne_iff (loadItems_ranges x hx)

theorem nonePresent_iff (rom : List Byte) :
    (!((romLane rom 0).1 || (romLane rom 1).1 || (romLane rom 2).1 || (romLane rom 3).1)) = true ↔
      ∀ n : Lane, ¬(romByte rom (296 + n.val)).toNat % 2 = 1 := by
  simp [Fin.forall_fin_succ, romLane, and_assoc]

theorem directionsTaken_iff (rom : List Byte) :
    [romLane rom 0, romLane rom 1, romLane rom 2, romLane rom 3].any (·.2.2) = true ↔
      ∃ n : Lane, (romByte rom (296 + n.val)).toNat / 2 % 4 ≠ 1 ∧ (romByte rom (296 + n.val)).toNat / 2 % 4 ≠ 2 := by
  simp [Fin.exists_fin_succ, romLane]

theorem rightsTaken_iff (rom : List Byte) :
    (List.range 16).any (fun r => [1, 2, 3].any (fun i => decide (2 < (romByte rom (16 * r + i)).toNat))) = true ↔
      ∃ r i, r < 16 ∧ 1 ≤ i ∧ i ≤ 3 ∧ 2 < (romByte rom (16 * r + i)).toNat := by
  have hrange (i : Nat) : i ∈ [1, 2, 3] ↔ 1 ≤ i ∧ i ≤ 3 := by
    simp only [List.mem_cons, List.not_mem_nil, or_false]
    omega
  simp only [List.any_eq_true, List.mem_range, decide_eq_true_eq, hrange]
  constructor
  · rintro ⟨r, hr, i, ⟨h1, h3⟩, h⟩
    exact ⟨r, i, hr, h1, h3, h⟩
  · rintro ⟨r, i, hr, h1, h3, h⟩
    exact ⟨r, hr, i, ⟨h1, h3⟩, h⟩

theorem usesTaken_iff (rom : List Byte) :
    (List.range 4).any (fun k => !([1, 2, 3].contains (romByte rom (256 + 8 * k + 1)).toNat)) = true ↔
      ∃ k, k < 4 ∧ ((romByte rom (256 + 8 * k + 1)).toNat = 0 ∨ 3 < (romByte rom (256 + 8 * k + 1)).toNat) := by
  have hother (v : Nat) : (!([1, 2, 3].contains v)) = true ↔ v = 0 ∨ 3 < v := by
    simp
    omega
  simp only [List.any_eq_true, List.mem_range, hother]

theorem flags_or_eq_true (absent rights uses directions items : Bool) :
    (absent || rights || uses || directions || items) = true ↔
      items = true ∨ absent = true ∨ directions = true ∨ rights = true ∨ uses = true := by
  simp only [Bool.or_eq_true]
  tauto

/-- The CLAMPED flag (R187): an item outside its range, no lane marked present, a direction, right or Use substituted. -/
theorem clamped_iff (rom : List Byte) : (loadImage rom).2 = true ↔
    (∃ x ∈ loadItems rom, x.2.2 < x.1 ∨ x.2.1 < x.2.2) ∨ (∀ n : Lane, ¬(romByte rom (296 + n.val)).toNat % 2 = 1)
    ∨ (∃ n : Lane, (romByte rom (296 + n.val)).toNat / 2 % 4 ≠ 1 ∧ (romByte rom (296 + n.val)).toNat / 2 % 4 ≠ 2)
    ∨ (∃ r i, r < 16 ∧ 1 ≤ i ∧ i ≤ 3 ∧ 2 < (romByte rom (16 * r + i)).toNat)
    ∨ (∃ k, k < 4 ∧ ((romByte rom (256 + 8 * k + 1)).toNat = 0 ∨ 3 < (romByte rom (256 + 8 * k + 1)).toNat)) := by
  have hitems : (loadItems rom).any (fun x => clamp x.1 x.2.1 x.2.2 != x.2.2) =
      ((loadItems rom).map fun x => clamped x.1 x.2.1 x.2.2).any (·.2) := List.any_map.symm
  have hflag := flags_or_eq_true
    (!((romLane rom 0).1 || (romLane rom 1).1 || (romLane rom 2).1 || (romLane rom 3).1))
    ((List.range 16).any (fun r => [1, 2, 3].any (fun i => decide (2 < (romByte rom (16 * r + i)).toNat))))
    ((List.range 4).any (fun k => !([1, 2, 3].contains (romByte rom (256 + 8 * k + 1)).toNat)))
    ([romLane rom 0, romLane rom 1, romLane rom 2, romLane rom 3].any (·.2.2))
    (((loadItems rom).map fun x => clamped x.1 x.2.1 x.2.2).any (·.2))
  rw [← hitems, itemsTaken_iff, nonePresent_iff, directionsTaken_iff, rightsTaken_iff, usesTaken_iff, hitems] at hflag
  exact hflag

/-- Settles O22: the causes by `loadFaultOf_mapped` and `romMap_sound`, the values by `loadImage_values` and its company. -/
theorem loadIsJudgedAndClamped : Obligations.LoadIsJudgedAndClamped := by
  intro rom byte half word mismatch kind base size unknown sized sound use keyed cfg right direction marked held items
  have hword (i : Nat) : (romWord rom i).toNat = word i := romWord_toNat rom i
  have hcrc : ¬mismatch → crc32 ((List.range 1020).map (romByte rom)) = romWord rom 1020 := fun h =>
    BitVec.eq_of_toNat_eq (by rw [hword]; exact not_not.1 h)
  have hkinds (h : ¬unknown) (r : Nat) (hr : r < 16) : (romByte rom (16 * r)).toNat ≤ 7 :=
    Nat.le_of_not_lt fun hlt => h ⟨r, hr, hlt⟩
  have hunknown := unknownKind_iff rom
  have hsound (h : ¬unknown) : soundMap ((List.range 16).map (romRegion rom)) = true ↔ sound := by
    refine (romMap_sound (hkinds h) sized fun r hr => ?_).trans ?_
    · have hcode : (romRegion rom r).kind.code = kind r := ((romRegion_kind (hkinds h r hr) _).1 rfl).symm
      rw [sizeSound_iff, hcode, romSize]
      exact Iff.rfl
    · simp only [romSize, romBase]
      exact Iff.rfl
  have hkeyed : ((List.range 4).map (romKey rom)).countP (fun k => k.use == .current) = 1 ↔ keyed := romKeys_iff
  refine ⟨fun h => loadFaultOf_check fun he => h (by rw [← hword]; exact congrArg BitVec.toNat he), fun hm hu => ?_,
    fun hm hu hs => ?_, fun hm hu hs hk => ?_, fun hm hu hs hk => ?_, loadImage_values rom, ?_, present_iff rom,
    directions_eq rom, fun i => ?_, rfl, rfl, fun r hr hk => ?_, fun k hk => ?_, clamped_iff rom⟩
  · rw [loadFaultOf_mapped (hcrc hm), if_pos (hunknown.2 hu)]
  · rw [loadFaultOf_mapped (hcrc hm), if_neg (mt hunknown.1 hu), if_pos (mt (hsound hu).1 hs)]
  · rw [loadFaultOf_mapped (hcrc hm), if_neg (mt hunknown.1 hu), if_neg (not_not.2 ((hsound hu).2 hs)),
      if_pos (mt hkeyed.1 hk)]
  · rw [loadFaultOf_mapped (hcrc hm), if_neg (mt hunknown.1 hu), if_neg (not_not.2 ((hsound hu).2 hs)),
      if_neg (not_not.2 (hkeyed.2 hk))]
  · show (romByte rom 289 == 1) = true ↔ (romByte rom 289).toNat = 1
    rw [beq_iff_eq, ← BitVec.toNat_inj]
    rfl
  · show (BitVec.ofNat 18 (romWord rom 340).toNat).getLsbD i.val = _
    rw [BitVec.getLsbD_ofNat, hword]
    simp [i.isLt]
  · refine ⟨romRegion rom r, by simp [cfg, loadImage, hr], ((romRegion_kind hk _).1 rfl).symm, romBase rom r, romSize rom r,
      rfl, rfl, rfl, admitted_get rom r⟩
  · exact ⟨romKey rom k, by simp [cfg, loadImage, hk], rfl, hword _, rfl⟩

end

end Sys2Proof.Machine

/-! ### The Region Map's verdicts, by area (R161 to R165, R188) -/

namespace Sys2Proof.Machine

section
variable {s : State} {a o : Nat} {source : Source} {x : Access} {r : RegionEntry} {area : Area} {n m : Lane} {e : BitVec 4}
  {d : Word} {mode : Mode} {f : PathFault} {k : SlotId}

/-! #### The verdict on a word of a located area -/

/-- A read in an area that the ceiling does not close is admitted within the configured right (R163). -/
theorem judge_read (hl : s.locate a = some (r, area)) (hc : ceiling area source ≠ .denied)
    (ht : s.stateTest area source .read = none) :
    s.judge a source .read = if configuredRight r source = .denied then .error .rights else .ok area := by
  rw [judge_located hl, ht]
  by_cases hr : configuredRight r source = .denied <;> simp [accessDirection, Right.allows, hc, hr]

/-- A word that one of its two rights does not allow is refused RIGHTS (R163). -/
theorem judge_closed (hl : s.locate a = some (r, area))
    (hc : (ceiling area source).allows (accessDirection x) = false
      ∨ (configuredRight r source).allows (accessDirection x) = false) : s.judge a source x = .error .rights := by
  rw [judge_located hl, if_neg]
  rintro ⟨h1, h2⟩
  rcases hc with h | h
  · exact absurd h1 (by simp [h])
  · exact absurd h2 (by simp [h])

/-- A write that both of its rights allow is judged by the state test (R164). -/
theorem judge_write_ok (hl : s.locate a = some (r, area)) (hc : ceiling area source = .readWrite)
    (hr : configuredRight r source = .readWrite) (ht : s.stateTest area source (.write e d) = none) :
    s.judge a source (.write e d) = .ok area :=
  judge_ok_iff.2 ⟨r, hl, by rw [hc]; rfl, by rw [hr]; rfl, ht⟩

theorem judge_write_error (hl : s.locate a = some (r, area)) (hc : ceiling area source = .readWrite)
    (hr : configuredRight r source = .readWrite) (ht : s.stateTest area source (.write e d) = some f) :
    s.judge a source (.write e d) = .error f := by
  rw [judge_located hl, if_pos ⟨by rw [hc]; rfl, by rw [hr]; rfl⟩, ht]

theorem allows_write {p : Right} : p.allows .write = false ↔ p ≠ .readWrite := by
  cases p <;> simp [Right.allows]

theorem allows_read {p : Right} : p.allows .read = false ↔ p = .denied := by
  cases p <;> simp [Right.allows]

/-! #### Where a word lies (R162) -/

theorem holds_iff : r.holds a = true ↔ r.Covers a := by
  simp [RegionEntry.holds, RegionEntry.Covers, and_assoc]

theorem State.MapsTo.locate (h : s.MapsTo a r o) : s.locate a = some (r, areaOf r o) := by
  obtain ⟨q, hq⟩ : ∃ q, s.cfg.regions.find? (fun q => q.holds a) = some q :=
    Option.isSome_iff_exists.1 (List.find?_isSome.2 ⟨r, h.region, holds_iff.2 h.covers⟩)
  obtain rfl : q = r := h.alone q (List.mem_of_find?_eq_some hq) (holds_iff.1 (by simpa using List.find?_some hq))
  have ho : a - 4096 * q.base = o := by rw [h.offset]; omega
  unfold State.locate
  rw [if_neg h.mapped, hq]
  simp only [ho]

theorem locate_outside (hu : s.unit ≠ .faulted) (h : ∀ r ∈ s.cfg.regions, ¬r.Covers a) : s.locate a = none := by
  have hnone : s.cfg.regions.find? (fun q => q.holds a) = none :=
    List.find?_eq_none.2 fun q hq => mt holds_iff.1 (h q hq)
  unfold State.locate
  rw [if_neg hu, hnone]

theorem areaOf_lane (hk : r.kind = .lane) (hm : m.val = o / 1024) : areaOf r o = laneArea m (o % 1024) := by
  have : Fin.ofNat 4 (o / 1024) = m := Fin.ext (by rw [Fin.ofNat, ← hm]; exact Nat.mod_eq_of_lt m.isLt)
  rw [areaOf, hk, ← this]

theorem laneArea_landing {k : Fin 16} (h : o / 4 = k.val) : laneArea m o = .landing m k := by
  have : Fin.ofNat 16 (o / 4) = k := Fin.ext (by rw [Fin.ofNat, h]; exact Nat.mod_eq_of_lt k.isLt)
  rw [laneArea, if_pos (by omega), this]

theorem laneArea_tap (h : o / 4 = 16) : laneArea m o = .tap m := by
  rw [laneArea, if_neg (by omega), if_pos (by omega)]

theorem laneArea_writeBack (h : 32 ≤ o / 4) (h' : o / 4 < 48) : laneArea m o = .writeBack m := by
  rw [laneArea, if_neg (by omega), if_neg (by omega), if_pos (by omega)]

theorem laneArea_result (h : o / 4 = 48) : laneArea m o = .result m := by
  rw [laneArea, if_neg (by omega), if_neg (by omega), if_neg (by omega), if_pos (by omega)]

theorem laneArea_other (h : (16 < o / 4 ∧ o / 4 < 32) ∨ 48 < o / 4) : laneArea m o = .laneOther := by
  rw [laneArea, if_neg (by omega), if_neg (by omega), if_neg (by omega), if_neg (by omega)]

theorem areaOf_commandWord {i : Fin 8} (hk : r.kind = .command) (ho : o < 256) (hs : k.val = o / 32)
    (hi : i.val = o % 32 / 4) : areaOf r o = .commandWord k i := by
  have h1 : Fin.ofNat 8 (o / 32) = k := Fin.ext (by rw [Fin.ofNat, ← hs]; exact Nat.mod_eq_of_lt k.isLt)
  have h2 : Fin.ofNat 8 (o % 32 / 4) = i := Fin.ext (by rw [Fin.ofNat, ← hi]; exact Nat.mod_eq_of_lt i.isLt)
  rw [areaOf, hk, ← h1, ← h2]
  exact if_pos ho

theorem areaOf_commandUnused (hk : r.kind = .command) (ho : 256 ≤ o) : areaOf r o = .commandUnused := by
  simp [areaOf, hk, ho]

/-- What the part alone writes lies where no port's ceiling allows a write (R163). -/
theorem partOwned_ceiling (h : r.PartOwned o) (source : Source) :
    (ceiling (areaOf r o) source).allows .write = false := by
  have hlane (hk : r.kind = .lane) (hread : ∀ m, (ceiling (laneArea m (o % 1024)) source).allows .write = false) :
      (ceiling (areaOf r o) source).allows .write = false := by
    rw [areaOf, hk]
    exact hread _
  rcases h with ⟨hk, ho | ho⟩ | hk | hk | ⟨hk, ho, hi⟩
  · refine hlane hk fun m => ?_
    rw [laneArea_other (.inr (by omega))]
    cases source <;> rfl
  · refine hlane hk fun m => ?_
    rw [laneArea_writeBack (by omega) (by omega), allows_write]
    cases source with
    | processor => simp [ceiling]
    | reader n => by_cases h : m = n <;> simp [ceiling, h]
  · rw [areaOf, hk]
    cases source <;> rfl
  · rw [areaOf, hk]
    cases source <;> rfl
  · rw [areaOf_commandWord (k := ⟨o / 32, by omega⟩) (i := 6) hk ho rfl hi.symm]
    cases source <;> rfl

theorem judge_partOwned (h : s.MapsTo a r o) (hp : r.PartOwned o) (source : Source) :
    s.judge a source (.write e d) = .error .rights :=
  judge_closed h.locate (.inl (partOwned_ceiling hp source))

/-! #### The recovery map (R188) -/

theorem locate_recovery (hu : s.unit = .faulted) (ha : a < 16777216)
    (hgo : ∀ (k : SlotId) (base : Nat), s.startUp.usableSlots = some base →
      ¬(base + 32 * k.val + 28 ≤ a ∧ a < base + 32 * k.val + 32)) :
    s.locate a = some (recoveryRegion, .recovery) := by
  unfold State.locate
  rw [if_pos hu, if_pos (show a < Config.memoryEnd from ha)]
  cases hb : s.startUp.usableSlots with
  | none => rfl
  | some base =>
    have h := hgo ⟨(a - base) / 32 % 8, by omega⟩ base hb
    dsimp only at h ⊢
    rw [if_neg (by omega)]

theorem locate_usableGo {base : Nat} (hu : s.unit = .faulted) (ha : a < 16777216) (hb : s.startUp.usableSlots = some base)
    (h : base + 32 * k.val + 28 ≤ a) (h' : a < base + 32 * k.val + 32) :
    s.locate a = some (recoveryRegion, .commandWord k 7) := by
  have hk : Fin.ofNat 8 ((a - base) / 32) = k := Fin.ext (by
    have := k.isLt
    rw [Fin.ofNat]
    show (a - base) / 32 % 8 = k.val
    omega)
  have := k.isLt
  unfold State.locate
  rw [if_pos hu, if_pos (show a < Config.memoryEnd from ha), hb]
  dsimp only
  rw [if_pos (by omega), hk]

theorem locate_beyond (hu : s.unit = .faulted) (ha : 16777216 ≤ a) : s.locate a = none := by
  unfold State.locate
  rw [if_pos hu, if_neg (by unfold Config.memoryEnd; omega)]

theorem judge_outside (h : s.locate a = none) : s.judge a source x = .error .outside := by
  unfold State.judge
  rw [h]

/-! #### The state tests (R164) -/

theorem goSequence_eq (w : Word) : goSequence w = w.toNat % 65536 := by
  simp [goSequence, bits]

/-- A go-write to a busy slot is refused by its data alone (R175). -/
theorem busyRefuses_iff (last : Nat) (e : BitVec 4) (d : Word) : busyRefuses last e d = true ↔
    (e.getLsbD 0 = true ∧ e.getLsbD 1 = true ∧ d.toNat % 65536 ≠ 0 ∧ d.toNat % 65536 ≠ last)
    ∨ (e.getLsbD 0 ≠ e.getLsbD 1) := by
  unfold busyRefuses
  cases e.getLsbD 0 <;> cases e.getLsbD 1 <;> simp [goSequence_eq]

/-- A bank that is EMPTY, STAGING, or VALID without pins takes the processor's writes (R45). -/
theorem writeLocked_unlocked {b : Bank} (h : b.state = some .empty ∨ b.state = some .staging ∨ (b.state = some .valid ∧ b.pins = 0)) :
    b.writeLocked = false := by
  rcases h with h | h | ⟨h, hp⟩
  · simp [Bank.writeLocked, h]
  · simp [Bank.writeLocked, h]
  · simp [Bank.writeLocked, h, hp]

theorem writeLocked_locked {b : Bank} (h : b.state = some .validating ∨ b.state = some .active ∨ b.state = some .damaged
    ∨ (b.state = some .valid ∧ 0 < b.pins)) : b.writeLocked = true := by
  rcases h with h | h | h | ⟨h, hp⟩
  · simp [Bank.writeLocked, h]
  · simp [Bank.writeLocked, h]
  · simp [Bank.writeLocked, h]
  · simp [Bank.writeLocked, h]
    omega

end

end Sys2Proof.Machine

/-! ### Words that reach the Processor Port (R45, R159, R162 to R165, R171, R188) -/

namespace Sys2Proof.Machine

section
variable {s v : State} {a o : Nat} {x : Access} {r : RegionEntry} {area : Area} {n m : Lane} {e : BitVec 4}
  {d : Word} {mode : Mode} {f : PathFault} {k : SlotId} {i : Fin 8} {w : ProcessorWord}

/-! #### A write without byte enables (R171) -/

/-- The machine in which the free Processor Port holds the word `w`. -/
def State.holding (s : State) (w : ProcessorWord) : State := { s with processor := { s.processor with words := [w] } }

/-- An admitted write without byte enables is made and answered at once, `v` being what its owner makes of it (R164, R171). -/
theorem presentWord_made (h : s.ProcessorTurn) (hw : w = ⟨a, mode, .write 0 d⟩)
    (hj : s.judge a (.processor mode) (.write 0 d) = .ok area) (hv : (s.holding w).processorWritten area w 0 = v)
    (hp : v.processor = (s.holding w).processor) :
    ({ v with processor := s.processor.answered (.done none) }).Mirrored (s.presentWord w) := by
  obtain ⟨htaken, hheld⟩ := h.sound.processor h.turn
  have hj' : (s.holding w).judge w.address (.processor w.mode) w.access = .ok area := by rw [hw]; exact hj
  have hwrite : (s.holding w).processorWrite w 0 d = (true, v) := by
    unfold State.processorWrite
    rw [hj', ← hv]
    rfl
  have hperform : (s.holding w).performProcessor w = v.answer (.done none) :=
    performProcessor_write (b := true) (by rw [hw]) hwrite (by rw [hp]; exact hheld)
  have htake : (s.holding w).takeProcessor w = v.answer (.done none) := by
    unfold State.takeProcessor
    rw [hj', ← hperform, hw]
    rfl
  have hpresent : s.presentWord w = (s.holding w).resumeProcessor := by
    unfold State.presentWord
    rw [h.ready, h.turn]
    rfl
  have hpump : (s.holding w).resumeProcessor = (s.holding w).note (v.answer (.done none)) := by
    have hwait : (s.holding w).mustWait w = false := by simp [State.mustWait, show (s.holding w).unit = .ready from h.ready]
    show (s.holding w).pumpProcessor 1 = _
    unfold State.pumpProcessor
    have hwords : (s.holding w).processor.words = [w] := rfl
    have ht : (s.holding w).processor.taken = false := htaken
    have hh : (s.holding w).processor.held = none := hheld
    simp only [hwords, ht, hh, hwait, htake, Option.isSome_none, Bool.or_self, Bool.false_eq_true, if_false]
    rfl
  have hanswer : v.answer (.done none) = { v with processor := s.processor.answered (.done none) } := by
    have hs : s.processor = { s.processor with words := [], taken := false, held := none } := by
      rw [← h.turn, ← htaken, ← hheld]
    rw [State.answer, hp, hs]
    rfl
  rw [hpresent, hpump, ← hanswer]
  exact note_mirrored _ _

/-- A go word that is no go-write takes no command (R175). -/
theorem goWordWritten_none (hc : s.memory.health w.address = .clean)
    (h : goSequence (s.memory.word w.address) = 0 ∨ goSequence (s.memory.word w.address) = (s.slot k).lastTaken
      ∨ (s.slot k).busy = true) : s.goWordWritten k w 0 = s := by
  have hwritten : s.writtenWord w.address 0 = (s.memory.word w.address, s) := by
    simp [State.writtenWord, State.standing, hc]
  rw [State.goWordWritten, hwritten]
  exact if_pos h

/-! #### The map, by area -/

theorem processor_lane (h : s.MapsTo a r o) (hk : r.kind = .lane) (hm : m.val = o / 1024) :
    s.locate a = some (r, laneArea m (o % 1024)) := by
  rw [h.locate, areaOf_lane hk hm]

/-- A word of a lane area is the processor's to read alone (R163). -/
theorem ceiling_lane (m : Lane) (o : Nat) (mode : Mode) : ceiling (laneArea m o) (.processor mode) = .readOnly := by
  unfold laneArea
  split_ifs <;> rfl

theorem judge_lane_read (h : s.MapsTo a r o) (hk : r.kind = .lane) (hm : m.val = o / 1024)
    (harea : laneArea m (o % 1024) = area) :
    s.judge a (.processor mode) .read =
      if configuredRight r (.processor mode) = .denied then .error .rights else .ok area := by
  have hl := processor_lane h hk hm
  rw [harea] at hl
  refine judge_read hl (by rw [← harea, ceiling_lane]; decide) ?_
  rw [← harea]
  unfold laneArea
  split_ifs <;> rfl

theorem judge_slot_write (hl : s.locate a = some (r, .commandWord k i)) (hi : i ≠ 6)
    (hr : configuredRight r (.processor mode) = .readWrite) (e : BitVec 4) (d : Word) :
    s.judge a (.processor mode) (.write e d) =
      if i = 7 ∧ (s.slot k).busy = true ∧ busyRefuses (s.slot k).lastTaken e d = true then .error .slotBusy
      else .ok (.commandWord k i) := by
  have hc : ceiling (.commandWord k i) (.processor mode) = .readWrite := if_neg hi
  split_ifs with h
  · exact judge_write_error hl hc hr (if_pos h)
  · exact judge_write_ok hl hc hr (if_neg h)

/-- Settles O26: the port by whether the map admits the word and it needs an operation; the map area by area. -/
theorem processorWordIsJudged : Obligations.ProcessorWordIsJudged := by
  refine ⟨fun s address mode h => ?port, fun s a r o mode h => ?map, fun s a source x hu hr =>
    judge_outside (locate_outside hu hr), fun s a e d hu => ?recovery⟩
  case port =>
    intro a
    have hread : exec (.processorWordRead address mode) s = .next (s.settle (s.presentWord ⟨a, mode, .read⟩)) := rfl
    have hwrite (e : BitVec 4) (d : Word) : exec (.processorWordWrite address mode e d) s =
        .next (s.settle (s.presentWord ⟨a, mode, .write e d⟩)) := rfl
    have hrefused (e : BitVec 4) (d : Word) (f : PathFault)
        (hj : s.judge a (.processor mode) (.write e d) = .error f) :
        s.Yields (.processorWordWrite address mode e d) { s.faulted f .processor (some a) (some .write) (some mode) with
          processor := s.processor.answered (.failed none) } :=
      yields_of_mirrored (hwrite e d) (presentWord_refused (w := ⟨a, mode, .write e d⟩) h hj)
    refine ⟨fun area hj => yields_of_eq hread (presentWord_waits (w := ⟨a, mode, .read⟩) h hj rfl),
      fun f hj => yields_of_mirrored hread (presentWord_refused (w := ⟨a, mode, .read⟩) h hj), fun e d =>
      ⟨hrefused e d, fun area hj => ⟨fun he => ?_, ?_, ?_⟩, fun r o hm hp => hrefused e d _ (judge_partOwned hm hp _)⟩⟩
    · exact yields_of_eq (hwrite e d) (presentWord_waits (w := ⟨a, mode, .write e d⟩) h hj (by simpa [needsNoOperation] using he))
    · rintro rfl hgo hbank
      refine yields_of_mirrored (hwrite 0 d) (presentWord_made (v := s.holding ⟨a, mode, .write 0 d⟩) h rfl hj ?_ rfl)
      cases area with
      | commandWord k i =>
        by_cases hi : i = 7
        · subst hi
          obtain ⟨hc, hq⟩ := hgo k rfl
          exact goWordWritten_none (s := s.holding ⟨a, mode, .write 0 d⟩) hc hq
        · exact if_neg hi
      | bank x => exact absurd rfl (hbank x)
      | _ => rfl
    · rintro x rfl rfl
      have hlocked : (s.bank x).writeLocked = false := by
        obtain ⟨r, -, hceil, -, ht⟩ := judge_ok_iff.1 hj
        cases mode with
        | service => exact absurd hceil (by simp [ceiling, accessDirection, Right.allows])
        | maint => simpa [State.stateTest] using ht
      obtain ⟨c, hc, hx, hothers, hfields⟩ := bankWritten_staging (s := s.holding ⟨a, mode, .write 0 d⟩) hlocked
      have hm := presentWord_made h rfl hj hc rfl
      obtain ⟨t, ht, hmt⟩ : ∃ t, exec (.processorWordWrite address mode 0 d) s = .next t
          ∧ ({ s with processor := s.processor.answered (.done none), banks := c }).Mirrored t :=
        ⟨_, hwrite 0 d, hm.trans (settle_mirrored _ _)⟩
      have hbanks : t.banks = c := hmt.banks
      have hget (y : BankId) : t.bank y = ({ s with banks := c } : State).bank y := by
        unfold State.bank
        rw [hbanks]
      refine ⟨t, ht, ?_, (hget x).trans hx, fun y hy => (hget y).trans (hothers y hy), ?_⟩
      · rw [hbanks]
        exact hmt
      · rw [hbanks]
        exact hfields
  case map =>
    intro right judged reads closed
    have hright : configuredRight r (.processor mode) = right := by cases mode <;> rfl
    have hreads {area : Area} (hl : s.locate a = some (r, area)) (hc : ceiling area (.processor mode) ≠ .denied)
        (ht : s.stateTest area (.processor mode) .read = none) : reads area := by
      show s.judge a (.processor mode) .read = if right = .denied then .error .rights else .ok area
      rw [judge_read hl hc ht, hright]
    have hclosed {area : Area} (hl : s.locate a = some (r, area))
        (hc : ceiling area (.processor mode) ≠ .readWrite ∨ right ≠ .readWrite) : closed := fun e d =>
      judge_closed hl (by rw [hright]; exact hc.imp allows_write.2 allows_write.2)
    refine ⟨fun m hk hm => ?lane, fun hk ho => ?unused, fun k i hk ho hs hi => ?slot, fun hk => ?status, fun hk => ?journal,
      fun y hk => ?bank, fun hk => ?plain⟩
    case lane =>
      have hlane {area : Area} (harea : laneArea m (o % 1024) = area) : reads area := by
        show s.judge a (.processor mode) .read = if right = .denied then .error .rights else .ok area
        rw [judge_lane_read h hk hm harea, hright]
      exact ⟨hclosed (processor_lane h hk hm) (.inl (by rw [ceiling_lane]; decide)),
        fun k hk' => hlane (laneArea_landing hk'), fun h' => hlane (laneArea_tap h'),
        fun h1 h2 => hlane (laneArea_writeBack h1 h2), fun h' => hlane (laneArea_result h'),
        fun h' => hlane (laneArea_other h')⟩
    case unused =>
      have hl : s.locate a = some (r, .commandUnused) := by rw [h.locate, areaOf_commandUnused hk ho]
      exact ⟨hclosed hl (.inl (by simp [ceiling])), judge_closed hl (.inl rfl)⟩
    case slot =>
      intro refused
      have hl : s.locate a = some (r, .commandWord k i) := by rw [h.locate, areaOf_commandWord hk ho hs hi]
      have hrefused (e : BitVec 4) (d : Word) : refused e d ↔
          (i = 7 ∧ (s.slot k).busy = true ∧ busyRefuses (s.slot k).lastTaken e d = true) := by
        rw [busyRefuses_iff]
      refine ⟨hreads hl ?_ rfl, fun hc => hclosed hl (hc.imp_left fun h6 => ?_), fun h6 hrw e d => ⟨fun href => ?_, fun href => ?_⟩⟩
      · simp only [ceiling]
        split_ifs <;> decide
      · rw [h6]
        simp [ceiling]
      · rw [show judged (.write e d) = _ from judge_slot_write hl h6 (hright.trans hrw) e d, if_pos ((hrefused e d).1 href)]
      · rw [show judged (.write e d) = _ from judge_slot_write hl h6 (hright.trans hrw) e d,
          if_neg (mt (hrefused e d).2 href)]
    case status =>
      have hl : s.locate a = some (r, .statusArea) := by rw [h.locate, areaOf, hk]
      exact ⟨hreads hl (by simp [ceiling]) rfl, hclosed hl (.inl (by simp [ceiling]))⟩
    case journal =>
      have hl : s.locate a = some (r, .journalRegion) := by rw [h.locate, areaOf, hk]
      exact ⟨hreads hl (by simp [ceiling]) rfl, hclosed hl (.inl (by simp [ceiling]))⟩
    case bank =>
      have hl : s.locate a = some (r, .bank y) := by
        rw [h.locate, areaOf, hk]
        cases y <;> rfl
      refine ⟨hreads hl (by cases mode <;> simp [ceiling]) (by cases mode <;> rfl), fun hc => hclosed hl (hc.imp_left fun hs => ?_), ?_⟩
      · rw [hs]
        simp [ceiling]
      · rintro rfl hrw e d
        have htest : s.stateTest (.bank y) (.processor .maint) (.write e d) =
            if (s.bank y).writeLocked = true then some .bankLocked else none := rfl
        refine ⟨fun hopen => judge_write_ok hl rfl (hright.trans hrw) ?_,
          fun hlocked => judge_write_error hl rfl (hright.trans hrw) ?_⟩
        · rw [htest, writeLocked_unlocked hopen]
          rfl
        · rw [htest, writeLocked_locked hlocked]
          rfl
    case plain =>
      have hl : s.locate a = some (r, .plain r.admitted) := by rw [h.locate, areaOf, hk]
      refine ⟨hreads hl (by simp [ceiling]) rfl, fun e d => ?_⟩
      split_ifs with hrw
      · exact judge_write_ok hl rfl (hright.trans hrw) rfl
      · exact hclosed hl (.inr hrw) e d
  case recovery =>
    intro go governs
    have hgoverns {area : Area} (hl : s.locate a = some (recoveryRegion, area))
        (hc : ∀ mode, ceiling area (.processor mode) = .readWrite)
        (ht : ∀ mode, s.stateTest area (.processor mode) .read = none) : governs area := by
      refine ⟨fun mode => ?_, judge_closed hl (.inr rfl)⟩
      rw [judge_read hl (by rw [hc]; decide) (ht mode), if_neg]
      cases mode <;> simp [configuredRight, recoveryRegion]
    refine ⟨fun ha source x => judge_outside (locate_beyond hu ha), fun ha hgo => ?_, fun k ha hgo => ?_⟩
    · have hl := locate_recovery hu ha fun k base hb hin => hgo k ⟨base, hb, hin⟩
      exact ⟨hgoverns hl (fun _ => rfl) (fun _ => rfl), judge_write_ok hl rfl rfl rfl⟩
    · obtain ⟨base, hb, hlow, hhigh⟩ := hgo
      have hl := locate_usableGo hu ha hb hlow hhigh
      refine ⟨hgoverns hl (fun _ => rfl) (fun _ => rfl), fun hfree => judge_write_ok hl rfl rfl ?_⟩
      exact if_neg (by simp [hfree])

end

end Sys2Proof.Machine

/-! ### Words that reach the Reader Port (R87, R160, R162 to R165) -/

namespace Sys2Proof.Machine

section
variable {s v : State} {a o : Nat} {x : Access} {r : RegionEntry} {area : Area} {n m : Lane} {e : BitVec 4}
  {d : Word} {f : PathFault} {left : Fin 4} {i : Instr} {w : ReaderWord} {admitted : Quad Bool}

/-! #### A write without byte enables (R171) -/

/-- The machine in which the free Reader Port holds the word `w`, `left` words of its access being still to come. -/
def State.readerHolding (s : State) (left : Fin 4) (w : ReaderWord) : State :=
  { s with reader := { s.reader with left := left, words := [w] } }

/-- An admitted write without byte enables to a PLAIN region is answered at once (R171); the grant ends with the last word of
an access during which the request was dropped (R14). -/
theorem presentReader_answered (h : s.ReaderTurn n) (hr : s.unit = .ready) (hw : w = ⟨n, a, .write 0 d⟩)
    (hj : s.judge a (.reader n) (.write 0 d) = .ok (.plain admitted)) :
    ({ s with reader := s.reader.answering left (.answer n (.done none)) s.cfg.present }).Mirrored (s.presentReader left w) := by
  have htaken := h.sound.reader h.turn
  set z := s.readerHolding left w with hz
  have hj' : z.judge w.address (.reader w.lane) w.access = .ok (.plain admitted) := by rw [hw]; exact hj
  have hlane : w.lane = n := by rw [hw]
  have hwrite : z.readerWrite w 0 d = (true, z) := by
    unfold State.readerWrite
    rw [hj']
    rfl
  have hperform : z.performReader w = z.answerReader n (.done none) := by
    have haccess : w.access = .write 0 d := by rw [hw]
    unfold State.performReader
    rw [haccess]
    dsimp only
    rw [hwrite, hlane]
    rfl
  have htake : z.takeReader w = z.answerReader n (.done none) := by
    have hneeds : needsNoOperation w.access = true := by rw [hw]; rfl
    unfold State.takeReader
    simp only [hj', hneeds, if_true, hperform]
  have hpump : z.pumpReader 1 = z.note (z.answerReader n (.done none)) := by
    have hwords : z.reader.words = [w] := rfl
    have ht : z.reader.taken = false := htaken
    unfold State.pumpReader
    simp only [hwords, ht, Bool.false_eq_true, if_false, htake]
    rfl
  have hpresent : s.presentReader left w = z.resumeReader := by
    unfold State.presentReader
    rw [if_pos ⟨by rw [hlane]; exact h.owner, h.kept⟩, h.turn]
    rfl
  have hresume : z.resumeReader = (z.note (z.answerReader n (.done none))).resumeReader := by
    have hleft : (z.note (z.answerReader n (.done none))).reader.words = [] := by rw [note_reader]; rfl
    unfold State.resumeReader
    rw [hleft, show z.reader.words.length = 1 from rfl, hpump]
    rfl
  rw [hpresent, hresume]
  have hm := answerReader_ends (s := z) (u := z) (n := n) (a := .done none) hr rfl
  have hs : s.reader = { s.reader with words := [], taken := false } := by rw [← h.turn, ← htaken]
  have he : ({ z with reader := (ReaderPort.answering { z.reader with words := [], taken := false } z.reader.left
      (.answer n (.done none)) z.cfg.present) } : State) =
      { s with reader := s.reader.answering left (.answer n (.done none)) s.cfg.present } := by
    rw [hs]
    rfl
  rw [← he]
  exact hm

/-! #### The map, by area -/

/-- What another lane's area, and what is no reader's, is to a reader (R163). -/
theorem ceiling_laneOther (hm : m ≠ n) (o : Nat) : ceiling (laneArea m o) (.reader n) = .denied := by
  unfold laneArea
  split_ifs <;> simp [ceiling, hm]

theorem ceiling_reader (hk : r.kind = .command ∨ r.kind = .status ∨ r.kind = .journal ∨ r.kind = .bankA ∨ r.kind = .bankB)
    (o : Nat) (n : Lane) : ceiling (areaOf r o) (.reader n) = .denied := by
  rcases hk with hk | hk | hk | hk | hk <;> rw [areaOf, hk]
  · dsimp only
    split_ifs <;> rfl
  all_goals rfl

theorem judge_shut (hl : s.locate a = some (r, area)) (hc : ceiling area (.reader n) = .denied) (x : Access) :
    s.judge a (.reader n) x = .error .rights :=
  judge_closed hl (.inl (by rw [hc]; cases x <;> rfl))

/-- A landing word or the tap word of the reader's own lane (R6, R163, R164). -/
theorem judge_lands (hl : s.locate a = some (r, area)) (harea : area = .tap n ∨ ∃ k, area = .landing n k) :
    s.judge a (.reader n) .read = (if r.reader = .denied then .error .rights else .ok area)
    ∧ (r.reader ≠ .readWrite → ∀ e d, s.judge a (.reader n) (.write e d) = .error .rights)
    ∧ (r.reader = .readWrite → s.landingOpen n = true → ∀ e d, s.judge a (.reader n) (.write e d) = .ok area)
    ∧ (r.reader = .readWrite → s.landingOpen n = false → ∀ e d, s.judge a (.reader n) (.write e d) = .error .landingLocked) := by
  have hc : ceiling area (.reader n) = .readWrite := by rcases harea with rfl | ⟨k, rfl⟩ <;> exact if_pos rfl
  have ht : s.stateTest area (.reader n) .read = none := by rcases harea with rfl | ⟨k, rfl⟩ <;> rfl
  refine ⟨judge_read hl (by rw [hc]; decide) ht, fun hr e d => judge_closed hl (.inr (allows_write.2 hr)),
    fun hr ho e d => ?_, fun hr ho e d => ?_⟩
  · rw [judge_landing hl hr harea, ho]
    rfl
  · rw [judge_landing hl hr harea, ho]
    rfl

/-- The write-back image of the reader's own lane (R87, R163, R164). -/
theorem judge_writeBack (hl : s.locate a = some (r, .writeBack n)) :
    (∀ e d, s.judge a (.reader n) (.write e d) = .error .rights)
    ∧ (r.reader = .denied → s.judge a (.reader n) .read = .error .rights)
    ∧ (r.reader ≠ .denied → (s.lane n).state = .released → s.judge a (.reader n) .read = .ok (.writeBack n))
    ∧ (r.reader ≠ .denied → (s.lane n).state ≠ .released → s.judge a (.reader n) .read = .error .notReleased) := by
  have hc : ceiling (.writeBack n) (.reader n) = .readOnly := if_pos rfl
  have hallows (hr : r.reader ≠ .denied) : (ceiling (.writeBack n) (.reader n)).allows .read = true
      ∧ (configuredRight r (.reader n)).allows .read = true :=
    ⟨by rw [hc]; rfl, by simpa [Right.allows, configuredRight] using hr⟩
  refine ⟨fun e d => judge_closed hl (.inl (by rw [hc]; rfl)), fun hr => judge_closed hl (.inr (allows_read.2 hr)),
    fun hr hs => ?_, fun hr hs => ?_⟩
  · rw [judge_located hl]
    simp only [accessDirection, hallows hr, State.stateTest, hs, and_self, if_true]
  · rw [judge_located hl]
    simp only [accessDirection, hallows hr, State.stateTest, hs, and_self, if_true, if_false]

/-- The result word of the reader's own lane (R88, R163, R164). -/
theorem judge_result (hl : s.locate a = some (r, .result n)) :
    s.judge a (.reader n) .read = (if r.reader = .denied then .error .rights else .ok (.result n))
    ∧ (r.reader ≠ .readWrite → ∀ e d, s.judge a (.reader n) (.write e d) = .error .rights)
    ∧ (r.reader = .readWrite → (s.lane n).state = .released → (s.lane n).appending = false →
        ∀ e d, s.judge a (.reader n) (.write e d) = .ok (.result n))
    ∧ (r.reader = .readWrite → (s.lane n).state ≠ .released ∨ (s.lane n).appending = true →
        ∀ e d, s.judge a (.reader n) (.write e d) = .error .unexpectedResult) := by
  have hc : ceiling (.result n) (.reader n) = .readWrite := if_pos rfl
  refine ⟨judge_read hl (by rw [hc]; decide) rfl, fun hr e d => judge_closed hl (.inr (allows_write.2 hr)),
    fun hr hs ha e d => judge_write_ok hl hc hr (if_pos ⟨hs, ha⟩), fun hr hs e d => judge_write_error hl hc hr (if_neg ?_)⟩
  rintro ⟨hs', ha'⟩
  exact hs.elim (fun h => h hs') fun h => by simp [ha'] at h

/-- Settles O27: the port by whether the map admits the word and it needs an operation; the map area by area. -/
theorem readerWordIsJudged : Obligations.ReaderWordIsJudged := by
  refine ⟨fun s n left address h hu => ?port, fun s n left k r h hu hl hr => ?writeBack, fun s n a r o h => ?map⟩
  case port =>
    intro a
    have hexec (x : Access) : exec (.readerWordAccess ⟨n, left⟩ address x) s =
        .next (s.settle (s.presentReader left ⟨n, a, x⟩)) := rfl
    refine ⟨fun area hj => yields_of_eq (hexec .read) (presentReader_waits h hj rfl),
      fun f hj => yields_of_mirrored (hexec .read) (presentReader_refused h hu hj),
      fun e d f hj => yields_of_mirrored (hexec (.write e d)) (presentReader_refused h hu hj),
      fun e d area hj => ⟨fun he => ?_, ?_⟩, fun e d r o hm hp =>
        yields_of_mirrored (hexec (.write e d)) (presentReader_refused h hu (judge_partOwned hm hp _))⟩
    · exact yields_of_eq (hexec (.write e d)) (presentReader_waits h hj (by simpa [needsNoOperation] using he))
    · rintro admitted rfl rfl
      exact yields_of_mirrored (hexec (.write 0 d)) (presentReader_answered h hu rfl hj)
  case writeBack =>
    have hexec : exec (.writeBackRead ⟨n, left⟩ k) s =
        .next (s.settle (s.presentReader left ⟨n, s.laneAddress n (128 + 4 * k.val), .read⟩)) := rfl
    obtain ⟨-, -, hreleased, hnot⟩ := judge_writeBack hl
    exact ⟨fun hs => yields_of_eq hexec (presentReader_waits h (hreleased hr hs) rfl),
      fun hs => yields_of_mirrored hexec (presentReader_refused h hu (hnot hr hs))⟩
  case map =>
    intro judged open_ reads closed shut lands
    have hshut {area : Area} (hl : s.locate a = some (r, area)) (hc : ceiling area (.reader n) = .denied) : shut :=
      ⟨fun e d => judge_shut hl hc _, judge_shut hl hc _⟩
    have hlocate := h.locate
    refine ⟨fun m hk hm hne => hshut (processor_lane h hk hm) (ceiling_laneOther hne _), fun hk hn => ?own,
      fun hk => hshut hlocate (ceiling_reader hk o n), fun hk hno => ?_, fun hk hyes => ?_⟩
    case own =>
      have hl := processor_lane h hk hn
      have hlands {area : Area} (harea : laneArea n (o % 1024) = area) (h' : area = .tap n ∨ ∃ k, area = .landing n k) :
          lands area := by
        obtain ⟨hread, hclosed, hopen, hlocked⟩ := judge_lands (s := s) (harea ▸ hl) h'
        exact ⟨hread, hclosed, fun hr ho => hopen hr (landingOpen_iff.2 ho),
          fun hr ho => hlocked hr (by simpa using mt landingOpen_iff.1 ho)⟩
      refine ⟨fun k hk' => hlands (laneArea_landing hk') (.inr ⟨k, rfl⟩), fun h' => hlands (laneArea_tap h') (.inl rfl),
        fun h1 h2 => judge_writeBack (laneArea_writeBack (m := n) h1 h2 ▸ hl), fun h' => judge_result (laneArea_result (m := n) h' ▸ hl),
        fun h' => hshut (laneArea_other (m := n) h' ▸ hl) rfl⟩
    · rw [areaOf, hk] at hlocate
      exact hshut hlocate (by simp [ceiling, hno])
    · rw [areaOf, hk] at hlocate
      have hc : ceiling (.plain r.admitted) (.reader n) = .readWrite := if_pos hyes
      refine ⟨judge_read hlocate (by rw [hc]; decide) rfl, fun e d => ?_⟩
      split_ifs with hr
      · exact judge_write_ok hlocate hc hr rfl
      · exact judge_closed hlocate (.inr (allows_write.2 hr))

end

end Sys2Proof.Machine

/-! ### The choices of the Memory Arbiter (R166, R167) -/

namespace Sys2Proof.Machine

section
variable {s t u : State} {x y : Requester} {p : Requester → Bool}

/-! #### The choice -/

/-- The requester of the lowest place that waits is found by place (R166). -/
theorem find_requesters (hx : p x = true) (hbefore : ∀ y, y.place < x.place → p y = false) : requesters.find? p = some x := by
  refine List.find?_eq_some_iff_getElem.2 ⟨hx, x.place - 1, by cases x <;> decide, by cases x <;> rfl, fun j hj => ?_⟩
  have hplace (j : Nat) (h : j < requesters.length) : requesters[j].place = j + 1 := by
    have h8 : j < 8 := h
    interval_cases j <;> rfl
  rw [hbefore _ (by rw [hplace]; omega)]
  rfl

theorem requesters_before (h : requesters.find? p = some x) (hy : y.place < x.place) : p y = false := by
  obtain ⟨-, i, hi, hget, hbefore⟩ := List.find?_eq_some_iff_getElem.1 h
  have hplace : x.place = i + 1 := by
    have h8 : i < 8 := hi
    rw [← hget]
    interval_cases i <;> rfl
  have hpos : 0 < y.place := by cases y <;> decide
  have hy' : requesters[y.place - 1]'(by cases y <;> decide) = y := by cases y <;> rfl
  have := hbefore (y.place - 1) (by omega)
  rw [hy'] at this
  simpa using this

theorem place_lt_processor (h : y ≠ .processor) : y.place < Requester.processor.place := by
  revert h
  cases y <;> decide

/-- The next choice is `x` just where the arbiter takes it (R167). -/
theorem chooses_iff : s.Chooses x ↔ s.choice = some x := by
  unfold State.choice
  constructor
  · intro h
    by_cases h4 : s.processor.taken = true ∧ 4 ≤ s.arbiter.losses
    · rw [if_pos h4, h.served h4.1 h4.2]
    · rw [if_neg h4]
      refine find_requesters h.waits fun y hy => ?_
      by_cases hx : x = .processor
      · have htaken : s.processor.taken = true := by
          have hw := h.waits
          rw [hx] at hw
          exact hw
        refine h.first hx (by by_contra hl; exact h4 ⟨htaken, by omega⟩) y fun he => ?_
        rw [he, hx] at hy
        exact absurd hy (lt_irrefl _)
      · exact h.place hx y hy
  · intro h
    by_cases h4 : s.processor.taken = true ∧ 4 ≤ s.arbiter.losses
    · rw [if_pos h4] at h
      obtain rfl := Option.some.inj h
      exact ⟨h4.1, fun _ _ => rfl, fun _ hl => absurd h4.2 (by omega), fun hne => absurd rfl hne⟩
    · rw [if_neg h4] at h
      refine ⟨List.find?_some h, fun ht hl => absurd ⟨ht, hl⟩ h4, fun hx _ y hy => ?_, fun _ y hy => requesters_before h hy⟩
      exact requesters_before h (by rw [hx]; exact place_lt_processor (hx ▸ hy))

theorem mem_requesters (x : Requester) : x ∈ requesters := by cases x <;> decide

theorem choice_isSome (h : s.waits x = true) : ∃ y, s.choice = some y := by
  unfold State.choice
  split
  · exact ⟨_, rfl⟩
  · exact Option.isSome_iff_exists.1 (List.find?_isSome.2 ⟨x, mem_requesters x, h⟩)

theorem choice_none (h : ∀ x, s.waits x = false) : s.choice = none := by
  cases hc : s.choice with
  | none => rfl
  | some y => exact absurd (chooses_iff.2 hc).waits (by simp [h y])

/-! #### The loss count -/

theorem offered_isSome (hw : s.waits x = true) (hr : x ≠ .reader) (hp : x ≠ .processor) : ∃ b, s.offered x = some b := by
  have hany : s.arbiter.requests.any (fun b => b.requester == x) = true := by
    cases x with
    | reader => exact absurd rfl hr
    | processor => exact absurd rfl hp
    | _ => exact hw
  obtain ⟨b, hb, he⟩ := List.any_eq_true.1 hany
  exact Option.isSome_iff_exists.1 (List.find?_isSome.2 ⟨b, hb, he⟩)

theorem arbitrate_processor (h : s.Chooses .processor) : s.arbitrate = (s.countLoss .processor).serveProcessor := by
  rw [State.arbitrate, chooses_iff.1 h]

theorem arbitrate_reader (h : s.Chooses .reader) : s.arbitrate = (s.countLoss .reader).serveReader := by
  rw [State.arbitrate, chooses_iff.1 h]

/-- The choice of a block (R166, R167): the one whose request reached its place first makes its word. -/
theorem arbitrate_block {b : Block} (h : s.Chooses b.requester) (hb : s.offered b.requester = some b) :
    s.arbitrate = (s.countLoss b.requester).serveBlock b := by
  rw [State.arbitrate, chooses_iff.1 h]
  cases b <;> simp only [Block.requester] at hb ⊢ <;> rw [hb]

theorem offered_requester {b : Block} (h : s.offered x = some b) : b.requester = x := by
  simpa using List.find?_some h

/-- Where another than the Processor Port is chosen, the loss count and a word that waits at that port stay past the counting
of the choice (R167). -/
theorem arbitrate_other (h : s.Chooses x) (hx : x ≠ .processor) : (s.countLoss x).Keeps s.arbitrate True True := by
  by_cases hr : x = .reader
  · subst hr
    rw [arbitrate_reader h]
    exact serveReader_keeps _
  · obtain ⟨b, hb⟩ := offered_isSome h.waits hr hx
    obtain rfl := offered_requester hb
    rw [arbitrate_block h hb]
    exact serveBlock_keeps ..

theorem countLoss_losses (hx : x ≠ .processor) : (s.countLoss x).arbiter.losses = s.passedOver.losses := if_neg hx

theorem countLoss_eq (hx : x ≠ .processor) : s.countLoss x = { s with arbiter := s.passedOver } := by
  rw [State.countLoss, if_neg hx]
  rfl

/-! #### The requests after a command -/

/-! Which block has a word to make does not depend on the requests at the arbiter. -/

theorem searchReads_arbiter (z : Arbiter) (b : BankId) (target fuel low high : Nat) :
    ({ s with arbiter := z } : State).searchReads b target fuel low high = s.searchReads b target fuel low high := by
  induction fuel generalizing low high with
  | zero => rfl
  | succ fuel ih =>
    rw [State.searchReads, State.searchReads]
    simp only [ih]
    rfl

theorem centralReads_arbiter (z : Arbiter) (b : BankId) (serial : Serial) :
    ({ s with arbiter := z } : State).centralReads b serial = s.centralReads b serial := by
  rw [State.centralReads, State.centralReads]
  simp only [searchReads_arbiter]
  rfl

theorem probeReads_arbiter (z : Arbiter) (n q : Nat) : ({ s with arbiter := z } : State).probeReads n q = s.probeReads n q := by
  induction n generalizing q with
  | zero => rfl
  | succ n ih =>
    rw [State.probeReads, State.probeReads]
    simp only [ih]
    rfl

theorem staleReads_arbiter (z : Arbiter) (n q : Nat) : ({ s with arbiter := z } : State).staleReads n q = s.staleReads n q := by
  induction n generalizing q with
  | zero => rfl
  | succ n ih =>
    rw [State.staleReads, State.staleReads]
    simp only [ih]
    rfl

theorem scanReads_arbiter (z : Arbiter) : ({ s with arbiter := z } : State).scanReads = s.scanReads := by
  rw [State.scanReads, State.scanReads]
  simp only [probeReads_arbiter, staleReads_arbiter]
  rfl
theorem runNext_arbiter (z : Arbiter) : ({ s with arbiter := z } : State).runNext = s.runNext := by
  rw [State.runNext, State.runNext]
  simp only [centralReads_arbiter]
  rfl
theorem startUpNext_arbiter (z : Arbiter) : ({ s with arbiter := z } : State).startUpNext = s.startUpNext := by
  rw [State.startUpNext, State.startUpNext]
  simp only [scanReads_arbiter]
  rfl

theorem nextRead_arbiter (z : Arbiter) (b : Block) : ({ s with arbiter := z } : State).nextRead b = s.nextRead b := by
  cases b with
  | run => simp only [State.nextRead, runNext_arbiter]
  | startUp | journal => simp only [State.nextRead, startUpNext_arbiter]
  | bankControl =>
    simp only [State.nextRead, startUpNext_arbiter]
    rfl
  | _ => rfl
theorem hasWord_arbiter (z : Arbiter) (b : Block) : ({ s with arbiter := z } : State).hasWord b = s.hasWord b := by
  cases b with
  | journal | run | comparison n | bankControl | startUp => simp only [State.hasWord, nextRead_arbiter]
  | commandSlot k =>
    simp only [State.hasWord, nextRead_arbiter]
    rfl
  | _ => rfl

/-- The end of every row leaves at the arbiter the requests of the blocks that have a word to make (R166). -/
theorem enrol_enrolled (s : State) : s.enrol.Enrolled := by
  intro x
  have hmem : x ∈ allBlocks := by
    cases x with
    | comparison n | verdictRecord n => match n with | 0 | 1 | 2 | 3 => decide
    | commandSlot k => match k with | 0 | 1 | 2 | 3 | 4 | 5 | 6 | 7 => decide
    | _ => decide
  have hword : s.enrol.hasWord x = s.hasWord x := hasWord_arbiter _ x
  rw [hword, State.enrol]
  simp only [List.mem_append, List.mem_filter, hmem, true_and, Bool.and_eq_true, Bool.not_eq_true',
    List.contains_eq_mem, decide_eq_false_iff_not]
  tauto

/-- Settles O28: the choice by `chooses_iff`, the loss count by what each choice keeps, the requests by `enrol_enrolled`. -/
theorem arbiterCountsLosses : Obligations.ArbiterCountsLosses := by
  refine ⟨fun s hl hs => ?_, fun c s t h => ?_⟩
  · intro others
    obtain ⟨t, ht, hm⟩ : ∃ t, exec .memoryArbiterChoice s = .next t ∧ s.arbitrate.Mirrored t :=
      ⟨_, rfl, settle_mirrored _ _⟩
    have hothers (h : others = false) (x : Requester) (hx : x ≠ .processor) : s.waits x = false := by
      have hall := List.any_eq_false.1 h x (by cases x <;> simp at hx ⊢)
      simpa using hall
    have hchosen {x : Requester} (h : s.Chooses x) (hx : x ≠ .processor) : t.arbiter.losses = s.passedOver.losses := by
      rw [hm.losses, (arbitrate_other h hx).losses trivial, countLoss_losses hx]
    refine ⟨t, ht, fun hp ho => ?_, fun hp h => ?_, fun hp h4 ho => ?_, fun hp => ?_, fun ⟨x, hx⟩ => ?_,
      fun x => hchosen⟩
    · have hnone : s.arbitrate = s := by
        rw [State.arbitrate, choice_none fun x => ?_]
        by_cases hx : x = .processor
        · rw [hx]
          exact hp
        · exact hothers ho x hx
      rwa [hnone] at hm
    · have hc : s.Chooses .processor :=
        ⟨hp, fun _ _ => rfl, fun _ hl' y hy => h.elim (fun h4 => by omega) fun ho => hothers ho y hy, fun hne => absurd rfl hne⟩
      rw [hm.losses, arbitrate_processor hc, (serveProcessor_keeps _).losses trivial]
      rfl
    · obtain ⟨x, hx⟩ := choice_isSome (s := s) (x := .processor) hp
      have hc := chooses_iff.2 hx
      have hne : x ≠ .processor := by
        rintro rfl
        have hnone : others = false := List.any_eq_false.2 fun y hy => by
          rw [hc.first rfl h4 y (by rintro rfl; simp at hy)]
          decide
        rw [hnone] at ho
        exact absurd ho (by decide)
      refine ⟨?_, ?_⟩
      · rw [hchosen hc hne]
        show (if s.processor.taken = true then min 4 (s.arbiter.losses + 1) else _) = _
        rw [if_pos hp]
        omega
      · rw [hm.processor]
        exact (arbitrate_other hc hne).port trivial hp (hs.held hp)
    · cases hx : s.choice with
      | none =>
        have hnone : s.arbitrate = s := by rw [State.arbitrate, hx]
        rw [hm.losses, hnone]
      | some x =>
        have hc := chooses_iff.2 hx
        have hne : x ≠ .processor := by
          rintro rfl
          exact absurd hc.waits (by simp [State.waits, hp])
        rw [hchosen hc hne]
        exact if_neg (by simp [hp])
    · obtain ⟨y, hy⟩ := choice_isSome hx
      exact ⟨y, chooses_iff.2 hy, fun z hz => Option.some.inj ((chooses_iff.1 hz).symm.trans hy)⟩
  · obtain ⟨u, hu, hk⟩ := exec_settles c s
    obtain rfl := Host.Outcome.next.inj (hu.symm.trans h)
    exact ⟨enrol_enrolled _, (hk.trans (settle_keeps s u)).nodup⟩

end

end Sys2Proof.Machine

/-! ### What reads find, by the memory they meet (R168, R170) -/

namespace Sys2Proof.Machine

section
variable {s t u : State} {α β : Type} {p : Reads α} {a c : Nat} {l : List Nat} {b : Block} {n : Notice}

/-- What a read of the word at `a` delivers: the word, or nothing where it is uncorrectable (R168, R170). -/
def Memory.delivers (m : Memory) (a : Nat) : Option Word := if m.health a = .uncorrectable then none else some (m.word a)

/-- What the reads of `p` find in the memory `m`. -/
def Reads.finds (m : Memory) : Reads α → α
  | .done x => x
  | .read _ a next => (next (m.delivers a)).finds m

theorem readWord_delivers (a : Nat) : (s.readWord a).1 = s.memory.delivers a := by
  unfold State.readWord Memory.delivers
  split <;> rename_i h <;> simp [h]

/-- A read loses no word and recovers none: it may clean a corrected one alone (R168). -/
theorem readWord_lost_iff (hw : s.memory.wf = true) (a c : Nat) :
    (s.readWord a).2.memory.health c = .uncorrectable ↔ s.memory.health c = .uncorrectable := by
  unfold State.readWord
  split
  · rfl
  · rename_i h
    rw [spendCorrection_memory]
    show (s.memory.scrub a).health c = _ ↔ _
    by_cases hc : c = a
    · subst hc
      rw [h]
      rw [health_scrub_self c hw]
      simp
    · rw [Memory.health, Memory.health, Memory.upset_scrub_other hc]
  · rw [reportFault_memory]

theorem delivers_readWord (hw : s.memory.wf = true) (a c : Nat) : (s.readWord a).2.memory.delivers c = s.memory.delivers c := by
  have hword : (s.readWord a).2.memory.word c = s.memory.word c := by
    have h := (readWord_leaves (s := s) a).sameBytes
    simp only [Memory.word, h c, h (c + 1), h (c + 2), h (c + 3)]
  rw [Memory.delivers, Memory.delivers, hword]
  simp only [readWord_lost_iff hw]

theorem finds_congr {m m' : Memory} (h : ∀ c, m'.delivers c = m.delivers c) (p : Reads α) : p.finds m' = p.finds m := by
  induction p with
  | done x => rfl
  | read b a next ih => rw [Reads.finds, Reads.finds, h, ih]

/-- What a row reads is what its reads find in memory as it stands before the first of them. -/
theorem readThrough_finds (hw : s.memory.wf = true) (p : Reads α) : (s.readThrough p).1 = p.finds s.memory := by
  induction p generalizing s with
  | done x => rfl
  | read b a next ih =>
    rw [State.readThrough, Reads.finds, ← readWord_delivers]
    exact (ih _ (readWord_wf a hw)).trans (finds_congr (delivers_readWord hw a) _)

theorem delivers_readThrough (hw : s.memory.wf = true) (p : Reads α) (c : Nat) : (s.readThrough p).2.memory.delivers c = s.memory.delivers c := by
  induction p generalizing s with
  | done x => rfl
  | read b a next ih => exact (ih _ (readWord_wf a hw)).trans (delivers_readWord hw a c)

theorem finds_bind (m : Memory) (p : Reads α) (f : α → Reads β) : (p.bind f).finds m = (f (p.finds m)).finds m := by
  induction p with
  | done x => rfl
  | read b a next ih => exact ih _

theorem delivers_some {m : Memory} (h : m.health a ≠ .uncorrectable) : m.delivers a = some (m.word a) := if_neg h
theorem delivers_none {m : Memory} (h : m.health a = .uncorrectable) : m.delivers a = none := if_pos h

theorem finds_wordsAfter (m : Memory) (b : Block) (before : List Word) (h : ∀ a ∈ l, m.health a ≠ .uncorrectable) :
    (Reads.wordsAfter b before l).finds m = some (before.reverse ++ l.map m.word) := by
  induction l generalizing before with
  | nil => simp [Reads.wordsAfter, Reads.finds]
  | cons a rest ih =>
    rw [Reads.wordsAfter, Reads.finds, delivers_some (h a (by simp))]
    dsimp only
    rw [ih _ fun c hc => h c (by simp [hc])]
    simp

theorem finds_words {m : Memory} (h : ∀ a ∈ l, m.health a ≠ .uncorrectable) :
    (Reads.words b l).finds m = some (l.map m.word) := finds_wordsAfter m b [] h

theorem finds_wordsAfter_lost {m : Memory} (b : Block) (before : List Word) (ha : a ∈ l) (h : m.health a = .uncorrectable) :
    (Reads.wordsAfter b before l).finds m = none := by
  induction l generalizing before with
  | nil => cases ha
  | cons c rest ih =>
    rw [Reads.wordsAfter, Reads.finds]
    by_cases hc : m.health c = .uncorrectable
    · rw [delivers_none hc]
      rfl
    · rw [delivers_some hc]
      refine ih _ ((List.mem_cons.1 ha).resolve_left ?_)
      rintro rfl
      exact hc h

/-- An uncorrectable word among several leaves nothing of them (log 41). -/
theorem finds_words_lost {m : Memory} (ha : a ∈ l) (h : m.health a = .uncorrectable) : (Reads.words b l).finds m = none :=
  finds_wordsAfter_lost b [] ha h

/-! #### The notices that reads leave (R169, R172) -/

theorem noticed_notify_other {m : Notice} (h : n.bit ≠ m.bit) : (s.notify m).noticed n = s.noticed n := by
  have hn : n.bit < 18 := by
    cases n with
    | verdict k | alarm k => have := k.isLt; simp only [Notice.bit]; omega
    | _ => decide
  simp only [State.noticed, State.notify, State.setStatus, BitVec.getLsbD_or, BitVec.getLsbD_ofNat, Nat.testBit_two_pow]
  simp [hn, Ne.symm h]

/-- Reads set no notice but FAULT and ECC_BUDGET. -/
theorem readThrough_noticed (p : Reads α) (hf : n.bit ≠ 10) (hb : n.bit ≠ 11) : (s.readThrough p).2.noticed n = s.noticed n := by
  induction p generalizing s with
  | done x => rfl
  | read b a next ih =>
    refine (ih _).trans ?_
    show (s.readWord a).2.noticed n = s.noticed n
    unfold State.readWord
    split
    · rfl
    · dsimp only
      unfold State.spendCorrection
      split
      · rfl
      · dsimp only
        split
        · exact noticed_notify_other hb
        · rfl
    · dsimp only
      unfold State.reportFault
      split
      · rfl
      · exact noticed_notify_other hf

end

end Sys2Proof.Machine

/-! ### Selection over a memory that is not in canonical form (R54, R168)

The statement about BANK_SELECTION takes each bank's validation from memory as the Unit Record's reads leave it, while the
selection validates the second bank after the first. In a memory of canonical form (log 7) that is the same, for a scrub
cleans the word read and no other. The statement does not ask for that form: where a word is listed twice among the upsets, a
scrub lays bare the second listing, and a word that both banks share is then corrected for the first and uncorrectable for
the second. -/

namespace Sys2Proof.Machine

/-- A state of SCANNING before selection, with both banks at address 0, whose word is listed twice: once with one wrong bit,
and once with two. -/
def twiceListed : State :=
  { State.reset with
    startUp := { State.reset.startUp with unit := .scanning }
    memory := { State.reset.memory with upsets := [(0, 1), (0, 3)] }
    cfg := { State.reset.cfg with regions :=
      [{ kind := .journal, base := 1, size := 2, service := .denied, maint := .denied, reader := .denied
         admitted := Quad.all false }] }
    banks := { State.reset.banks with
      a := { State.reset.banks.a with state := some .validating }
      b := { State.reset.banks.b with state := some .validating } } }

/-- The state of bank B after a row. -/
def bankBAfter : Host.Outcome State Fault Refusal → Option BankState
  | .next t => (t.bank .b).state
  | _ => none

/-- Refutes O23: bank B, whose Version the statement reads as 0, becomes DAMAGED and not EMPTY. -/
theorem not_bankSelectionSettlesBanks : ¬Obligations.BankSelectionSettlesBanks := by
  intro h
  obtain ⟨t, ht, -, -, -, -, -, -, -, hunnamed⟩ := h twiceListed rfl rfl rfl
    (State.PathIdle.free (s := twiceListed) ⟨rfl, rfl, rfl⟩ _ _) (fun x => by cases x <;> rfl)
  have hrecord : twiceListed.readUnitRecord.1 = none := by decide +kernel
  have hfailure (z : BankId) : (twiceListed.readUnitRecord.2.validate z).1 = ⟨some (.version, none), some 0⟩ := by
    cases z <;> decide +kernel
  obtain ⟨-, -, -, -, hneither⟩ := hunnamed (by rw [hrecord]; rfl)
  have hfails (z : BankId) : (twiceListed.readUnitRecord.2.validate z).1.failure ≠ none := by
    rw [hfailure]
    decide
  obtain ⟨-, hb, -⟩ := hneither (hfails .a) (hfails .b)
  have hempty : (t.bank .b).state = some .empty := by
    rw [hb]
    simp only [hfailure]
    rfl
  have hdamaged : bankBAfter (exec .bankSelection twiceListed) = some .damaged := by decide +kernel
  rw [ht] at hdamaged
  exact absurd (hempty.symm.trans hdamaged) (by decide)

end Sys2Proof.Machine

/-! ### The last word of an entry, chosen by the arbiter (R166, R178)

The statement about the word operations says that the last word of an entry leaves what JOURNAL_APPEND_COMPLETE leaves but
for the result words of the commands that have come to complete. It asks as little of the slots as those of
`doublyWaiting`, and fails in the same state: the row writes the result word of slot 0 too. -/

namespace Sys2Proof.Machine

/-- `appendEnding`, with the Journal Writer's request at the arbiter. -/
def appendOffered : State := { appendEnding with arbiter := { appendEnding.arbiter with requests := [.journal] } }

theorem appendOffered_chooses : appendOffered.Chooses .journal := chooses_iff.2 (by decide)

/-- Refutes O29: after the last word of the entry of `appendOffered` slot 0 is still busy, and after the row it is free. -/
theorem not_processorWordIsServed : ¬Obligations.ProcessorWordIsServed := by
  rintro ⟨-, -, -, hjournal, -⟩
  obtain ⟨happend, -⟩ := hjournal appendOffered appendOffered_chooses (by decide)
  obtain ⟨-, hcompletes⟩ := happend _ _ _ _ _ rfl
  have hfree : appendOffered.PathFree .journal 5 :=
    ⟨rfl, rfl, fun y hy => .inl (List.mem_singleton.1 (show y ∈ [Block.journal] from hy))⟩
  obtain ⟨t, u, ht, hu, hm⟩ := hcompletes rfl hfree (by decide)
  have hbusy : leavesBusy appendOffered.resultsWritten (exec .memoryArbiterChoice appendOffered) = true := by decide +kernel
  have hleft : leavesFree (exec .journalAppendComplete appendOffered) = true := by decide +kernel
  have hslot : u.slot 0 = (appendOffered.resultsWritten t).slot 0 := by simp only [State.slot, hm.slots]
  rw [ht] at hbusy
  rw [hu] at hleft
  simp only [leavesBusy, leavesFree, hslot, Bool.not_eq_true'] at hbusy hleft
  rw [hbusy] at hleft
  cases hleft

end Sys2Proof.Machine

/-! ### A row that completes a command, with or without a Detail Value (R178) -/

namespace Sys2Proof.Machine

section
variable {r s t u w : State} {k : SlotId} {outcome : CommandOutcome} {detail : Detail} {v : Word} {value : Option Word}

/-- `t` is `w` with the command in slot `k` complete: the slot is free, its result word is written, and a Detail Value stands
in the Status Area before it (R178). -/
structure State.CompletedAs (w : State) (k : SlotId) (outcome : CommandOutcome) (detail : Detail) (value : Option Word)
    (t : State) : Prop where
  frame  : ({ w with memory := t.memory, slots := t.slots }).Mirrored t
  slot   : t.slot k = { w.slot k with
      busy := false, reading := none, command := none, detailValue := value.getD (w.slot k).detailValue }
  others : ∀ j, j ≠ k → t.slot j = w.slot j
  word   : t.memory.word (w.slotAddress k 6) = resultWord (w.slot k).lastTaken outcome detail
  shown  : ∀ v, value = some v → t.memory.word (w.statusAddress (208 + k.val)) = v
  bytes  : ∀ b, (b < w.slotAddress k 6 ∨ w.slotAddress k 6 + 4 ≤ b) →
      (value = none ∨ b < w.statusAddress 0 ∨ w.statusAddress (209 + k.val) ≤ b) → t.memory.byte b = w.memory.byte b

/-- The path and the slots leave the result word of a command that completes now free to be written (R166, R178). -/
structure State.ResultFree (r w : State) : Prop where
  slots     : w.slots = r.slots
  results   : ∀ j, (r.slot j).result = none
  reader    : w.reader.taken = false
  processor : w.processor.taken = false
  others    : ∀ y ∈ w.arbiter.requests, 5 < y.requester.place
  requests  : w.arbiter.requests.Nodup
  stale     : w.status.stale.Pairwise (· < ·)
  form      : w.memory.wf = true

theorem State.ResultFree.slot (h : r.ResultFree w) (j : SlotId) : w.slot j = r.slot j := by
  simp only [State.slot, h.slots]

theorem State.ResultFree.path (h : r.ResultFree w) : w.PathFree (.commandSlot k) 5 :=
  ⟨h.reader, h.processor, fun y hy => .inr (h.others y hy)⟩

/-- A row that completes a command without a Detail Value. -/
theorem close_completed (h : r.ResultFree w) (k : SlotId) (outcome : CommandOutcome) (detail : Detail) :
    w.CompletedAs k outcome detail none (r.close (w.complete k outcome detail)) := by
  have hm : (w.ended k outcome detail).Mirrored (r.close (w.complete k outcome detail)) :=
    (deliverAll_ended (.refl _) h.slots (h.results k) h.path.complete).trans (settle_mirrored _ _)
  obtain ⟨hframe, -, hothers, hword, hbytes⟩ := hm.ended_effect h.form
  refine ⟨hframe, ?_, hothers, hword, fun v hv => (by cases hv), fun b hb _ => hbytes b hb⟩
  have hresult := h.results k
  rw [← h.slot] at hresult
  have hslot : (r.close (w.complete k outcome detail)).slot k = (w.ended k outcome detail).slot k := by
    simp only [State.slot, hm.slots]
  rw [hslot, ended_slot, ← hresult]
  rfl

/-- A row that completes a command with a Detail Value, in READY. -/
theorem close_completed_value (h : r.ResultFree w) (hready : w.unit = .ready) (hapart : w.StatusApart) (k : SlotId)
    (outcome : CommandOutcome) (detail : Detail) (v : Word) :
    w.CompletedAs k outcome detail (some v) (r.close (w.complete k outcome detail (some v))) := by
  obtain ⟨z, hz, hshown, hdel⟩ := deliver_value (s := w) (k := k) (w.complete k outcome detail (some v)) outcome detail v
    h.reader h.processor h.others h.requests h.stale (fun j _ => (h.slot j).symm ▸ h.results j) h.form
    (by simp [State.mirrors, hready])
  rw [note_same fun _ => rfl] at hdel
  obtain ⟨hself, hother⟩ := complete_slots (s := w) k outcome detail (some v)
  have hdone : (((w.complete k outcome detail (some v)).deliver k).slot k).result = none := by
    simp only [State.slot, hdel.slots]
    simp
  have hall : r.deliverAll (w.complete k outcome detail (some v)) = (w.complete k outcome detail (some v)).deliver k :=
    deliverAll_one hself (h.results k) (fun j hj hr => by rwa [hother j hj, h.slot] at hr) hdone
  have hm := hdel.trans (settle_mirrored r _)
  rw [← hall] at hm
  change State.Mirrored _ (r.close _) at hm
  generalize r.close (w.complete k outcome detail (some v)) = t at hm
  have hmemory : t.memory = z.memory.writeWord (w.slotAddress k 6) (resultWord (w.slot k).lastTaken outcome detail) :=
    hm.memory
  have hslots : t.slots = w.slots.set k.val { w.slot k with
      busy := false, reading := none, command := none, result := none, detailValue := v } := hm.slots
  have hresult := h.results k
  rw [← h.slot] at hresult
  have haddress := ready_slotAddress hready k 6
  have hk := k.isLt
  have hbytes (b : Nat) (hb : b < w.statusAddress 0 ∨ w.statusAddress (209 + k.val) ≤ b) :
      z.memory.byte b = w.memory.byte b := hz.bytes b hb
  have hzwf : z.memory.wf = true := hz.form h.form
  refine ⟨?_, ?_, fun j hj => ?_, ?_, fun v' hv' => ?_, fun b hb hb' => ?_⟩
  · have hf := hz.frame
    rw [hmemory, hslots]
    unfold State.Mirrored at hm hf ⊢
    generalize t.status.stale = y1, t.status.changeCount = y2, t.status.due = y3,
      t.arbiter.requests = y4 at hm
    subst hm
    rw [hf]
    simp [State.setSlot]
  · simp only [State.slot, hslots]
    simp only [State.slot] at hresult
    simp [hresult]
  · have : k.val ≠ j.val := fun e => hj (Fin.ext e.symm)
    simp [State.slot, hslots, this]
  · rw [hmemory]
    exact Memory.word_writeWord_self _ _ hzwf
  · obtain rfl := Option.some.inj hv'
    rw [hmemory, Memory.word_writeWord_other _ ?_]
    · exact hshown
    · rw [haddress]
      rcases hapart with hap | hap <;> simp only [State.statusAddress] <;> omega
  · rw [hmemory, Memory.byte_writeWord_other _ hb]
    exact hbytes b (hb'.resolve_left (by simp))

end

end Sys2Proof.Machine

/-! ### What the end of a validation leaves before its command completes (R49, R50, R52) -/

namespace Sys2Proof.Machine

section
variable {s t u : State} {x : BankId} {k : SlotId} {version : Option Word}

theorem BankId.eq_other {x y : BankId} (h : y ≠ x) : y = x.other := by
  revert h
  cases x <;> cases y <;> decide

theorem bank_setBank_ne (s : State) {x y : BankId} (b : Bank) (h : y ≠ x) : (s.setBank x b).bank y = s.bank y := by
  rw [BankId.eq_other h]
  exact State.bank_setBank_other _ _ _

/-- A bank's change reaches the two banks alone. -/
theorem setBank_frame (s : State) (x : BankId) (b : Bank) :
    s.setBank x b = { s with banks := { s.banks with a := (s.setBank x b).banks.a, b := (s.setBank x b).banks.b } } := by
  cases x <;> rfl

/-- The mark of the run whose lane is pinned to a bank that is lost (R20, R52). -/
theorem markRun_run {r : Run} (h : s.screening.run = some r) : (s.markRun x).screening = { s.screening with
    run := some (if (s.lane r.lane).pinned = some x then { r with bankDamaged := true } else r) } := by
  unfold State.markRun
  rw [h]
  dsimp only
  split
  · rfl
  · rw [← h]

theorem markRun_frame (s : State) (x : BankId) : s.markRun x = { s with screening := (s.markRun x).screening } := by
  unfold State.markRun
  split
  · split <;> rfl
  · rfl

/-- A bank that is not ACTIVE is lost without a fallback (R52, R53). -/
theorem damageBank_inactive (h : (s.bank x).state ≠ some .active) :
    s.damageBank x = ((s.setBank x { s.bank x with state := some .damaged }).notify .bank).markRun x := if_neg h

/-! #### A validation that fails (R50) -/

/-- Validation of `x` has failed by `f`, and its command is still to complete (R50). -/
def State.invalidated (s : State) (x : BankId) (version : Option Word) (f : BankFailure) : State :=
  let u := { s with banks := { s.banks with validation := none, got := [] } }.settleBank x .staging version
  if f.1 = .memory then u.damageBank x else u

theorem failValidation_eq (s : State) (x : BankId) (k : SlotId) (version : Option Word) (f : BankFailure) :
    s.failValidation x k version f =
      (s.invalidated x version f).complete k .badTable f.1 (f.2.map (BitVec.ofNat 32)) := rfl

/-- The state of a bank after a validation that failed by `f` (R50). -/
def BankFailure.leaves (f : BankFailure) : BankState := if f.1 = .memory then .damaged else .staging

/-- What a validation of `x` that failed leaves in `t` before its command completes (R50, R52). -/
structure State.Invalidated (s : State) (x : BankId) (version : Option Word) (state : BankState) (t : State) : Prop where
  frame      : t = { s with
      banks := t.banks, screening := t.screening, status := { s.status with notices := t.status.notices } }
  validation : t.banks.validation = none
  got        : t.banks.got = []
  fallback   : t.banks.fallback = s.banks.fallback
  due        : t.banks.due = s.banks.due
  bank       : t.bank x = ⟨some state, (s.bank x).pins, version.getD (s.bank x).version⟩
  others     : ∀ y, y ≠ x → t.bank y = s.bank y
  noticed    : t.noticed .bank = true ↔ s.noticed .bank = true ∨ state = .damaged
  kept       : state ≠ .damaged → t.screening = s.screening
  marked     : ∀ r, state = .damaged → s.screening.run = some r → t.screening = { s.screening with
      run := some (if (s.lane r.lane).pinned = some x then { r with bankDamaged := true } else r) }

/-- The bank of a failed validation, STAGING. -/
theorem settled_invalidated (s : State) (x : BankId) (version : Option Word) :
    s.Invalidated x version .staging
      ({ s with banks := { s.banks with validation := none, got := [] } }.settleBank x .staging version) where
  frame := by cases x <;> rfl
  validation := by cases x <;> rfl
  got := by cases x <;> rfl
  fallback := by cases x <;> rfl
  due := by cases x <;> rfl
  bank := by cases x <;> rfl
  others y hy := bank_setBank_ne { s with banks := { s.banks with validation := none, got := [] } } _ hy
  noticed := by
    have : BankState.staging ≠ .damaged := by decide
    simp only [this, or_false]
    cases x <;> rfl
  kept _ := by cases x <;> rfl
  marked _ h := absurd h (by decide)

/-- The bank of a validation that met a lost word, DAMAGED (R52). -/
theorem State.Invalidated.damaged (h : s.Invalidated x version .staging u) : s.Invalidated x version .damaged (u.damageBank x) := by
  have hstate : (u.bank x).state ≠ some .active := by simp [h.bank]
  have heq : u.damageBank x = _ := damageBank_inactive hstate
  have hbank := h.bank
  have hscreening := h.kept (by decide)
  have hlane (n : Lane) : u.lane n = s.lane n := by rw [h.frame]; rfl
  generalize hw : u.setBank x { u.bank x with state := some .damaged } = w at heq
  have hwf : w = { u with banks := { u.banks with a := w.banks.a, b := w.banks.b } } := hw ▸ setBank_frame _ _ _
  have hwx : w.bank x = { u.bank x with state := some .damaged } := hw ▸ State.bank_setBank_self _ _ _
  have hwy (y : BankId) (hy : y ≠ x) : w.bank y = u.bank y := hw ▸ bank_setBank_ne _ _ hy
  have hm := markRun_frame (w.notify .bank) x
  rw [← heq] at hm
  generalize u.damageBank x = t at heq hm
  have hbanks : t.banks = w.banks := by rw [hm]; rfl
  have hstatus : t.status = (w.notify .bank).status := by rw [hm]
  have hwbanks : w.banks = { u.banks with a := w.banks.a, b := w.banks.b } := by rw [hwf]
  refine ⟨?_, ?_, ?_, ?_, ?_, ?_, fun y hy => ?_, ?_, fun hd => absurd rfl hd, fun r _ hr => ?_⟩
  · have hf := h.frame
    generalize t.screening = c at hm
    rw [hbanks, hstatus, hm, hwf, hf]
    rfl
  · rw [hbanks, hwbanks]; exact h.validation
  · rw [hbanks, hwbanks]; exact h.got
  · rw [hbanks, hwbanks]; exact h.fallback
  · rw [hbanks, hwbanks]; exact h.due
  · have : t.bank x = w.bank x := by unfold State.bank; rw [hbanks]
    rw [this, hwx, hbank]
  · have : t.bank y = w.bank y := by unfold State.bank; rw [hbanks]
    rw [this, hwy y hy, h.others y hy]
  · have hnoticed : t.noticed .bank = (w.notify .bank).noticed .bank := by unfold State.noticed; rw [hstatus]
    rw [hnoticed, State.noticed_notify]
    simp
  · have hws : (w.notify .bank).screening = s.screening := by
      rw [hwf]
      exact hscreening
    have hwl (n : Lane) : (w.notify .bank).lane n = s.lane n := by
      rw [hwf]
      exact hlane n
    rw [heq, markRun_run (by rw [hws]; exact hr), hws, hwl]

theorem invalidated_effect (s : State) (x : BankId) (version : Option Word) (f : BankFailure) :
    s.Invalidated x version f.leaves (s.invalidated x version f) := by
  unfold State.invalidated BankFailure.leaves
  dsimp only
  split
  · exact (settled_invalidated s x version).damaged
  · exact settled_invalidated s x version

/-! #### A validation that succeeds (R49) -/

/-- Validation of `x` has succeeded, and its command is still to complete (R49). -/
def State.switched (s : State) (x : BankId) (version : Option Word) : State :=
  let t := (s.retireActive).settleBank x .active version
  let u := { t with banks := { t.banks with validation := none, got := [], fallback := false } }
  let v := u.recordBank x
  (v.requestEntry (v.freeDraft none
    (.bankSwitch x (v.bank x).version (s.activeBank.map (fun y => (y, (s.bank y).version)))))).notify .bank

theorem switchTo_eq (s : State) (x : BankId) (k : SlotId) (version : Option Word) :
    s.switchTo x k version = (s.switched x version).complete k .done := rfl

/-- The two banks when `x` takes the place of the ACTIVE one (R49). -/
theorem switched_banks (s : State) (x : BankId) (version : Word) (hx : (s.bank x).state ≠ some .active) :
    let t := (s.retireActive).settleBank x .active (some version)
    t = { s with banks := { s.banks with a := t.banks.a, b := t.banks.b } }
    ∧ t.bank x = ⟨some .active, (s.bank x).pins, version⟩
    ∧ ∀ y, y ≠ x → t.bank y = { s.bank y with
        state := if s.activeBank = some y then some .valid else (s.bank y).state } := by
  intro t
  have hretired : ∀ y, s.retireActive.bank y = { s.bank y with
      state := if s.activeBank = some y then some .valid else (s.bank y).state } := by
    intro y
    unfold State.retireActive
    rcases s.activeBank with _ | z
    · rfl
    · cases y <;> cases z <;> rfl
  have hframe : s.retireActive = { s with banks := { s.banks with
      a := s.retireActive.banks.a, b := s.retireActive.banks.b } } := by
    unfold State.retireActive
    rcases s.activeBank with _ | z
    · rfl
    · exact setBank_frame _ _ _
  have hkept : s.activeBank ≠ some x := by
    unfold State.activeBank
    intro h
    split_ifs at h with h1 h2
    · cases h
      exact hx h1
    · cases h
      exact hx h2
  refine ⟨?_, ?_, fun y hy => ?_⟩
  · have ht : t = { s.retireActive with banks := { s.retireActive.banks with a := t.banks.a, b := t.banks.b } } :=
      setBank_frame s.retireActive x _
    clear_value t
    rw [ht, hframe]
  · have hb := hretired x
    rw [if_neg hkept] at hb
    exact (State.bank_setBank_self _ _ _).trans (by rw [hb]; rfl)
  · exact (bank_setBank_ne _ _ hy).trans (hretired y)

/-- What a validation of `x` that succeeded leaves in `t` before its command completes (R49). -/
structure State.Switched (s : State) (x : BankId) (version : Word) (t : State) : Prop where
  frame      : t = { s with
      banks := t.banks, journal := t.journal, status := { s.status with notices := t.status.notices } }
  validation : t.banks.validation = none
  got        : t.banks.got = []
  fallback   : t.banks.fallback = false
  due        : t.banks.due = s.banks.due
  bank       : t.bank x = ⟨some .active, (s.bank x).pins, version⟩
  others     : ∀ y, y ≠ x → t.bank y = { s.bank y with
      state := if s.activeBank = some y then some .valid else (s.bank y).state }
  noticed    : t.noticed .bank = true
  journal    : t.journal = ((State.request { s with journal := { s.journal with
      activeBank := some x, activeVersion := version } } (.rewrite false)).request (.append
        { lane := none, time := s.clock, flags := FareFlags.none, degraded := false
          body := .bankSwitch x version (s.activeBank.map (fun y => (y, (s.bank y).version))), reserved := none }
        .nothing)).journal

theorem switched_effect (s : State) (x : BankId) (version : Word) (hx : (s.bank x).state ≠ some .active) :
    s.Switched x version (s.switched x (some version)) := by
  obtain ⟨hframe, hbank, hothers⟩ := switched_banks s x version hx
  unfold State.switched
  generalize (s.retireActive).settleBank x .active (some version) = t at hframe hbank hothers
  dsimp only
  set u : State := { t with banks := { t.banks with validation := none, got := [], fallback := false } } with hu
  set v := u.recordBank x with hv
  have hvf : v = { u with journal := v.journal } := request_frame _
  have huf : u = { s with banks := u.banks } := by rw [hu, hframe]
  have hux : (u.bank x).version = version := by
    have : u.bank x = t.bank x := by cases x <;> rfl
    rw [this, hbank]
  have hvx : (v.bank x).version = version := by
    rw [hvf]
    exact hux
  have hvj : v.journal = (State.request { s with journal := { s.journal with
      activeBank := some x, activeVersion := version } } (.rewrite false)).journal := by
    rw [hv, State.recordBank, hux]
    exact request_congr (by rw [huf]; rfl) (by rw [huf]; rfl)
  have hcfg : v.cfg = (State.request { s with journal := { s.journal with
      activeBank := some x, activeVersion := version } } (.rewrite false)).cfg := by
    rw [hvf, huf, request_frame]
  have hclock : v.clock = s.clock := by rw [hvf, huf]
  rw [hvx, State.requestEntry, State.freeDraft, hclock, request_frame, request_congr hvj hcfg]
  have hubank (y : BankId) : u.bank y = t.bank y := by cases y <;> rfl
  have hdue : u.banks.due = s.banks.due := by
    rw [hu]
    show t.banks.due = _
    rw [hframe]
  have hwhole (j : Journal) : ({ v with journal := j } : State) = { s with banks := u.banks, journal := j } := by rw [hvf, huf]
  rw [hwhole]
  exact ⟨rfl, rfl, rfl, rfl, hdue, (hubank x).trans hbank, fun y hy => (hubank y).trans (hothers y hy),
    State.noticed_notify _ _, rfl⟩

end

end Sys2Proof.Machine

/-! ### The row that ends a validation (R48 to R50, R178) -/

namespace Sys2Proof.Machine

section
variable {s t u w : State} {x : BankId} {k : SlotId} {version : Option Word} {v : Validation} {f : BankFailure}

theorem validationReads_by (s : State) (x : BankId) : Reads.By .bankControl (s.validationReads x) := by
  refine .read _ _ fun w => ?_
  cases w with
  | none => exact .done _
  | some version =>
    dsimp only
    split_ifs
    · exact .done _
    · refine .read _ _ fun w => ?_
      cases w with
      | none => exact .done _
      | some count =>
        dsimp only
        split_ifs
        · exact .done _
        · refine .bind (.words _ _ _) fun words => ?_
          rcases words with _ | _ | _ <;> exact .done _

/-- A validation of bank `x` for the command in slot `k` in progress, whose words are read now, with nothing before them at
the arbiter and no other result word to write (R47, R48, R166). -/
structure State.Validating (s : State) (x : BankId) (k : SlotId) : Prop where
  validation : s.banks.validation = some (x, k)
  form       : s.memory.wf = true
  got        : s.banks.got = []
  path       : s.PathFree .bankControl 6
  sound      : s.Sound
  results    : ∀ j, (s.slot j).result = none
  state      : (s.bank x).state = some .validating

/-- `u` is `s` when the words of its validation have been read (R166, R168, R170). -/
structure State.BankRead (s u : State) : Prop where
  frame    : u = { s with
      memory := { s.memory with upsets := u.memory.upsets }, budget := u.budget, faultRecord := u.faultRecord
      status := { s.status with notices := u.status.notices }
      arbiter := { s.arbiter with requests := u.arbiter.requests } }
  noticed  : u.noticed .bank = s.noticed .bank
  form     : u.memory.wf = true
  requests : u.arbiter.requests.Nodup
  others   : ∀ y ∈ u.arbiter.requests, 5 < y.requester.place

theorem validation_read (h : s.Validating x k) :
    ∃ u, s.BankRead u ∧ exec .bankValidationEnd s = .next (s.close (u.endValidation x k (s.validate x).1)) := by
  obtain ⟨q, hq, hsub⟩ := perform_gives (validationReads_by s x) h.path (v := (s.validate x).1) (u := (s.validate x).2) rfl
  refine ⟨(s.validate x).2.queued q, ⟨?_, ?_, readThrough_wf _ h.form, ?_, fun y hy => ?_⟩, ?_⟩
  · have hl : s.ReadLeaves (s.validate x).2 := readThrough_leaves _
    unfold State.ReadLeaves at hl
    generalize (s.validate x).2 = r at hl
    rw [hl]
    rfl
  · exact readThrough_noticed _ (by decide) (by decide)
  · have := (perform_keeps (s.validationReads x) s).nodup h.sound.requests
    rwa [hq] at this
  · rcases h.path.others y (hsub y hy) with rfl | hp
    · decide
    · exact Nat.lt_trans (by decide) hp
  · have hexec : execBankValidationEnd s = .next (s.close (((s.perform (s.validationReads x)).2).endValidation x k
        (s.perform (s.validationReads x)).1)) := by
      unfold execBankValidationEnd
      rw [h.validation, h.got]
      rfl
    exact hexec.trans (by rw [hq])

/-- What the end of the validation leaves before its command completes lets the result word be written (R178). -/
theorem State.BankRead.resultFree (hu : s.BankRead u) (h : s.Validating x k)
    (hw : w = { u with
      banks := w.banks, screening := w.screening, journal := w.journal
      status := { u.status with notices := w.status.notices } }) : s.ResultFree w where
  slots := by rw [hw, hu.frame]
  results := h.results
  reader := by rw [hw, hu.frame]; exact h.path.reader
  processor := by rw [hw, hu.frame]; exact h.path.processor
  others := by rw [hw]; exact hu.others
  requests := by rw [hw]; exact hu.requests
  stale := by rw [hw, hu.frame]; exact h.sound.stale
  form := by rw [hw]; exact hu.form

/-- How the statement of R50 has a validation of bank `x` fail, with the detail and the Detail Value of the command in slot `k`
and the bank's state and Version. -/
def State.ValidationFails (s : State) (x : BankId) (k : SlotId) (detail : Detail) (value : Option Word) (state : BankState)
    (version : Word) : Prop :=
  ∃ t, exec .bankValidationEnd s = .next t
    ∧ ({ s with
          memory := t.memory, slots := t.slots, faultRecord := t.faultRecord, budget := t.budget, banks := t.banks
          screening := t.screening, status := { s.status with notices := t.status.notices } }).Mirrored t
    ∧ t.banks.validation = none ∧ t.banks.got = [] ∧ t.banks.fallback = s.banks.fallback ∧ t.banks.due = s.banks.due
    ∧ t.bank x = { state := some state, pins := (s.bank x).pins, version := version }
    ∧ (∀ y, y ≠ x → t.bank y = s.bank y)
    ∧ t.slot k = { s.slot k with
        busy := false, reading := none, command := none, detailValue := value.getD (s.slot k).detailValue }
    ∧ (∀ j, j ≠ k → t.slot j = s.slot j)
    ∧ t.memory.word (s.slotAddress k 6) = resultWord (s.slot k).lastTaken .badTable detail
    ∧ (∀ v, value = some v → t.memory.word (s.statusAddress (208 + k.val)) = v)
    ∧ (∀ b, (b < s.slotAddress k 6 ∨ s.slotAddress k 6 + 4 ≤ b) →
        (value = none ∨ b < s.statusAddress 0 ∨ s.statusAddress (209 + k.val) ≤ b) → t.memory.byte b = s.memory.byte b)
    ∧ (t.noticed .bank = true ↔ s.noticed .bank = true ∨ state = .damaged)
    ∧ (state ≠ .damaged → t.screening = s.screening)
    ∧ ∀ r, state = .damaged → s.screening.run = some r → t.screening = { s.screening with
        run := some (if (s.lane r.lane).pinned = some x then { r with bankDamaged := true } else r) }

/-- A failure that a validation finds ends it so (R50); the Detail Value of one that names an index is shown in READY. -/
theorem validation_fails (h : s.Validating x k) (hv : (s.validate x).1 = ⟨some f, version⟩)
    (hvalue : f.2 = none ∨ s.unit = .ready ∧ s.StatusApart) :
    s.ValidationFails x k f.1 (f.2.map (BitVec.ofNat 32)) f.leaves (version.getD (s.bank x).version) := by
  obtain ⟨u, hu, hexec⟩ := validation_read h
  rw [hv] at hexec
  have hi := invalidated_effect u x version f
  have hend : u.endValidation x k ⟨some f, version⟩ =
      (u.invalidated x version f).complete k .badTable f.1 (f.2.map (BitVec.ofNat 32)) := rfl
  rw [hend] at hexec
  generalize u.invalidated x version f = w at hi hexec
  have hfree : s.ResultFree w := hu.resultFree h (by have := hi.frame; generalize w.banks = b at this; rw [this])
  have hws : w = { s with
      memory := { s.memory with upsets := u.memory.upsets }, budget := u.budget, faultRecord := u.faultRecord
      banks := w.banks, screening := w.screening, status := { s.status with notices := w.status.notices }
      arbiter := { s.arbiter with requests := u.arbiter.requests } } := by
    have h1 := hi.frame
    have h2 := hu.frame
    generalize w.banks = b, w.screening = c, w.status.notices = n at h1
    rw [h1]
    generalize u.memory.upsets = m1, u.budget = m2, u.faultRecord = m3, u.status.notices = m4, u.arbiter.requests = m5 at h2
    rw [h2]
  have hcompleted : w.CompletedAs k .badTable f.1 (f.2.map (BitVec.ofNat 32))
      (s.close (w.complete k .badTable f.1 (f.2.map (BitVec.ofNat 32)))) := by
    rcases hf : f.2 with _ | i
    · exact close_completed hfree k _ _
    · obtain ⟨hready, hapart⟩ := hvalue.resolve_left (by simp [hf])
      exact close_completed_value hfree (by rw [hws]; exact hready) (by rw [hws]; exact hapart) k _ _ _
  refine ⟨_, hexec, ?_⟩
  generalize s.close (w.complete k .badTable f.1 (f.2.map (BitVec.ofNat 32))) = t at hcompleted
  obtain ⟨hframe, hslot, hothers, hword, hshown, hbytes⟩ := hcompleted
  have hwslot (j : SlotId) : w.slot j = s.slot j := hfree.slot j
  have hbank (y : BankId) : t.bank y = w.bank y := by unfold State.bank; rw [hframe.banks]
  have hsb (y : BankId) : u.bank y = s.bank y := by rw [hu.frame]; rfl
  have hslotAddress (i : Nat) : w.slotAddress k i = s.slotAddress k i := by rw [hws]; rfl
  have hstatusAddress (i : Nat) : w.statusAddress i = s.statusAddress i := by rw [hws]; rfl
  have hmemory (b : Nat) : w.memory.byte b = s.memory.byte b := by rw [hws]; rfl
  have hnotices : t.status.notices = w.status.notices := by rw [show t = _ from hframe]
  have hnoticed : t.noticed .bank = w.noticed .bank := by unfold State.noticed; rw [hnotices]
  rw [hwslot] at hslot hword
  rw [hslotAddress] at hword
  simp only [hstatusAddress, hslotAddress, hmemory] at hshown hbytes
  refine ⟨?_, ?_, ?_, ?_, ?_, ?_, fun y hy => ?_, hslot, fun j hj => (hothers j hj).trans (hwslot j), hword, hshown, hbytes,
    ?_, fun hd => ?_, fun r hd hr => ?_⟩
  · have hrecord : t.faultRecord = u.faultRecord := by rw [show t = _ from hframe, hws]
    have hbudget : t.budget = u.budget := by rw [show t = _ from hframe, hws]
    rw [hnotices, hframe.banks, hframe.screening, hrecord, hbudget]
    unfold State.Mirrored at hframe ⊢
    generalize w.banks = w1, w.screening = w2, w.status.notices = w3 at hws hframe ⊢
    rw [hws] at hframe
    exact hframe
  · rw [hframe.banks, hi.validation]
  · rw [hframe.banks, hi.got]
  · rw [hframe.banks, hi.fallback, hu.frame]
  · rw [hframe.banks, hi.due, hu.frame]
  · rw [hbank, hi.bank, hsb]
  · rw [hbank, hi.others y hy, hsb]
  · rw [hnoticed, hi.noticed, hu.noticed]
  · rw [hframe.screening, hi.kept hd, hu.frame]
  · rw [hframe.screening, hi.marked r hd (by rw [hu.frame]; exact hr), hu.frame]
    rfl

/-- A validation that finds no failure makes its bank ACTIVE (R49). -/
theorem validation_succeeds {version : Word} (h : s.Validating x k) (hv : (s.validate x).1 = ⟨none, some version⟩) :
    ∃ t, exec .bankValidationEnd s = .next t
      ∧ ({ s with
            memory := t.memory, slots := t.slots, faultRecord := t.faultRecord, budget := t.budget, banks := t.banks
            journal := t.journal, status := { s.status with notices := t.status.notices } }).Mirrored t
      ∧ s.Switched x version { s with
          banks := t.banks, journal := t.journal, status := { s.status with notices := t.status.notices } }
      ∧ t.slot k = { s.slot k with busy := false, reading := none, command := none }
      ∧ (∀ j, j ≠ k → t.slot j = s.slot j)
      ∧ t.memory.word (s.slotAddress k 6) = resultWord (s.slot k).lastTaken .done .none
      ∧ s.SameBytesBut t (s.slotAddress k 6) 4 := by
  obtain ⟨u, hu, hexec⟩ := validation_read h
  rw [hv] at hexec
  have hstate : (u.bank x).state ≠ some .active := by
    have : u.bank x = s.bank x := by rw [hu.frame]; rfl
    rw [this, h.state]
    simp
  have hi := switched_effect u x version hstate
  have hend : u.endValidation x k ⟨none, some version⟩ = (u.switched x (some version)).complete k .done := rfl
  rw [hend] at hexec
  generalize u.switched x (some version) = w at hi hexec
  have hfree : s.ResultFree w := hu.resultFree h (by
    have := hi.frame
    generalize w.banks = b, w.journal = j at this
    rw [this])
  have hws : w = { s with
      memory := { s.memory with upsets := u.memory.upsets }, budget := u.budget, faultRecord := u.faultRecord
      banks := w.banks, journal := w.journal, status := { s.status with notices := w.status.notices }
      arbiter := { s.arbiter with requests := u.arbiter.requests } } := by
    have h1 := hi.frame
    have h2 := hu.frame
    generalize w.banks = b, w.journal = c, w.status.notices = n at h1
    rw [h1]
    generalize u.memory.upsets = m1, u.budget = m2, u.faultRecord = m3, u.status.notices = m4, u.arbiter.requests = m5 at h2
    rw [h2]
  have hcompleted := close_completed hfree k .done .none
  refine ⟨_, hexec, ?_⟩
  generalize s.close (w.complete k .done) = t at hcompleted
  obtain ⟨hframe, hslot, hothers, hword, -, hbytes⟩ := hcompleted
  have hwslot (j : SlotId) : w.slot j = s.slot j := hfree.slot j
  have hslotAddress (i : Nat) : w.slotAddress k i = s.slotAddress k i := by rw [hws]; rfl
  have hmemory (b : Nat) : w.memory.byte b = s.memory.byte b := by rw [hws]; rfl
  have hnotices : t.status.notices = w.status.notices := by rw [show t = _ from hframe]
  rw [hwslot] at hslot hword
  rw [hslotAddress] at hword
  simp only [hslotAddress, hmemory] at hbytes
  refine ⟨?_, ?_, hslot, fun j hj => (hothers j hj).trans (hwslot j), hword, fun b hb => hbytes b hb (.inl trivial)⟩
  · have hrecord : t.faultRecord = u.faultRecord := by rw [show t = _ from hframe, hws]
    have hbudget : t.budget = u.budget := by rw [show t = _ from hframe, hws]
    rw [hnotices, hframe.banks, hframe.journal, hrecord, hbudget]
    unfold State.Mirrored at hframe ⊢
    generalize w.banks = w1, w.journal = w2, w.status.notices = w3 at hws hframe ⊢
    rw [hws] at hframe
    exact hframe
  · rw [hnotices, hframe.banks, hframe.journal]
    refine ⟨rfl, hi.validation, hi.got, hi.fallback, ?_, ?_, fun y hy => ?_, hi.noticed, ?_⟩
    · rw [hu.frame] at hi; exact hi.due
    · rw [hu.frame] at hi; exact hi.bank
    · rw [hu.frame] at hi; exact hi.others y hy
    · rw [hu.frame] at hi
      refine hi.journal.trans (request_congr (request_congr rfl rfl) ?_)
      rw [request_frame, request_frame (s := { s with journal := _ })]

end

end Sys2Proof.Machine

/-! ### The tests of a validation over the words of its bank (R48, 12.7) -/

namespace Sys2Proof.Machine

section
variable {f g : Nat → Nat} {w : Nat → Word} {n i limit : Nat} {α β : Type} {m : Memory}

theorem bytesOf_word (m : Memory) (a : Nat) :
    bytesOf (m.word a) = [m.byte a, m.byte (a + 1), m.byte (a + 2), m.byte (a + 3)] := by
  have h0 := (m.byte a).isLt
  have h1 := (m.byte (a + 1)).isLt
  have h2 := (m.byte (a + 2)).isLt
  have h3 := (m.byte (a + 3)).isLt
  have hw := wordOfBytes_toNat (m.byte a) (m.byte (a + 1)) (m.byte (a + 2)) (m.byte (a + 3))
  simp only [bytesOf, Memory.word, List.cons.injEq, and_true]
  refine ⟨?_, ?_, ?_, ?_⟩ <;> apply BitVec.eq_of_toNat_eq <;>
    simp only [byteOf, bits, BitVec.toNat_ofNat, hw] <;> omega

/-- The bytes of words at consecutive addresses are those of memory (R191). -/
theorem bytesOf_words (m : Memory) (a n : Nat) :
    ((List.range n).map (fun i => m.word (a + 4 * i))).flatMap bytesOf =
      (List.range (4 * n)).map (fun i => m.byte (a + i)) := by
  induction n with
  | zero => rfl
  | succ n ih =>
    rw [List.range_succ, List.map_append, List.flatMap_append, ih, Nat.mul_succ, List.range_add, List.map_append]
    simp [bytesOf_word, List.range_succ, Nat.add_assoc]

/-! #### First indices -/

theorem firstNotRising_none {l : List Nat} (b : Nat) (h : ∀ i (hi : i + 1 < l.length), l[i] < l[i + 1]) :
    firstNotRising b l = none := by
  induction l generalizing b with
  | nil => rfl
  | cons x l ih =>
    cases l with
    | nil => rfl
    | cons y rest =>
      have hxy : x < y := h 0 (by simp)
      rw [firstNotRising, if_pos hxy]
      exact ih _ fun i hi => h (i + 1) (by simpa using hi)

theorem firstNotRising_some {l : List Nat} (b : Nat) (hi : i + 1 < l.length) (hbad : ¬l[i] < l[i + 1])
    (hfirst : ∀ j (_ : j < i), l[j] < l[j + 1]) : firstNotRising b l = some (b + i + 1) := by
  induction l generalizing b i with
  | nil => simp at hi
  | cons x l ih =>
    cases l with
    | nil => simp at hi
    | cons y rest =>
      rw [firstNotRising]
      cases i with
      | zero => exact if_neg hbad
      | succ i =>
        have hxy : x < y := hfirst 0 (by omega)
        rw [if_pos hxy, ih (b + 1) (by simpa using hi) hbad fun j hj => hfirst (j + 1) (by omega)]
        congr 1
        omega

/-- The first index at which numbers laid out in order do not rise. -/
theorem firstNotRising_range (h : 0 < i ∧ i < n ∧ f i ≤ f (i - 1)) (hfirst : ∀ j, j < i → ¬(0 < j ∧ j < n ∧ f j ≤ f (j - 1))) :
    firstNotRising 0 ((List.range n).map f) = some i := by
  obtain ⟨hpos, hlt, hle⟩ := h
  obtain ⟨i, rfl⟩ : ∃ j, i = j + 1 := ⟨i - 1, by omega⟩
  rw [firstNotRising_some 0 (i := i) (by simpa using hlt) (by simpa using hle)]
  · congr 1
    omega
  · intro j hj
    have := hfirst (j + 1) (by omega)
    have hjn : j + 1 < n := by omega
    simp only [Nat.succ_pos, hjn, true_and, Nat.add_sub_cancel, Nat.not_le] at this
    simpa using this

theorem firstNotRising_range_none (h : ∀ i, ¬(0 < i ∧ i < n ∧ f i ≤ f (i - 1))) :
    firstNotRising 0 ((List.range n).map f) = none :=
  firstNotRising_none 0 fun i hi => by
    have hin : i + 1 < n := by simpa using hi
    have := h (i + 1)
    simp only [Nat.succ_pos, hin, true_and, Nat.add_sub_cancel, Nat.not_le] at this
    simpa using this

/-- The first index at which a word laid out in order fails a test. -/
theorem findIdx?_range {a : Nat → α} {p : α → Bool} (hi : i < n) (hbad : p (a i) = true)
    (hfirst : ∀ j, j < i → p (a j) = false) : ((List.range n).map a).findIdx? p = some i := by
  rw [List.findIdx?_eq_some_iff_getElem]
  refine ⟨by simpa using hi, by simpa using hbad, fun j hj => ?_⟩
  simpa using hfirst j hj

theorem findIdx?_range_none {a : Nat → α} {p : α → Bool} (h : ∀ i, i < n → p (a i) = false) :
    ((List.range n).map a).findIdx? p = none := by
  rw [List.findIdx?_eq_none_iff]
  intro x hx
  obtain ⟨i, hi, rfl⟩ := List.mem_map.1 hx
  exact h i (List.mem_range.1 hi)

/-! #### The words of a bank from offset 64 on -/

/-- The Serials of deny entries laid out in order (R43). -/
theorem denySerials_range (w : Nat → Word) (n : Nat) :
    denySerials ((List.range (4 * n)).map w) =
      (List.range n).map (fun i => (w (4 * i + 1) ++ w (4 * i)).toNat) := by
  induction n generalizing w with
  | zero => rfl
  | succ n ih =>
    have hsplit : (List.range (4 * (n + 1))).map w =
        w 0 :: w 1 :: w 2 :: w 3 :: (List.range (4 * n)).map (fun i => w (i + 4)) := by
      rw [show 4 * (n + 1) = 4 + 4 * n by omega, List.range_add, List.map_append, List.map_map]
      simp [List.range_succ, Nat.add_comm, Function.comp_def]
    rw [hsplit, denySerials, ih, serialOf_eq, List.range_succ_eq_map, List.map_cons, List.map_map]
    rfl

/-- The tests of R48 from the third on, over the words `w 0`, `w 1`, … from offset 64 of a bank with `count` deny entries. -/
theorem bankTests_range (bankCheck : Word) (w : Nat → Word) (count : Nat) :
    bankTests bankCheck ((List.range (240 + 4 * count)).map w) =
      [ if crc32 (((List.range (240 + 4 * count)).map w).flatMap bytesOf) = bankCheck then none else some (.check, none),
        (firstNotRising 0 ((List.range count).map
          (fun i => (w (240 + (4 * i + 1)) ++ w (240 + 4 * i)).toNat))).map (fun i => (.denyOrder, some i)),
        if 1 ≤ (w 128).toNat ∧ (w 128).toNat ≤ 8 then none else some (.bandCount, none),
        (firstNotRising 0 ((List.range (min 8 (w 128).toNat)).map (fun i => bits (w (129 + i)) 0 16))).map
          (fun i => (.bandOrder, some i)),
        (((List.range (min 8 (w 128).toNat)).map (fun i => bits (w (129 + i)) 16 16)).findIdx?
          (fun v => decide (2000 < v))).map (fun i => (.bandFactor, some i)),
        (((List.range 16).map (fun i => w (137 + 2 * i))).findIdx? (fun v => !([1, 2, 3].contains (bits v 0 8)))).map
          (fun i => (.productKind, some i)),
        (((List.range 16).map (fun i => bits (w (137 + 2 * i)) 16 16)).findIdx? (fun v => decide (1000 < v))).map
          (fun i => (.productFactor, some i)) ] := by
  have hget (i : Nat) (hi : i < 240) : ((List.range (240 + 4 * count)).map w).getD i 0 = w i := by
    simp [List.getD, show i < 240 + 4 * count by omega]
  have hdrop : ((List.range (240 + 4 * count)).map w).drop 240 = (List.range (4 * count)).map (fun i => w (240 + i)) := by
    rw [List.range_add, List.map_append, List.drop_append_of_le_length (by simp), List.map_map]
    simp [Function.comp_def]
  have hbands : (((List.range (240 + 4 * count)).map w).drop 129).take (min 8 (w 128).toNat) =
      (List.range (min 8 (w 128).toNat)).map (fun i => w (129 + i)) := by
    apply List.ext_getElem
    · simp
      omega
    · intro i h1 h2
      simp
  have hrows : (List.range 16).map (fun i => ((List.range (240 + 4 * count)).map w).getD (137 + 2 * i) 0) =
      (List.range 16).map (fun i => w (137 + 2 * i)) :=
    List.map_congr_left fun i hi => hget _ (by have := List.mem_range.1 hi; omega)
  unfold bankTests firstAbove
  dsimp only
  rw [hget 128 (by omega), hdrop, hbands, hrows, denySerials_range]
  simp only [List.map_map, Function.comp_def]

end

end Sys2Proof.Machine

/-! ### What a validation finds, and how it ends (R48 to R50) -/

namespace Sys2Proof.Machine

section
variable {s : State} {x : BankId} {i : Nat}

/-! #### The reads of a validation -/

theorem validation_found (hw : s.memory.wf = true) : (s.validate x).1 = (s.validationReads x).finds s.memory :=
  readThrough_finds hw _

theorem validation_unreadable (h : s.memory.health (s.bankAddress x 0) = .uncorrectable) :
    (s.validationReads x).finds s.memory = ⟨some (.memory, none), none⟩ := by
  rw [State.validationReads, Reads.finds, delivers_none h]
  rfl

theorem validation_unversioned (h : s.memory.health (s.bankAddress x 0) ≠ .uncorrectable)
    (h0 : s.memory.word (s.bankAddress x 0) = 0) :
    (s.validationReads x).finds s.memory = ⟨some (.version, none), some 0⟩ := by
  rw [State.validationReads, Reads.finds, delivers_some h, h0]
  rfl

section
variable (h : s.memory.health (s.bankAddress x 0) ≠ .uncorrectable) (h0 : s.memory.word (s.bankAddress x 0) ≠ 0)
include h h0

theorem validation_uncounted (hc : s.memory.health (s.bankAddress x 4) = .uncorrectable) :
    (s.validationReads x).finds s.memory = ⟨some (.memory, none), some (s.memory.word (s.bankAddress x 0))⟩ := by
  rw [State.validationReads, Reads.finds, delivers_some h]
  dsimp only
  rw [if_neg h0, Reads.finds, delivers_none hc]
  rfl

variable (hc : s.memory.health (s.bankAddress x 4) ≠ .uncorrectable)
include hc

theorem validation_overfull (hl : (s.regionSize (bankKind x) - 1024) / 16 < (s.memory.word (s.bankAddress x 4)).toNat) :
    (s.validationReads x).finds s.memory = ⟨some (.denyCount, none), some (s.memory.word (s.bankAddress x 0))⟩ := by
  rw [State.validationReads, Reads.finds, delivers_some h]
  dsimp only
  rw [if_neg h0, Reads.finds, delivers_some hc]
  dsimp only
  rw [if_pos (by exact hl)]
  rfl

variable (hl : (s.memory.word (s.bankAddress x 4)).toNat ≤ (s.regionSize (bankKind x) - 1024) / 16)
include hl

theorem validation_lost
    (hlost : ¬(s.memory.health (s.bankAddress x 8) ≠ .uncorrectable
      ∧ ∀ i, i < 240 + 4 * (s.memory.word (s.bankAddress x 4)).toNat →
        s.memory.health (s.bankAddress x (64 + 4 * i)) ≠ .uncorrectable)) :
    (s.validationReads x).finds s.memory = ⟨some (.memory, none), some (s.memory.word (s.bankAddress x 0))⟩ := by
  obtain ⟨a, ha, hu⟩ : ∃ a ∈ s.bankAddress x 8 ::
      wordRun (s.bankAddress x 64) (240 + 4 * (s.memory.word (s.bankAddress x 4)).toNat),
      s.memory.health a = .uncorrectable := by
    by_contra hnone
    push Not at hnone
    refine hlost ⟨hnone _ (by simp), fun i hi => hnone _ (List.mem_cons_of_mem _ (List.mem_map.2 ⟨i, by simpa using hi, ?_⟩))⟩
    exact Nat.add_assoc ..
  rw [State.validationReads, Reads.finds, delivers_some h]
  dsimp only
  rw [if_neg h0, Reads.finds, delivers_some hc]
  dsimp only
  rw [if_neg (by exact Nat.not_lt.2 hl), finds_bind, finds_words_lost ha hu]
  rfl

theorem validation_tested
    (hcovered : s.memory.health (s.bankAddress x 8) ≠ .uncorrectable
      ∧ ∀ i, i < 240 + 4 * (s.memory.word (s.bankAddress x 4)).toNat →
        s.memory.health (s.bankAddress x (64 + 4 * i)) ≠ .uncorrectable) :
    (s.validationReads x).finds s.memory =
      ⟨(bankTests (s.memory.word (s.bankAddress x 8))
          ((List.range (240 + 4 * (s.memory.word (s.bankAddress x 4)).toNat)).map
            (fun i => s.memory.word (s.bankAddress x (64 + 4 * i))))).findSome? id,
        some (s.memory.word (s.bankAddress x 0))⟩ := by
  have hread : ∀ a ∈ s.bankAddress x 8 ::
      wordRun (s.bankAddress x 64) (240 + 4 * (s.memory.word (s.bankAddress x 4)).toNat),
      s.memory.health a ≠ .uncorrectable := by
    intro a ha
    rcases List.mem_cons.1 ha with rfl | ha
    · exact hcovered.1
    · obtain ⟨i, hi, rfl⟩ := List.mem_map.1 ha
      have := hcovered.2 i (List.mem_range.1 hi)
      rwa [State.bankAddress, ← Nat.add_assoc] at this
  rw [State.validationReads, Reads.finds, delivers_some h]
  dsimp only
  rw [if_neg h0, Reads.finds, delivers_some hc]
  dsimp only
  rw [if_neg (by exact Nat.not_lt.2 hl), finds_bind, finds_words hread]
  simp only [List.map_cons, Reads.finds, wordRun, List.map_map, State.bankAddress, Function.comp_def, Nat.add_assoc]

/-- What the tests of R48 find in a bank whose words they can read: the first failure, in order. -/
theorem validation_tests
    (hcovered : s.memory.health (s.bankAddress x 8) ≠ .uncorrectable
      ∧ ∀ i, i < 240 + 4 * (s.memory.word (s.bankAddress x 4)).toNat →
        s.memory.health (s.bankAddress x (64 + 4 * i)) ≠ .uncorrectable) :
    let word (o : Nat) : Word := s.memory.word (s.bankAddress x o)
    (s.validationReads x).finds s.memory =
      ⟨[ if crc32 ((List.range (960 + 16 * (word 4).toNat)).map (fun i => s.memory.byte (s.bankAddress x (64 + i)))) = word 8
            then none else some (.check, none),
          (firstNotRising 0 ((List.range (word 4).toNat).map
            (fun i => (word (1028 + 16 * i) ++ word (1024 + 16 * i)).toNat))).map (fun i => (.denyOrder, some i)),
          if 1 ≤ (word 576).toNat ∧ (word 576).toNat ≤ 8 then none else some (.bandCount, none),
          (firstNotRising 0 ((List.range (min 8 (word 576).toNat)).map (fun i => bits (word (580 + 4 * i)) 0 16))).map
            (fun i => (.bandOrder, some i)),
          (((List.range (min 8 (word 576).toNat)).map (fun i => bits (word (580 + 4 * i)) 16 16)).findIdx?
            (fun v => decide (2000 < v))).map (fun i => (.bandFactor, some i)),
          (((List.range 16).map (fun i => word (612 + 8 * i))).findIdx?
            (fun v => !([1, 2, 3].contains (bits v 0 8)))).map (fun i => (.productKind, some i)),
          (((List.range 16).map (fun i => bits (word (612 + 8 * i)) 16 16)).findIdx?
            (fun v => decide (1000 < v))).map (fun i => (.productFactor, some i)) ].findSome? id,
        some (word 0)⟩ := by
  intro word
  have hbytes := bytesOf_words s.memory (s.bankAddress x 64) (240 + 4 * (word 4).toNat)
  have hoffset (o i : Nat) : s.bankAddress x o + i = s.bankAddress x (o + i) := Nat.add_assoc ..
  simp only [hoffset] at hbytes
  rw [validation_tested h h0 hc hl hcovered, bankTests_range, hbytes]
  have hserial (i : Nat) : 64 + 4 * (240 + (4 * i + 1)) = 1028 + 16 * i ∧ 64 + 4 * (240 + 4 * i) = 1024 + 16 * i := by omega
  have hband (i : Nat) : 64 + 4 * (129 + i) = 580 + 4 * i := by omega
  have hrow (i : Nat) : 64 + 4 * (137 + 2 * i) = 612 + 8 * i := by omega
  have hlength : 4 * (240 + 4 * (word 4).toNat) = 960 + 16 * (word 4).toNat := by omega
  simp only [(hserial _).1, (hserial _).2, hband, hrow, hlength]
  rfl

end

theorem kindUnlisted_iff (n : Nat) : (!([1, 2, 3].contains n)) = true ↔ ¬(1 ≤ n ∧ n ≤ 3) := by
  simp
  omega

theorem kindListed_iff (n : Nat) : (!([1, 2, 3].contains n)) = false ↔ 1 ≤ n ∧ n ≤ 3 := by
  simp
  omega

/-- Settles O49: the tests in order, the first that fails ending the validation, and the switch where none does. -/
theorem bankValidationEnds : Obligations.BankValidationEnds := by
  intro s x k hvalidation hwf hgot hpath hsound hresults hstate failing failed v c
  have hs : s.Validating x k := ⟨hvalidation, hwf, hgot, hpath, hsound, hresults, hstate⟩
  have hfailed (detail : Detail) (version : Option Word)
      (hf : (s.validationReads x).finds s.memory = ⟨some (detail, none), version⟩) :
      failed detail (BankFailure.leaves (detail, none)) (version.getD (s.bank x).version) :=
    validation_fails hs ((validation_found hwf).trans hf) (.inl rfl)
  have hfailing (detail : Detail) (i : Nat) (version : Option Word) (hready : s.unit = .ready) (hapart : s.StatusApart)
      (hf : (s.validationReads x).finds s.memory = ⟨some (detail, some i), version⟩) :
      failing detail (some (BitVec.ofNat 32 i)) (BankFailure.leaves (detail, some i)) (version.getD (s.bank x).version) :=
    validation_fails hs ((validation_found hwf).trans hf) (.inr ⟨hready, hapart⟩)
  have hclean (a : Nat) (h : s.memory.health a = .clean) : s.memory.health a ≠ .uncorrectable := by simp [h]
  refine ⟨fun h _ => hfailed .memory _ (validation_unreadable h), fun h h0 => hfailed .version _ (validation_unversioned (hclean _ h) h0),
    fun h h0 hc hl => hfailed .denyCount _ (validation_overfull (hclean _ h) h0 (hclean _ hc) hl),
    fun h h0 hc _ => hfailed .memory _ (validation_uncounted (hclean _ h) h0 hc), ?tests, fun version hv => ?switch⟩
  case tests =>
    intro word count readable covered serial bands start row first check denyOrder bandOrder bandFactor productKind productFactor
      ordered counted rising factored kinds at_ hready h hc h0 hl
    refine ⟨fun hlost => hfailed .memory _ (validation_lost h h0 hc hl hlost), fun hcovered => ?_⟩
    have htests := validation_tests h h0 hc hl hcovered
    dsimp only at htests
    have hcount (hcounted : counted) : min 8 bands = bands := Nat.min_eq_right hcounted.2
    have hordered (ho : ordered) := firstNotRising_range_none (n := count) (f := fun i => (serial i).toNat) ho
    have hrising (hr : rising) := firstNotRising_range_none (n := bands) (f := start) hr
    have hfactored (hf : factored) :
        ((List.range bands).map (fun i => bits (word (580 + 4 * i)) 16 16)).findIdx? (fun v => decide (2000 < v)) = none :=
      findIdx?_range_none fun i hi => decide_eq_false fun hlt => hf i ⟨hi, hlt⟩
    have hkinds (hk : kinds) :
        ((List.range 16).map (fun i => word (612 + 8 * i))).findIdx? (fun v => !([1, 2, 3].contains (bits v 0 8))) = none :=
      findIdx?_range_none fun i hi => (kindListed_iff _).2 (by_contra fun hbad => hk i ⟨hi, hbad⟩)
    refine ⟨fun hcheck => ?_, fun i hcheck hi hapart => ?_, fun hcheck ho hcounted => ?_, fun i hcheck ho hcounted hi hapart => ?_,
      fun i hcheck ho hcounted hr hi hapart => ?_, fun i hcheck ho hcounted hr hfa hi hapart => ?_,
      fun i hcheck ho hcounted hr hfa hk hi hapart => ?_, fun hcheck ho hcounted hr hfa hk hp => ?_⟩
    · exact hfailed .check _ (htests.trans (by rw [if_neg hcheck]; rfl))
    · exact hfailing .denyOrder i _ hready hapart (htests.trans (by
        rw [if_pos hcheck, firstNotRising_range (f := fun i => (serial i).toNat) hi.1 hi.2]; rfl))
    · exact hfailed .bandCount _ (htests.trans (by rw [if_pos hcheck, hordered ho, if_neg hcounted]; rfl))
    · exact hfailing .bandOrder i _ hready hapart (htests.trans (by
        rw [if_pos hcheck, hordered ho, if_pos hcounted, hcount hcounted, firstNotRising_range (f := start) hi.1 hi.2]; rfl))
    · exact hfailing .bandFactor i _ hready hapart (htests.trans (by
        rw [if_pos hcheck, hordered ho, if_pos hcounted, hcount hcounted, hrising hr,
          findIdx?_range (a := fun i => bits (word (580 + 4 * i)) 16 16) hi.1.1 (decide_eq_true hi.1.2)
            (fun j hj => decide_eq_false fun hlt => hi.2 j hj ⟨hj.trans hi.1.1, hlt⟩)]; rfl))
    · exact hfailing .productKind i _ hready hapart (htests.trans (by
        rw [if_pos hcheck, hordered ho, if_pos hcounted, hcount hcounted, hrising hr, hfactored hfa,
          findIdx?_range (a := fun i => word (612 + 8 * i)) hi.1.1 ((kindUnlisted_iff _).2 hi.1.2)
            (fun j hj => (kindListed_iff _).2 (by_contra fun hbad => hi.2 j hj ⟨hj.trans hi.1.1, hbad⟩))]; rfl))
    · exact hfailing .productFactor i _ hready hapart (htests.trans (by
        rw [if_pos hcheck, hordered ho, if_pos hcounted, hcount hcounted, hrising hr, hfactored hfa, hkinds hk,
          findIdx?_range (a := fun i => bits (word (612 + 8 * i)) 16 16) hi.1.1 (decide_eq_true hi.1.2)
            (fun j hj => decide_eq_false fun hlt => hi.2 j hj ⟨hj.trans hi.1.1, hlt⟩)]; rfl))
    · refine (validation_found hwf).trans (htests.trans ?_)
      have hfactors : ((List.range 16).map (fun i => bits (word (612 + 8 * i)) 16 16)).findIdx?
          (fun v => decide (1000 < v)) = none :=
        findIdx?_range_none fun i hi => decide_eq_false fun hlt => hp i ⟨hi, hlt⟩
      rw [if_pos hcheck, hordered ho, if_pos hcounted, hcount hcounted, hrising hr, hfactored hfa, hkinds hk, hfactors]
      rfl
  case switch =>
    intro former
    obtain ⟨t, hexec, hm, hsw, hrest⟩ := validation_succeeds hs hv
    exact ⟨t, hexec, hm, hsw.validation, hsw.got, hsw.fallback, hsw.due, hsw.bank, hsw.others, hsw.noticed, hsw.journal, hrest⟩

end

end Sys2Proof.Machine

/-! ### Reads in the place of several blocks, and the faults they leave (R166, R170) -/

namespace Sys2Proof.Machine

section
variable {s t u : State} {α β : Type} {p : Reads α} {P : Block → Prop} {a : Nat} {l : List Nat} {b : Block} {m : Memory}

/-! #### Reads of several blocks -/

/-- Every read of `p` is one of a block that `P` names. -/
inductive Reads.Among {α : Type} (P : Block → Prop) : Reads α → Prop
  | done (r : α) : Reads.Among P (.done r)
  | read {b : Block} (hb : P b) (a : Nat) (next : Option Word → Reads α) (h : ∀ w, Reads.Among P (next w)) :
      Reads.Among P (.read b a next)

theorem Reads.By.among (h : Reads.By b p) (hb : P b) : Reads.Among P p := by
  induction h with
  | done r => exact .done r
  | read a next _ ih => exact .read hb a next ih

theorem Reads.Among.bind {f : α → Reads β} (hp : Reads.Among P p) (hf : ∀ r, Reads.Among P (f r)) :
    Reads.Among P (p.bind f) := by
  induction hp with
  | done r => exact hf r
  | read hb a next _ ih => exact .read hb a _ ih

/-- The reads of a row, where nothing goes before the words of its blocks, deliver and leave what they do without the
arbiter, but for the requests (R166). -/
theorem perform_among (hr : Reads.Among P p) (h : ∀ b, P b → s.PathFree b b.requester.place) :
    ∃ q, s.perform p = ((s.readThrough p).1, (s.readThrough p).2.queued q) ∧ ∀ y ∈ q, y ∈ s.arbiter.requests := by
  suffices hsuff : ∃ q, s.perform p = ((s.readThrough p).1,
      { (s.readThrough p).2 with arbiter := { s.arbiter with requests := q } }) ∧ ∀ y ∈ q, y ∈ s.arbiter.requests by
    obtain ⟨q, hq, hsub⟩ := hsuff
    refine ⟨q, ?_, hsub⟩
    have hl := readThrough_leaves (s := s) p
    have harb : (s.readThrough p).2.arbiter = s.arbiter := by rw [show (s.readThrough p).2 = _ from hl]
    rw [hq, State.queued, harb]
  induction hr generalizing s with
  | done r => exact ⟨s.arbiter.requests, rfl, fun _ => id⟩
  | @read b hb a next _ ih =>
    have hl := readWord_leaves (s := s.retract b) a
    have he := readWord_arbiter (s := s) { s.arbiter with requests := s.arbiter.requests.erase b } a
    have hretract : s.retract b = { s with arbiter := { s.arbiter with requests := s.arbiter.requests.erase b } } := rfl
    obtain ⟨q, h1, h2⟩ := ih ((s.readWord a).1) (s := ((s.retract b).readWord a).2)
      fun c hc => ((h c hc).retract b).reads hl
    have harb : ((s.retract b).readWord a).2.arbiter = { s.arbiter with requests := s.arbiter.requests.erase b } := by
      rw [hretract, he]
    refine ⟨q, ?_, fun y hy => ?_⟩
    · rw [State.perform, State.readThrough, turn_free (h b hb)]
      rw [hretract, he] at h1 ⊢
      exact h1.trans (by rw [readThrough_arbiter])
    · have := h2 y hy
      rw [harb] at this
      exact List.mem_of_mem_erase this

/-! #### Lost words leave a fault -/

/-- Whether the reads of `p` meet an uncorrectable word of the memory `m`. -/
def Reads.Loses (m : Memory) : Reads α → Prop
  | .done _ => False
  | .read _ a next => m.health a = .uncorrectable ∨ (next (m.delivers a)).Loses m

theorem Reads.Loses.bind {f : α → Reads β} (h : p.Loses m) : (p.bind f).Loses m := by
  induction p with
  | done r => exact absurd h id
  | read b a next ih => exact h.imp id (ih _)

theorem Reads.Loses.bind_next {f : α → Reads β} (h : (f (p.finds m)).Loses m) : (p.bind f).Loses m := by
  induction p with
  | done r => exact h
  | read b a next ih => exact .inr (ih _ h)

theorem loses_wordsAfter (b : Block) (before : List Word) (ha : a ∈ l) (h : m.health a = .uncorrectable) :
    (Reads.wordsAfter b before l).Loses m := by
  induction l generalizing before with
  | nil => cases ha
  | cons c rest ih =>
    by_cases hc : m.health c = .uncorrectable
    · exact .inl hc
    · right
      rw [delivers_some hc]
      refine ih _ ((List.mem_cons.1 ha).resolve_left ?_)
      rintro rfl
      exact hc h

theorem loses_congr {m' : Memory} (h : ∀ c, m'.delivers c = m.delivers c)
    (hl : ∀ c, m'.health c = .uncorrectable ↔ m.health c = .uncorrectable) : p.Loses m' ↔ p.Loses m := by
  induction p with
  | done r => rfl
  | read b a next ih => rw [Reads.Loses, Reads.Loses, hl, h, ih]

theorem readWord_record (a : Nat) (h : s.faultRecord.first ≠ none) : (s.readWord a).2.faultRecord.first ≠ none := by
  unfold State.readWord
  split
  · exact h
  · dsimp only
    unfold State.spendCorrection
    split
    · exact h
    · dsimp only
      split <;> exact h
  · dsimp only
    unfold State.reportFault
    split
    · exact h
    · rcases hf : s.faultRecord.first with _ | f
      · exact absurd hf h
      · simp [State.notify, State.setStatus, hf]

theorem readThrough_record (h : s.faultRecord.first ≠ none) : (s.readThrough p).2.faultRecord.first ≠ none := by
  induction p generalizing s with
  | done r => exact h
  | read b a next ih => exact ih _ (readWord_record a h)

/-- Reads that meet a lost word leave a fault recorded, but in FAULTED (R170, R172). -/
theorem readThrough_faults (hw : s.memory.wf = true) (hu : s.unit ≠ .faulted) (h : p.Loses s.memory) :
    (s.readThrough p).2.faultRecord.first ≠ none := by
  induction p generalizing s with
  | done r => exact absurd h id
  | read b a next ih =>
    show (State.readThrough (s.readWord a).2 (next (s.readWord a).1)).2.faultRecord.first ≠ none
    rcases h with h | h
    · refine readThrough_record ?_
      rw [readWord_lost h, reportFault_reported hu]
      show (s.faultRecord.after _).first ≠ none
      unfold FaultRecord.after
      split <;> simp_all
    · refine ih _ (readWord_wf a hw) ?_ ?_
      · have hl := readWord_leaves (s := s) a
        rw [show (s.readWord a).2 = _ from hl]
        exact hu
      · rw [readWord_delivers]
        exact (loses_congr (fun c => delivers_readWord hw a c) (fun c => readWord_lost_iff hw a c)).2 h

end

end Sys2Proof.Machine

/-! ### What the start-up scan finds (R116) -/

namespace Sys2Proof.Machine

section
variable {s : State} {q n : Nat} {b : Block}

/-- The eight words of the slot of sequence `q` (R105). -/
def State.entryAt (s : State) (q : Nat) : Vector Word 8 :=
  Vector.ofFn (fun i : Fin 8 => s.memory.word (s.entryAddress q + 4 * i.val))

/-- A word of the slot of sequence `q` is uncorrectable (R116). -/
def State.EntryLost (s : State) (q : Nat) : Prop :=
  ∃ i : Fin 8, s.memory.health (s.entryAddress q + 4 * i.val) = .uncorrectable

/-- The slot of sequence `q` holds a valid entry with it, which a probe finds (R105, R116). -/
def State.EntryGood (s : State) (q : Nat) : Prop :=
  q ≠ 4294967295 ∧ ¬s.EntryLost q ∧ validEntry (s.entryAt q) q = true

/-! #### The reads of one slot -/

theorem entryReads_by (s : State) (b : Block) (q : Nat) : Reads.By b (s.entryReads b q) := by
  refine .bind (.words b [] _) fun words => ?_
  split <;> exact .done _

theorem entryReads_good (b : Block) (h : ¬s.EntryLost q) : (s.entryReads b q).finds s.memory = some (s.entryAt q) := by
  have hread : ∀ a ∈ wordRun (s.entryAddress q) 8, s.memory.health a ≠ .uncorrectable := by
    intro a ha hu
    obtain ⟨i, hi, rfl⟩ := List.mem_map.1 ha
    exact h ⟨⟨i, List.mem_range.1 hi⟩, hu⟩
  rw [State.entryReads, finds_bind, finds_words hread]
  rfl

theorem entryReads_lost (b : Block) (h : s.EntryLost q) : (s.entryReads b q).finds s.memory = none := by
  obtain ⟨i, hi⟩ := h
  have hmem : s.entryAddress q + 4 * i.val ∈ wordRun (s.entryAddress q) 8 :=
    List.mem_map.2 ⟨i.val, List.mem_range.2 i.isLt, rfl⟩
  rw [State.entryReads, finds_bind, finds_words_lost hmem hi]
  rfl

theorem entryReads_loses (b : Block) (h : s.EntryLost q) : (s.entryReads b q).Loses s.memory := by
  obtain ⟨i, hi⟩ := h
  have hmem : s.entryAddress q + 4 * i.val ∈ wordRun (s.entryAddress q) 8 :=
    List.mem_map.2 ⟨i.val, List.mem_range.2 i.isLt, rfl⟩
  exact (loses_wordsAfter b [] hmem hi).bind

/-! #### The probes -/

/-- What the probes from sequence `q` on find, `n` of them at most: the good entries up to the first slot without one, and the
sequence behind it where that slot is lost (R116). -/
structure State.Probed (s : State) (n q k : Nat) (p : Probes) : Prop where
  within  : k ≤ n
  next    : p.next = q + k
  entries : p.entries = (List.range k).map (fun i => s.entryAt (q + i))
  good    : ∀ i, i < k → s.EntryGood (q + i)
  ended   : k < n → ¬s.EntryGood (q + k)
  cut     : ∀ c, p.cut = some c ↔ c = q + k + 1 ∧ k < n ∧ q + k ≠ 4294967295 ∧ s.EntryLost (q + k)

theorem State.Probed.cons {k : Nat} {p : Probes} (hg : s.EntryGood q) (h : s.Probed n (q + 1) k p) :
    s.Probed (n + 1) q (k + 1) ⟨p.next, s.entryAt q :: p.entries, p.cut⟩ := by
  have hshift (i : Nat) : q + 1 + i = q + (i + 1) := by omega
  refine ⟨Nat.succ_le_succ h.within, ?_, ?_, fun i hi => ?_, fun hk => ?_, fun c => ?_⟩
  · exact h.next.trans (hshift k)
  · rw [List.range_succ_eq_map, List.map_cons, List.map_map, h.entries]
    simp [Function.comp_def, hshift]
  · cases i with
    | zero => exact hg
    | succ i => exact hshift i ▸ h.good i (by omega)
  · exact hshift k ▸ h.ended (by omega)
  · rw [h.cut, hshift]
    simp only [Nat.add_lt_add_iff_right]

theorem probes_found (s : State) (n q : Nat) : ∃ k, s.Probed n q k ((s.probeReads n q).finds s.memory) := by
  induction n generalizing q with
  | zero => exact ⟨0, ⟨Nat.le_refl _, rfl, rfl, by simp, by simp, by simp [State.probeReads, Reads.finds]⟩⟩
  | succ n ih =>
    rw [State.probeReads]
    by_cases hlast : q = Config.lastSequence
    · rw [if_pos hlast]
      refine ⟨0, ⟨Nat.zero_le _, rfl, rfl, by simp, fun _ hg => hg.1 hlast, fun c => ?_⟩⟩
      have : q + 0 = 4294967295 := hlast
      simp [Reads.finds, this]
    rw [if_neg hlast, finds_bind]
    by_cases hl : s.EntryLost q
    · rw [entryReads_lost _ hl]
      refine ⟨0, ⟨Nat.zero_le _, rfl, rfl, by simp, fun _ hg => hg.2.1 hl, fun c => ?_⟩⟩
      have : q ≠ 4294967295 := hlast
      simp [Reads.finds, hl, this, eq_comm]
    · rw [entryReads_good _ hl]
      dsimp only
      by_cases hv : validEntry (s.entryAt q) q = true
      · rw [if_pos hv, finds_bind]
        obtain ⟨k, hk⟩ := ih (q + 1)
        exact ⟨k + 1, hk.cons ⟨hlast, hl, hv⟩⟩
      · rw [if_neg hv]
        refine ⟨0, ⟨Nat.zero_le _, rfl, rfl, by simp, fun _ hg => hv hg.2.2, fun c => ?_⟩⟩
        simp [Reads.finds, hl]

/-- Probes that stop at a lost slot have met its lost word. -/
theorem probes_lose {c : Nat} (h : ((s.probeReads n q).finds s.memory).cut = some c) : (s.probeReads n q).Loses s.memory := by
  induction n generalizing q with
  | zero => cases h
  | succ n ih =>
    rw [State.probeReads] at h ⊢
    by_cases hlast : q = Config.lastSequence
    · rw [if_pos hlast] at h
      cases h
    rw [if_neg hlast] at h ⊢
    by_cases hl : s.EntryLost q
    · exact (entryReads_loses _ hl).bind
    · refine .bind_next ?_
      rw [finds_bind] at h
      rw [entryReads_good _ hl] at h ⊢
      dsimp only at h ⊢
      by_cases hv : validEntry (s.entryAt q) q = true
      · rw [if_pos hv] at h ⊢
        rw [finds_bind] at h
        exact (ih h).bind
      · rw [if_neg hv] at h
        cases h

/-! #### The sequences beyond a lost slot -/

theorem stale_found (s : State) (n q : Nat) : ∃ k ≤ n, (s.staleReads n q).finds s.memory = (List.range k).map (fun i => q + i)
    ∧ (∀ i, i < k → s.EntryGood (q + i)) ∧ (k < n → ¬s.EntryGood (q + k)) := by
  induction n generalizing q with
  | zero => exact ⟨0, Nat.le_refl _, rfl, by simp, by simp⟩
  | succ n ih =>
    rw [State.staleReads]
    by_cases hlast : q = Config.lastSequence
    · rw [if_pos hlast]
      exact ⟨0, Nat.zero_le _, rfl, by simp, fun _ hg => hg.1 hlast⟩
    rw [if_neg hlast, finds_bind]
    by_cases hl : s.EntryLost q
    · rw [entryReads_lost _ hl]
      exact ⟨0, Nat.zero_le _, rfl, by simp, fun _ hg => hg.2.1 hl⟩
    rw [entryReads_good _ hl]
    dsimp only
    by_cases hv : validEntry (s.entryAt q) q = true
    · rw [if_pos hv, finds_bind]
      obtain ⟨k, hk, hfinds, hgood, hended⟩ := ih (q + 1)
      have hshift (i : Nat) : q + 1 + i = q + (i + 1) := by omega
      refine ⟨k + 1, Nat.succ_le_succ hk, ?_, fun i hi => ?_, fun hlt => ?_⟩
      · rw [hfinds, List.range_succ_eq_map, List.map_cons, List.map_map]
        simp [Reads.finds, Function.comp_def, hshift]
      · cases i with
        | zero => exact ⟨hlast, hl, hv⟩
        | succ i => exact hshift i ▸ hgood i (by omega)
      · exact hshift k ▸ hended (by omega)
    · rw [if_neg hv]
      exact ⟨0, Nat.zero_le _, rfl, by simp, fun _ hg => hv hg.2.2⟩

/-- The sequences whose marks are rewritten: those up to which every slot from `q` on is good (R116, log 24). -/
theorem mem_stale {m : Nat} : m ∈ (s.staleReads n q).finds s.memory ↔
    q ≤ m ∧ m < q + n ∧ ∀ j, q ≤ j → j ≤ m → s.EntryGood j := by
  obtain ⟨k, hk, hfinds, hgood, hended⟩ := stale_found s n q
  rw [hfinds, List.mem_map]
  constructor
  · rintro ⟨i, hi, rfl⟩
    have hi := List.mem_range.1 hi
    refine ⟨by omega, by omega, fun j hj hjm => ?_⟩
    have := hgood (j - q) (by omega)
    rwa [Nat.add_sub_cancel' hj] at this
  · rintro ⟨hqm, hmn, hall⟩
    refine ⟨m - q, List.mem_range.2 ?_, Nat.add_sub_cancel' hqm⟩
    by_contra hlt
    exact hended (by omega) (hall (q + k) (by omega) (by omega))

/-! #### The whole scan -/

/-- The slots beyond the lost slot of sequence `next` whose entries the scan invalidates, Released Sequence being `released`
(R116, log 24). -/
def State.Cut (s : State) (released next m : Nat) : Prop :=
  s.EntryLost next ∧ next ≠ 4294967295 ∧ next < m ∧ m ≤ released + s.capacity ∧ ∀ q, next < q → q ≤ m → s.EntryGood q

/-- What the scan finds: the Unit Record, the good entries from Released Sequence on up to the first slot without one, and the
slots beyond a lost one, in ascending order (R116). -/
structure State.Scanned (s : State) (k : Nat) (f : Scan) : Prop where
  record : f.record = s.readUnitRecord.1
  probed : s.Probed s.capacity (releasedOf f.record + 1) k f.found
  stale  : ∀ m, m ∈ f.stale ↔ s.Cut (releasedOf f.record) (releasedOf f.record + 1 + k) m
  rising : f.stale.Pairwise (· < ·)

theorem unitRecord_found (hw : s.memory.wf = true) : s.unitRecordReads.finds s.memory = s.readUnitRecord.1 :=
  (readThrough_finds hw _).symm

theorem scan_found (hw : s.memory.wf = true) : ∃ k, s.Scanned k (s.scanReads.finds s.memory) := by
  rw [State.scanReads, finds_bind, finds_bind, unitRecord_found hw]
  obtain ⟨k, hk⟩ := probes_found s s.capacity (releasedOf s.readUnitRecord.1 + 1)
  generalize (s.probeReads s.capacity (releasedOf s.readUnitRecord.1 + 1)).finds s.memory = p at hk
  refine ⟨k, ?_⟩
  rcases hcut : p.cut with _ | c
  · refine ⟨rfl, hk, fun m => ?_, .nil⟩
    constructor
    · intro h
      cases h
    · rintro ⟨hl, hlast, hlt, hle, -⟩
      have := (hk.cut (releasedOf s.readUnitRecord.1 + 1 + k + 1)).2 ⟨rfl, by omega, hlast, hl⟩
      rw [hcut] at this
      cases this
  · obtain ⟨rfl, hlt, hlast, hl⟩ := (hk.cut c).1 hcut
    dsimp only
    rw [finds_bind]
    refine ⟨rfl, hk, fun m => ?_, ?_⟩
    · refine mem_stale.trans ?_
      dsimp only [Reads.finds]
      constructor
      · rintro ⟨h1, h2, h3⟩
        exact ⟨hl, hlast, by omega, by omega, fun q hq => h3 q (by omega)⟩
      · rintro ⟨-, -, h1, h2, h3⟩
        exact ⟨by omega, by omega, fun j hj => h3 j (by omega)⟩
    · obtain ⟨j, -, hj, -⟩ := stale_found s (s.capacity - (releasedOf s.readUnitRecord.1 + 1 + k + 1 - releasedOf s.readUnitRecord.1 - 1))
        (releasedOf s.readUnitRecord.1 + 1 + k + 1)
      dsimp only [Reads.finds]
      rw [hj, List.pairwise_map]
      exact List.pairwise_lt_range.imp fun h => Nat.add_lt_add_left h _

/-- A scan that stops at a lost slot has met its lost word. -/
theorem scan_loses (hw : s.memory.wf = true) {c : Nat} (h : (s.scanReads.finds s.memory).found.cut = some c) :
    s.scanReads.Loses s.memory := by
  rw [State.scanReads] at h ⊢
  rw [finds_bind, finds_bind] at h
  refine .bind_next (.bind (probes_lose (c := c) ?_))
  rw [unitRecord_found hw] at h ⊢
  generalize (s.probeReads s.capacity (releasedOf s.readUnitRecord.1 + 1)).finds s.memory = p at h ⊢
  rcases hcut : p.cut with _ | c'
  · rw [hcut] at h
    dsimp only [Reads.finds] at h
    rw [hcut] at h
    cases h
  · rw [hcut] at h
    dsimp only at h
    rw [finds_bind] at h
    rw [← h]
    exact hcut.symm

/-- The scan's words are read in the place of the Start-up Controller and of the Journal Writer (R116, R166). -/
theorem scanReads_among (s : State) : Reads.Among (fun b => b = .startUp ∨ b = .journal) s.scanReads := by
  have hprobe : ∀ n q, Reads.Among (fun b => b = .startUp ∨ b = .journal) (s.probeReads n q) := by
    intro n
    induction n with
    | zero => exact fun q => .done _
    | succ n ih =>
      intro q
      rw [State.probeReads]
      split
      · exact .done _
      · refine ((entryReads_by s _ q).among (.inl rfl)).bind fun words => ?_
        split
        · exact .done _
        · split
          · exact (ih _).bind fun p => .done _
          · exact .done _
  have hstale : ∀ n q, Reads.Among (fun b => b = .startUp ∨ b = .journal) (s.staleReads n q) := by
    intro n
    induction n with
    | zero => exact fun q => .done _
    | succ n ih =>
      intro q
      rw [State.staleReads]
      split
      · exact .done _
      · refine ((entryReads_by s _ q).among (.inr rfl)).bind fun words => ?_
        split
        · split
          · exact (ih _).bind fun l => .done _
          · exact .done _
        · exact .done _
  have hrecord : Reads.By .startUp s.unitRecordReads := by
    refine .bind (.words _ [] _) fun first => ?_
    split
    · exact .done _
    · exact .bind (.words _ [] _) fun second => .done _
  refine (hrecord.among (.inl rfl)).bind fun record => (hprobe _ _).bind fun found => ?_
  split
  · exact (hstale _ _).bind fun l => .done _
  · exact .done _

end

end Sys2Proof.Machine

/-! ### The appends of the start-up scan (R105, R109, R110, R112, R113, R118) -/

namespace Sys2Proof.Machine

section
variable {s t : State} {l : List EntryDraft} {d : EntryDraft} {q q' n a b : Nat} {c : Nat × Word}

/-! #### The slots of the ring -/

/-- Two sequences less than a capacity apart have slots of their own (R105). -/
theorem slots_apart (hne : q ≠ q') (h : q < q' + s.capacity) (h' : q' < q + s.capacity) :
    s.entryAddress q + 32 ≤ s.entryAddress q' ∨ s.entryAddress q' + 32 ≤ s.entryAddress q := by
  have hmod : q % s.capacity ≠ q' % s.capacity := by
    intro he
    have h1 := Nat.sub_mod_eq_zero_of_mod_eq he
    have h2 := Nat.sub_mod_eq_zero_of_mod_eq he.symm
    rw [Nat.mod_eq_of_lt (by omega)] at h1 h2
    omega
  unfold State.entryAddress
  omega

/-- The cells of entries with sequences from `q` on (R105). -/
def State.entryCells (s : State) : Nat → List EntryDraft → List (Nat × Word)
  | _, [] => []
  | q, d :: rest => runCells (s.entryAddress q) (d.words q).toList ++ s.entryCells (q + 1) rest

theorem entryCells_append (l l' : List EntryDraft) :
    s.entryCells q (l ++ l') = s.entryCells q l ++ s.entryCells (q + l.length) l' := by
  induction l generalizing q with
  | nil => rfl
  | cons d rest ih =>
    rw [List.cons_append, State.entryCells, State.entryCells, ih, List.append_assoc, List.length_cons,
      Nat.add_comm rest.length, Nat.add_assoc]

theorem mem_entryCells : c ∈ s.entryCells q l ↔
    ∃ i, ∃ h : i < l.length, c ∈ runCells (s.entryAddress (q + i)) (l[i].words (q + i)).toList := by
  induction l generalizing q with
  | nil => simp [State.entryCells]
  | cons d rest ih =>
    rw [State.entryCells, List.mem_append, ih]
    constructor
    · rintro (h | ⟨i, hi, h⟩)
      · exact ⟨0, by simp, h⟩
      · refine ⟨i + 1, by simpa using hi, ?_⟩
        rw [show q + (i + 1) = q + 1 + i by omega]
        exact h
    · rintro ⟨i, hi, h⟩
      cases i with
      | zero => exact .inl h
      | succ i =>
        refine .inr ⟨i, by simpa using hi, ?_⟩
        rw [show q + 1 + i = q + (i + 1) by omega]
        exact h

theorem entryCells_within (hc : c ∈ s.entryCells q l) :
    ∃ i < l.length, s.entryAddress (q + i) ≤ c.1 ∧ c.1 + 4 ≤ s.entryAddress (q + i) + 32 := by
  obtain ⟨i, hi, hc⟩ := mem_entryCells.1 hc
  obtain ⟨j, hj, rfl⟩ := mem_runCells.1 hc
  have hj : j < 8 := by simpa using hj
  exact ⟨i, hi, by dsimp only; omega, by dsimp only; omega⟩

theorem entryCells_apart (h : l.length ≤ s.capacity) : CellsApart (s.entryCells q l) := by
  induction l generalizing q with
  | nil => exact .nil
  | cons d rest ih =>
    rw [List.length_cons] at h
    refine List.pairwise_append.2 ⟨runCells_apart _ _, ih (by omega), fun c hc e he => ?_⟩
    obtain ⟨j, hj, rfl⟩ := mem_runCells.1 hc
    have hj : j < 8 := by simpa using hj
    obtain ⟨i, hi, h1, h2⟩ := entryCells_within he
    rcases slots_apart (s := s) (q := q) (q' := q + 1 + i) (by omega) (by omega) (by omega) with h3 | h3 <;> dsimp only <;> omega

theorem putAll_append (m : Memory) (l l' : List (Nat × Word)) : putAll m (l ++ l') = putAll (putAll m l) l' :=
  List.foldl_append

/-! #### JOURNAL_HIGH -/

theorem noticeHigh_frame (s : State) :
    s.noticeHigh = { s with status := { s.status with notices := s.noticeHigh.status.notices } } := by
  unfold State.noticeHigh
  split <;> rfl

theorem noticeHigh_noticed (s : State) :
    s.noticeHigh.noticed .journalHigh = true ↔ s.noticed .journalHigh = true ∨ s.highWater ≤ s.occupancy := by
  unfold State.noticeHigh
  split
  · next h => simp [h]
  · next h => simp [h]

/-- One change of memory, the journal and the notices after another. -/
theorem State.Mirrored.rewritten {r : State} {m m' : Memory} {j j' : Journal} {v v' : BitVec 18} {z : BankControl}
    (h : ({ s with memory := m, banks := z, journal := j, status := { s.status with notices := v } }).Mirrored t)
    (hr : ({ t with memory := m', journal := j', status := { t.status with notices := v' } }).Mirrored r) :
    ({ s with memory := m', banks := z, journal := j', status := { s.status with notices := v' } }).Mirrored r := by
  unfold State.Mirrored at h hr ⊢
  generalize t.status.stale = y1, t.status.changeCount = y2, t.status.due = y3, t.arbiter.requests = y4 at h
  subst h
  exact hr

/-- An append that has no reservation counts (R109, R113). -/
theorem countAppend_frame (s : State) : s.countAppend none = { s with
    journal := { s.journal with next := s.journal.next + 1 }
    status := { s.status with notices := (s.countAppend none).status.notices } } :=
  noticeHigh_frame (s.setJournal { s.journal with next := s.journal.next + 1 })

theorem countAppend_noticed (s : State) : (s.countAppend none).noticed .journalHigh = true ↔
    s.noticed .journalHigh = true ∨ s.highWater ≤ s.journal.next + 1 - 1 - s.journal.released :=
  noticeHigh_noticed (s.setJournal { s.journal with next := s.journal.next + 1 })

/-- An append of the scan with free space (R112, R118). -/
theorem scanAppend_room (hp : t.PathFree .journal 2) (h : 1 ≤ t.freeSpace) (d : EntryDraft) :
    ({ t with
        memory := putAll t.memory (runCells (t.entryAddress t.journal.next) (d.words t.journal.next).toList)
        journal := { t.journal with next := t.journal.next + 1 }
        status := { t.status with notices := (t.scanAppend d).status.notices } }).Mirrored (t.scanAppend d)
    ∧ (t.scanAppend d).PathFree .journal 2
    ∧ ((t.scanAppend d).noticed .journalHigh = true ↔
        t.noticed .journalHigh = true ∨ t.highWater ≤ t.journal.next - t.journal.released) := by
  have heq : t.scanAppend d = (State.putWords .journal
      (runCells (t.entryAddress t.journal.next) (d.words t.journal.next).toList) t).countAppend none := if_pos h
  have hw := putWords_free (x := .journal) (runCells (t.entryAddress t.journal.next) (d.words t.journal.next).toList) hp
  have hsub := putWords_requests (x := .journal) (l := runCells (t.entryAddress t.journal.next)
    (d.words t.journal.next).toList) hp
  rw [heq]
  generalize State.putWords .journal _ t = w at hw hsub
  have hf := countAppend_frame w
  have hn := countAppend_noticed w
  generalize w.countAppend none = r at hf hn
  have hwn : w.status.notices = t.status.notices := by rw [show w = _ from hw]
  have hwj := hw.journal
  have hwc : w.cfg = t.cfg := by rw [show w = _ from hw]
  refine ⟨?_, ?_, hn.trans ?_⟩
  · generalize r.status.notices = n at hf
    rw [hf]
    unfold State.Mirrored at hw ⊢
    generalize w.status.stale = y1, w.status.changeCount = y2, w.status.due = y3, w.arbiter.requests = y4 at hw
    rw [hw]
  · have hr := hw.reader
    have hpr := hw.processor
    refine PathFree.of_requests hp ?_ ?_ ?_
    · rw [hf]
      exact hr
    · rw [hf]
      exact hpr
    · rw [hf]
      exact hsub
  · have hnoticed : w.noticed .journalHigh = t.noticed .journalHigh := by unfold State.noticed; rw [hwn]
    have hhigh : w.highWater = t.highWater := by
      unfold State.highWater State.capacity State.regionSize State.region
      rw [hwc]
    rw [hnoticed, hhigh, hwj]
    simp

/-! #### The appends -/

/-- `t` is `s` when the entries `l` have been appended in order, each while there was free space, and the others counted
Unrecorded (R112, R118). -/
structure State.Appended (s : State) (l : List EntryDraft) (t : State) : Prop where
  frame : ({ s with
      memory := putAll s.memory (s.entryCells s.journal.next (l.take s.freeSpace)), banks := t.banks
      journal := { s.journal with
        next := s.journal.next + min l.length s.freeSpace, resolutions := t.journal.resolutions
        unrecorded := if s.freeSpace < l.length then min 65535 (s.journal.unrecorded + (l.length - s.freeSpace))
          else s.journal.unrecorded }
      status := { s.status with notices := t.status.notices } }).Mirrored t
  path  : t.PathFree .journal 2
  high  : t.noticed .journalHigh = true → s.noticed .journalHigh = true ∨ t.highWater ≤ t.occupancy
  kept  : s.noticed .journalHigh = true → t.noticed .journalHigh = true

theorem State.Appended.nil (h : s.PathFree .journal 2) : s.Appended [] s where
  frame := by simpa [State.entryCells, putAll] using State.Mirrored.refl s
  path := h
  high := .inl
  kept := id

theorem State.Appended.freeSpace (h : s.Appended l t) (hn : s.journal.released < s.journal.next) :
    t.freeSpace = s.freeSpace - l.length := by
  rw [show t = _ from h.frame]
  unfold State.freeSpace State.ringRoom State.sequenceRoom State.occupancy
  dsimp only
  show min (s.capacity - _ - _) _ = _
  omega

theorem State.Appended.next (h : s.Appended l t) : t.journal.next = s.journal.next + min l.length s.freeSpace := by
  rw [h.frame.journal]

theorem State.Appended.entryAddress (h : s.Appended l t) (q : Nat) : t.entryAddress q = s.entryAddress q := by
  rw [show t = _ from h.frame]
  rfl

/-- The next entry is appended, or counted. -/
theorem State.Appended.append (h : s.Appended l t) (hn : s.journal.released < s.journal.next) (d : EntryDraft) :
    s.Appended (l ++ [d]) (t.scanAppend d) ∧ (t.scanAppend d).journal.resolutions = t.journal.resolutions
    ∧ (t.scanAppend d).banks = t.banks := by
  have hfree := h.freeSpace hn
  by_cases hroom : 1 ≤ t.freeSpace
  · have hlt : l.length < s.freeSpace := by omega
    obtain ⟨hm, hpath, hnoticed⟩ := scanAppend_room h.path hroom d
    generalize t.scanAppend d = r at hm hpath hnoticed
    have hbanks : r.banks = t.banks := hm.banks
    have hresolutions : r.journal.resolutions = t.journal.resolutions := by rw [hm.journal]
    have hhigh : r.highWater = t.highWater := by
      have hcfg : r.cfg = t.cfg := by rw [show r = _ from hm]
      unfold State.highWater State.capacity State.regionSize State.region
      rw [hcfg]
    have hoccupancy : r.occupancy = t.journal.next - t.journal.released := by
      rw [State.occupancy, hm.journal, Nat.add_sub_cancel]
    refine ⟨⟨?_, hpath, fun hr => ?_, fun hs => hnoticed.2 (.inl (h.kept hs))⟩, hresolutions, hbanks⟩
    · have htake : (l ++ [d]).take s.freeSpace = l ++ [d] := List.take_of_length_le (by simpa using hlt)
      have hall : l.take s.freeSpace = l := List.take_of_length_le (by omega)
      have hmemory : putAll s.memory (s.entryCells s.journal.next ((l ++ [d]).take s.freeSpace)) =
          putAll t.memory (runCells (t.entryAddress t.journal.next) (d.words t.journal.next).toList) := by
        rw [htake, entryCells_append, putAll_append, h.frame.memory, hall, h.entryAddress, h.next,
          Nat.min_eq_left (by omega), State.entryCells, State.entryCells, List.append_nil]
      have hmade : s.journal.next + min (l ++ [d]).length s.freeSpace = t.journal.next + 1 := by
        rw [List.length_append, List.length_singleton, h.next]
        omega
      have hcount : t.journal.unrecorded = s.journal.unrecorded := by
        rw [h.frame.journal]
        exact if_neg (by omega)
      rw [hmemory, hmade, if_neg (by rw [List.length_append, List.length_singleton]; omega), hbanks, hresolutions]
      have hjournal : ({ s.journal with
          next := t.journal.next + 1, resolutions := t.journal.resolutions
          unrecorded := s.journal.unrecorded } : Journal) = { t.journal with next := t.journal.next + 1 } := by
        rw [← hcount, h.frame.journal]
      rw [hjournal]
      exact h.frame.rewritten hm
    · refine (hnoticed.1 hr).elim (fun ht => (h.high ht).imp id fun hle => ?_) fun hle => .inr ?_
      · rw [hhigh, hoccupancy]
        unfold State.occupancy at hle
        omega
      · rw [hhigh, hoccupancy]
        exact hle
  · have heq : t.scanAppend d = t.setJournal { t.journal with unrecorded := saturate 65535 (t.journal.unrecorded + 1) } :=
      if_neg hroom
    rw [heq]
    refine ⟨⟨?_, ⟨h.path.reader, h.path.processor, h.path.others⟩, h.high, h.kept⟩, rfl, rfl⟩
    have hfull : min (l ++ [d]).length s.freeSpace = min l.length s.freeSpace := by
      rw [List.length_append, List.length_singleton]
      omega
    have htake : (l ++ [d]).take s.freeSpace = l.take s.freeSpace := List.take_append_of_le_length (by omega)
    have hover : s.freeSpace < (l ++ [d]).length := by
      rw [List.length_append, List.length_singleton]
      omega
    have hcount : saturate 65535 (t.journal.unrecorded + 1) =
        min 65535 (s.journal.unrecorded + ((l ++ [d]).length - s.freeSpace)) := by
      rw [h.frame.journal, saturate]
      dsimp only
      rw [List.length_append, List.length_singleton]
      split_ifs <;> omega
    rw [htake, hfull, if_pos hover, hcount]
    have hjournal : ({ s.journal with
        next := s.journal.next + min l.length s.freeSpace, resolutions := t.journal.resolutions
        unrecorded := min 65535 (s.journal.unrecorded + ((l ++ [d]).length - s.freeSpace)) } : Journal) =
          { t.journal with unrecorded := min 65535 (s.journal.unrecorded + ((l ++ [d]).length - s.freeSpace)) } := by
      rw [h.frame.journal]
    have hm := h.frame.rewritten (.refl (t.setJournal
      { t.journal with unrecorded := min 65535 (s.journal.unrecorded + ((l ++ [d]).length - s.freeSpace)) }))
    have hmemory : t.memory = putAll s.memory (s.entryCells s.journal.next (l.take s.freeSpace)) := h.frame.memory
    show ({ s with
      memory := putAll s.memory (s.entryCells s.journal.next (l.take s.freeSpace)), banks := t.banks
      journal := { s.journal with
        next := s.journal.next + min l.length s.freeSpace, resolutions := t.journal.resolutions
        unrecorded := min 65535 (s.journal.unrecorded + ((l ++ [d]).length - s.freeSpace)) }
      status := { s.status with notices := t.status.notices } } : State).Mirrored _
    rw [hjournal, ← hmemory]
    exact hm

end

end Sys2Proof.Machine

/-! ### The end of the start-up scan (R116 to R118) -/

namespace Sys2Proof.Machine

section
variable {s t w : State} {l : List EntryDraft} {f : Scan} {n : Nat}

theorem State.Appended.resolutions (h : s.Appended l t) (n : Nat) :
    s.Appended l (t.setJournal { t.journal with resolutions := n }) := by
  refine ⟨?_, ⟨h.path.reader, h.path.processor, h.path.others⟩, h.high, h.kept⟩
  have hm := h.frame
  unfold State.Mirrored at hm ⊢
  generalize t.journal.resolutions = x, t.banks = z, t.status.notices = v, t.status.stale = y1, t.status.changeCount = y2,
    t.status.due = y3, t.arbiter.requests = y4 at hm
  subst hm
  rfl

/-- The PENDING entries without a resolution are resolved, each while there is free space, and the resolutions are counted
(R117). -/
theorem State.Appended.resolve (h : s.Appended l t) (hn : s.journal.released < s.journal.next)
    (hr : t.journal.resolutions = min l.length s.freeSpace) (ds : List (Vector Word 8)) :
    s.Appended (l ++ ds.map restartResolution) (t.resolveDangling ds)
    ∧ (t.resolveDangling ds).journal.resolutions = min (l.length + ds.length) s.freeSpace
    ∧ (t.resolveDangling ds).banks = t.banks := by
  induction ds generalizing l t with
  | nil =>
    rw [List.map_nil, List.append_nil]
    exact ⟨h, hr, rfl⟩
  | cons e ds ih =>
    obtain ⟨ha, hresolutions, hbanks⟩ := h.append hn (restartResolution e)
    have hfree := h.freeSpace hn
    have hcount : (t.scanAppend (restartResolution e)).journal.resolutions + (if decide (1 ≤ t.freeSpace) then 1 else 0) =
        min (l ++ [restartResolution e]).length s.freeSpace := by
      rw [hresolutions, hr, hfree, List.length_append, List.length_singleton]
      simp only [decide_eq_true_eq]
      split_ifs <;> omega
    obtain ⟨h1, h2, h3⟩ := ih (ha.resolutions ((t.scanAppend (restartResolution e)).journal.resolutions
      + (if decide (1 ≤ t.freeSpace) then 1 else 0))) hcount
    refine ⟨?_, ?_, h3.trans hbanks⟩
    · rw [List.map_cons, ← List.singleton_append, ← List.append_assoc]
      exact h1
    · refine h2.trans ?_
      rw [List.length_append, List.length_singleton, List.length_cons]
      congr 1
      omega

/-- The bank entry due from selection is appended (R118). -/
theorem State.Appended.due (h : s.Appended l t) (hn : s.journal.released < s.journal.next) :
    s.Appended (l ++ t.banks.due.toList.map scanDraft) t.appendDue
    ∧ t.appendDue.journal.resolutions = t.journal.resolutions ∧ t.appendDue.banks = { t.banks with due := none } := by
  rcases hd : t.banks.due with _ | body
  · have heq : t.appendDue = t := by unfold State.appendDue; rw [hd]
    rw [heq]
    refine ⟨by simpa using h, rfl, ?_⟩
    rw [← hd]
  · obtain ⟨ha, hresolutions, -⟩ := h.append hn (scanDraft body)
    have heq : t.appendDue = { t.scanAppend (scanDraft body) with banks := { t.banks with due := none } } := by
      unfold State.appendDue
      rw [hd]
    rw [heq]
    refine ⟨⟨?_, ⟨ha.path.reader, ha.path.processor, ha.path.others⟩, ha.high, ha.kept⟩, hresolutions, rfl⟩
    have hm := ha.frame
    rw [Option.toList_some, List.map_singleton]
    generalize t.scanAppend (scanDraft body) = r at hm
    unfold State.Mirrored at hm ⊢
    generalize r.journal.resolutions = x, r.banks = z, r.status.notices = v, r.status.stale = y1, r.status.changeCount = y2,
      r.status.due = y3, r.arbiter.requests = y4 at hm
    subst hm
    rfl

/-- What the scan appends, in order, where there is room for `room` entries (R117, R118). -/
def Scan.drafts (f : Scan) (due : Option EntryBody) (room : Nat) : List EntryDraft :=
  (danglingPending f.found.entries).map restartResolution ++ due.toList.map scanDraft
    ++ [scanDraft (.restart f.found.next (min (danglingPending f.found.entries).length room) f.record.isNone)]

/-- The appends of the scan, the journal standing as it was found. -/
theorem scan_appended (hp : s.PathFree .journal 2) (hn : s.journal.released < s.journal.next)
    (hr : s.journal.resolutions = 0) :
    let u := (s.resolveDangling (danglingPending f.found.entries)).appendDue
    let v := u.scanAppend (scanDraft (.restart f.found.next u.journal.resolutions f.record.isNone))
    s.Appended (f.drafts s.banks.due s.freeSpace) v
    ∧ v.journal.resolutions = min (danglingPending f.found.entries).length s.freeSpace
    ∧ v.banks = { s.banks with due := none } := by
  intro u v
  obtain ⟨h1, hr1, hb1⟩ := (State.Appended.nil hp).resolve hn (by simpa using hr) (danglingPending f.found.entries)
  obtain ⟨h2, hr2, hb2⟩ := h1.due hn
  rw [List.length_nil, Nat.zero_add] at hr1
  have hu : u.journal.resolutions = min (danglingPending f.found.entries).length s.freeSpace := hr2.trans hr1
  obtain ⟨h3, hr3, hb3⟩ := h2.append hn (scanDraft (.restart f.found.next u.journal.resolutions f.record.isNone))
  refine ⟨?_, hr3.trans hu, hb3.trans (hb2.trans ?_)⟩
  · rw [hb1, List.nil_append] at h3
    rw [Scan.drafts, ← hu]
    exact h3
  · rw [hb1]

/-- The marks of the slots that the scan invalidates, rewritten with 0 (R116). -/
def State.markCells (s : State) (l : List Nat) : List (Nat × Word) := l.map (fun q => (s.entryAddress q + 28, 0))

/-- The Unit Record that the scan writes where the one in memory is invalid (R118). -/
def State.scanRecordCells (s : State) (f : Scan) : List (Nat × Word) :=
  if f.record.isNone then runCells (s.regionBase .journal) (s.recordWords (releasedOf f.record)).toList else []

/-- The free space that the scan finds (R110, R116). -/
def State.scanRoom (s : State) (f : Scan) : Nat :=
  min (s.capacity - (f.found.next - 1 - releasedOf f.record) - s.journal.reservationTotal)
    (4294967295 - f.found.next - s.journal.reservationTotal)

/-- What the scan writes, in order: marks, entries, the Unit Record (R116 to R118). -/
def State.scanCells (s : State) (f : Scan) : List (Nat × Word) :=
  s.markCells f.stale ++ s.entryCells f.found.next ((f.drafts s.banks.due (s.scanRoom f)).take (s.scanRoom f)) ++ s.scanRecordCells f

/-- How many entries the scan appends. -/
def State.scanMade (s : State) (f : Scan) : Nat := min (f.drafts s.banks.due (s.scanRoom f)).length (s.scanRoom f)

/-- The state with the scan's writes made and its counts taken, the notices being `v` (R116 to R118). -/
def State.scanDone (s : State) (f : Scan) (v : BitVec 18) : State :=
  { s with
    memory := putAll s.memory (s.scanCells f), startUp := { s.startUp with scanDone := true, got := [] }
    banks := { s.banks with due := none }
    journal := { s.journal with
      next := f.found.next + s.scanMade f, released := releasedOf f.record
      resolutions := min (danglingPending f.found.entries).length (s.scanRoom f)
      unrecorded := if s.scanMade f < (f.drafts s.banks.due (s.scanRoom f)).length then
          min 65535 (s.journal.unrecorded + ((f.drafts s.banks.due (s.scanRoom f)).length - s.scanMade f))
        else s.journal.unrecorded }
    status := { s.status with notices := v } }

theorem entryAddress_congr (h : t.cfg = s.cfg) (q : Nat) : t.entryAddress q = s.entryAddress q := by
  unfold State.entryAddress State.capacity State.regionSize State.regionBase State.region
  rw [h]

theorem entryCells_congr (h : t.cfg = s.cfg) (q : Nat) (l : List EntryDraft) : t.entryCells q l = s.entryCells q l := by
  induction l generalizing q with
  | nil => rfl
  | cons d rest ih => rw [State.entryCells, State.entryCells, ih, entryAddress_congr h]

/-- The Unit Record is written where the one in memory is invalid (R118). -/
theorem writeRecord_mirrored (hp : s.PathFree .journal 2) (hr : s.journal.released = releasedOf f.record) :
    ({ s with memory := putAll s.memory (s.scanRecordCells f) }).Mirrored (if f.record.isNone then s.writeRecord else s) := by
  unfold State.scanRecordCells State.writeRecord
  split
  · rw [hr]
    exact putWords_free _ hp
  · exact .refl s

/-- The writes of the scan, one after another, and the end of its row. -/
theorem scan_written {a b c d e : State} {m1 m2 m3 : Memory} {z : BankControl} {j : Journal} {v v' : BitVec 18} {x : Journal}
    {y : StartUp} (ha : a = s.setJournal x) (hb : ({ a with memory := m1 }).Mirrored b)
    (hc : ({ b with memory := m2, banks := z, journal := j, status := { b.status with notices := v } }).Mirrored c)
    (hd : ({ c with memory := m3 }).Mirrored d)
    (he : e = { d with status := { d.status with notices := v' }, startUp := y }) :
    ({ s with
        memory := m3, banks := z, journal := j, startUp := y, status := { s.status with notices := v' } }).Mirrored e := by
  unfold State.Mirrored at hb hc hd ⊢
  generalize b.status.stale = b1, b.status.changeCount = b2, b.status.due = b3, b.arbiter.requests = b4 at hb
  generalize c.status.stale = c1, c.status.changeCount = c2, c.status.due = c3, c.arbiter.requests = c4 at hc
  generalize d.status.stale = d1, d.status.changeCount = d2, d.status.due = d3, d.arbiter.requests = d4 at hd
  subst ha hb hc hd he
  rfl

/-- The journal is restored (R116 to R118). -/
theorem endScan_effect (hp : s.PathFree .journal 2) (hn : releasedOf f.record < f.found.next) :
    (s.scanDone f (s.endScan f).status.notices).Mirrored (s.endScan f)
    ∧ ((s.endScan f).noticed .journalHigh = true ↔ s.noticed .journalHigh = true
      ∨ s.highWater ≤ f.found.next + s.scanMade f - 1 - releasedOf f.record) := by
  set a : State := s.setJournal { s.journal with
    released := releasedOf f.record, next := f.found.next, resolutions := 0 } with ha
  have hb := putWords_free (s := a) (x := .journal) (s.markCells f.stale) ⟨hp.reader, hp.processor, hp.others⟩
  have hsub := putWords_requests (s := a) (x := .journal) (l := s.markCells f.stale) ⟨hp.reader, hp.processor, hp.others⟩
  set b : State := a.putWords .journal (s.markCells f.stale) with hbdef
  have hbp : b.PathFree .journal 2 := PathFree.of_requests hp hb.reader hb.processor hsub
  have hbj : b.journal = a.journal := hb.journal
  have hbb : b.banks = s.banks := hb.banks
  have hbc : b.cfg = s.cfg := by rw [show b = _ from hb]; rfl
  have hbr : b.freeSpace = s.scanRoom f := by
    unfold State.freeSpace State.ringRoom State.sequenceRoom State.occupancy State.capacity State.regionSize State.region
    rw [hbj, hbc]
    rfl
  have hbe (q : Nat) (l : List EntryDraft) : b.entryCells q l = s.entryCells q l := entryCells_congr hbc q l
  obtain ⟨hc, hres, hbanks⟩ := scan_appended (f := f) hbp (by rw [hbj]; exact hn) (by rw [hbj]; rfl)
  dsimp only at hc hres hbanks
  have hend : s.endScan f = (fun c : State =>
      let d := if f.record.isNone then c.writeRecord else c
      { d.noticeHigh with startUp := { d.noticeHigh.startUp with scanDone := true, got := [] } })
      ((State.resolveDangling b (danglingPending f.found.entries)).appendDue.scanAppend (scanDraft (.restart f.found.next
        (State.resolveDangling b (danglingPending f.found.entries)).appendDue.journal.resolutions f.record.isNone))) := rfl
  rw [hend]
  generalize (State.resolveDangling b (danglingPending f.found.entries)).appendDue.scanAppend _ = c at hc hres hbanks
  dsimp only
  have hcj := hc.frame.journal
  have hd := writeRecord_mirrored (f := f) hc.path (by rw [hcj, hbj]; rfl)
  generalize (if f.record.isNone then c.writeRecord else c) = d at hd
  have hnotice := noticeHigh_noticed d
  have hf := noticeHigh_frame d
  generalize d.noticeHigh = e at hnotice hf
  have hcc : c.cfg = s.cfg := by rw [show c = _ from hc.frame]; exact hbc
  have hrecord : c.scanRecordCells f = s.scanRecordCells f := by
    unfold State.scanRecordCells State.recordWords State.regionBase State.region
    rw [hcc, hcj, hbj]
    rfl
  have hmemory : putAll c.memory (c.scanRecordCells f) = putAll s.memory (s.scanCells f) := by
    rw [State.scanCells, putAll_append, putAll_append, hrecord, hc.frame.memory, hbr, hbb, hbe, hb.memory, hbj]
    rfl
  have hmade : min (f.drafts s.banks.due (s.scanRoom f)).length (s.scanRoom f) = s.scanMade f := rfl
  have hun : (if s.scanRoom f < (f.drafts s.banks.due (s.scanRoom f)).length then
        min 65535 (s.journal.unrecorded + ((f.drafts s.banks.due (s.scanRoom f)).length - s.scanRoom f))
      else s.journal.unrecorded) =
      if s.scanMade f < (f.drafts s.banks.due (s.scanRoom f)).length then
        min 65535 (s.journal.unrecorded + ((f.drafts s.banks.due (s.scanRoom f)).length - s.scanMade f))
      else s.journal.unrecorded := by
    unfold State.scanMade
    split_ifs <;> omega
  refine ⟨?_, ?_⟩
  · have hstart : e.startUp = s.startUp := by
      rw [hf]
      exact hd.startUp.trans (hc.frame.startUp.trans hb.startUp)
    have hwritten := scan_written ha hb hc.frame hd
      (e := { e with startUp := { e.startUp with scanDone := true, got := [] } }) (v' := e.status.notices)
      (y := { e.startUp with scanDone := true, got := [] }) (by
        generalize e.status.notices = v at hf
        rw [hf])
    rw [hmemory, hbanks, hbb, hres, hbr, hbj, hstart] at hwritten
    unfold State.scanDone
    rw [← hun, hstart]
    exact hwritten
  · have hdc : d.journal = c.journal ∧ d.cfg = c.cfg ∧ d.status.notices = c.status.notices := by
      rw [show d = _ from hd]
      exact ⟨rfl, rfl, rfl⟩
    obtain ⟨hdj, hdcfg, hdn⟩ := hdc
    have hoccupancy : c.occupancy = f.found.next + s.scanMade f - 1 - releasedOf f.record := by
      rw [State.occupancy, hcj, hbj, hbr, hbb]
      rfl
    have hhigh : d.highWater = s.highWater ∧ c.highWater = s.highWater := by
      unfold State.highWater State.capacity State.regionSize State.region
      rw [hdcfg, hcc]
      exact ⟨rfl, rfl⟩
    have hdo : d.occupancy = c.occupancy := by rw [State.occupancy, hdj]; rfl
    have hnd : d.noticed .journalHigh = c.noticed .journalHigh := by unfold State.noticed; rw [hdn]
    have hnb : b.noticed .journalHigh = s.noticed .journalHigh := by
      have : b.status.notices = s.status.notices := by rw [show b = _ from hb]; rfl
      unfold State.noticed
      rw [this]
    have hhigher := hc.high
    have hkept := hc.kept
    rw [hnb, hhigh.2, hoccupancy] at hhigher
    rw [hnb] at hkept
    rw [hnd, hhigh.1, hdo, hoccupancy] at hnotice
    exact hnotice.trans ⟨fun h => h.elim hhigher .inr, fun h => h.elim (fun h => .inl (hkept h)) .inr⟩

end

end Sys2Proof.Machine

/-! ### What the start-up scan writes (R105, R114, R116 to R118) -/

namespace Sys2Proof.Machine

section
variable {s : State} {f : Scan} {m : Memory} {k i q : Nat} {d : EntryDraft} {b : Nat}

/-- The entries that the scan appends. -/
def State.scanEntries (s : State) (f : Scan) : List EntryDraft :=
  (f.drafts s.banks.due (s.scanRoom f)).take (s.scanRoom f)

theorem scanEntries_length : (s.scanEntries f).length = s.scanMade f := by
  rw [State.scanEntries, List.length_take, Nat.min_comm]
  rfl

/-- The scan's entries fit between Next and Released Sequence + capacity (R110). -/
theorem scanMade_within (h : s.Scanned k f) : f.found.next = releasedOf f.record + 1 + k
    ∧ s.scanMade f ≤ s.scanRoom f ∧ k + s.scanMade f ≤ s.capacity := by
  have hnext := h.probed.next
  have hk := h.probed.within
  have hmade : s.scanMade f ≤ s.scanRoom f := Nat.min_le_right _ _
  have hroom : s.scanRoom f ≤ s.capacity - k := by
    unfold State.scanRoom
    omega
  exact ⟨hnext, hmade, by omega⟩

theorem scanCells_eq : s.scanCells f =
    s.markCells f.stale ++ (s.entryCells f.found.next (s.scanEntries f) ++ s.scanRecordCells f) := List.append_assoc ..

theorem mem_scanRecordCells {c : Nat × Word} (hc : c ∈ s.scanRecordCells f) :
    f.record = none ∧ s.regionBase .journal ≤ c.1 ∧ c.1 + 4 ≤ s.regionBase .journal + 32 := by
  unfold State.scanRecordCells at hc
  split at hc
  · next h =>
    obtain ⟨j, hj, rfl⟩ := mem_runCells.1 hc
    have hj : j < 8 := by simpa using hj
    exact ⟨by simpa using h, Nat.le_add_right _ _, by dsimp only; omega⟩
  · cases hc

theorem entryAddress_ge (s : State) (q : Nat) : s.regionBase .journal + 32 ≤ s.entryAddress q := Nat.le_add_right _ _

/-- The entries and the Unit Record have addresses of their own (R105, R114). -/
theorem scanCells_apart (h : s.Scanned k f) :
    CellsApart (s.entryCells f.found.next (s.scanEntries f) ++ s.scanRecordCells f) := by
  obtain ⟨-, -, hfit⟩ := scanMade_within h
  refine List.pairwise_append.2 ⟨entryCells_apart (by rw [scanEntries_length]; omega), ?_, fun c hc e he => ?_⟩
  · unfold State.scanRecordCells
    split
    · exact runCells_apart _ _
    · exact .nil
  · obtain ⟨i, -, h1, -⟩ := entryCells_within hc
    obtain ⟨-, -, h2⟩ := mem_scanRecordCells he
    have := entryAddress_ge s (f.found.next + i)
    omega

theorem scan_memory (m : Memory) : putAll m (s.scanCells f) =
    putAll (putAll m (s.markCells f.stale)) (s.entryCells f.found.next (s.scanEntries f) ++ s.scanRecordCells f) := by
  rw [scanCells_eq, putAll_append]

/-- The entries stand in their slots, clean. -/
theorem scan_entry (h : s.Scanned k f) (hm : m.wf = true) (hi : i < s.scanMade f)
    (hd : (f.drafts s.banks.due (s.scanRoom f))[i]? = some d) (j : Fin 8) :
    (putAll m (s.scanCells f)).word (s.entryAddress (f.found.next + i) + 4 * j.val) = (d.words (f.found.next + i))[j.val]
    ∧ (putAll m (s.scanCells f)).health (s.entryAddress (f.found.next + i) + 4 * j.val) = .clean := by
  obtain ⟨-, hroom, -⟩ := scanMade_within h
  have hlength : i < (s.scanEntries f).length := by rwa [scanEntries_length]
  have hget : (s.scanEntries f)[i] = d := by
    obtain ⟨hlt, hget⟩ := List.getElem?_eq_some_iff.1 hd
    exact List.getElem_take.trans hget
  rw [scan_memory]
  refine putAll_word (c := (s.entryAddress (f.found.next + i) + 4 * j.val, (d.words (f.found.next + i))[j.val]))
    (putAll_wf hm) (scanCells_apart h) (List.mem_append_left _ (mem_entryCells.2 ⟨i, hlength, ?_⟩))
  rw [hget]
  exact mem_runCells.2 ⟨j.val, by simp, by simp⟩

/-- The Unit Record stands where the one in memory was invalid. -/
theorem scan_record (h : s.Scanned k f) (hm : m.wf = true) (hr : f.record = none) (j : Fin 8) :
    (putAll m (s.scanCells f)).word (s.regionBase .journal + 4 * j.val) =
      (unitRecordWords 0 s.journal.activeBank s.journal.activeVersion)[j.val] := by
  rw [scan_memory]
  refine (putAll_word (c := (s.regionBase .journal + 4 * j.val,
    (unitRecordWords 0 s.journal.activeBank s.journal.activeVersion)[j.val])) (putAll_wf hm) (scanCells_apart h)
      (List.mem_append_right _ ?_)).1
  unfold State.scanRecordCells
  rw [hr]
  exact mem_runCells.2 ⟨j.val, by simp, by simp [State.recordWords, releasedOf]⟩

/-- The marks beyond a lost slot that no entry of the scan has covered are 0. -/
theorem scan_mark (h : s.Scanned k f) (hm : m.wf = true) (hq : s.Cut (releasedOf f.record) f.found.next q)
    (hbeyond : f.found.next + s.scanMade f ≤ q) : (putAll m (s.scanCells f)).word (s.entryAddress q + 28) = 0 := by
  obtain ⟨hnext, -, hfit⟩ := scanMade_within h
  have hle := hq.2.2.2.1
  have hwithin : ∀ p ∈ f.stale, f.found.next < p ∧ p ≤ releasedOf f.record + s.capacity := by
    intro p hp
    obtain ⟨-, -, h1, h2, -⟩ := (h.stale p).1 hp
    exact ⟨by omega, h2⟩
  have hmarks : CellsApart (s.markCells f.stale) := by
    refine List.pairwise_map.2 (h.rising.imp_of_mem fun {p r} hp hr hlt => ?_)
    have h1 := hwithin p hp
    have h2 := hwithin r hr
    rcases slots_apart (s := s) (q := p) (q' := r) (by omega) (by omega) (by omega) with h3 | h3 <;> dsimp only <;> omega
  rw [scan_memory, (putAll_word_other fun c hc => ?_).1]
  · exact (putAll_word (c := (s.entryAddress q + 28, 0)) hm hmarks
      (List.mem_map.2 ⟨q, (h.stale q).2 (hnext ▸ hq), rfl⟩)).1
  · rcases List.mem_append.1 hc with hc | hc
    · obtain ⟨i, hi, h1, h2⟩ := entryCells_within hc
      rw [scanEntries_length] at hi
      rcases slots_apart (s := s) (q := f.found.next + i) (q' := q) (by omega) (by omega) (by omega) with h3 | h3 <;> omega
    · obtain ⟨-, h1, h2⟩ := mem_scanRecordCells hc
      have := entryAddress_ge s q
      omega

/-- No other byte changes. -/
theorem scan_byte_other (h : s.Scanned k f)
    (hrecord : f.record = none → b < s.regionBase .journal ∨ s.regionBase .journal + 32 ≤ b)
    (hentries : ∀ i, i < s.scanMade f → b < s.entryAddress (f.found.next + i) ∨ s.entryAddress (f.found.next + i) + 32 ≤ b)
    (hmarks : ∀ q, s.Cut (releasedOf f.record) f.found.next q → b < s.entryAddress q + 28 ∨ s.entryAddress q + 32 ≤ b) :
    (putAll m (s.scanCells f)).byte b = m.byte b := by
  refine putAll_byte_other fun c hc => ?_
  rw [scanCells_eq] at hc
  rcases List.mem_append.1 hc with hc | hc
  · obtain ⟨q, hq, rfl⟩ := List.mem_map.1 hc
    have hcut := (h.stale q).1 hq
    rw [← (scanMade_within h).1] at hcut
    exact hmarks q hcut
  · rcases List.mem_append.1 hc with hc | hc
    · obtain ⟨i, hi, h1, h2⟩ := entryCells_within hc
      rw [scanEntries_length] at hi
      have := hentries i hi
      omega
    · obtain ⟨hr, h1, h2⟩ := mem_scanRecordCells hc
      have := hrecord hr
      omega

end

end Sys2Proof.Machine

/-! ### The words of the scan's resolutions (R117, 12.5) -/

namespace Sys2Proof.Machine

section
variable {e : Vector Word 8} {seq : Nat}

theorem serialLow_serialOf (low high : Word) : serialLow (serialOf low high) = low := by
  have hl := low.isLt
  have hh := high.isLt
  apply BitVec.eq_of_toNat_eq
  simp only [serialLow, serialOf, BitVec.toNat_ofNat]
  omega

theorem serialHigh_serialOf (low high : Word) : serialHigh (serialOf low high) = high := by
  have hl := low.isLt
  have hh := high.isLt
  apply BitVec.eq_of_toNat_eq
  simp only [serialHigh, serialOf, BitVec.toNat_ofNat]
  omega

/-- A flags field is made of the flags that it holds (12.3). -/
theorem flagsNumber_ofNumber : ∀ v < 128, flagsNumber (flagsOfNumber v) (v.testBit 6) = v := by decide

/-- A field of a word in two parts. -/
theorem bits_lane_flags (w : Word) : bits w 5 9 = bits w 5 2 + 4 * bits w 7 7 := by
  unfold bits
  omega

/-- A word is made of its halves. -/
theorem put_halves (w : Word) : put (bits w 0 16) 0 16 ||| put (bits w 16 16) 16 16 = w := by
  apply BitVec.eq_of_getLsbD_eq
  intro i hi
  rw [BitVec.getLsbD_or, getLsbD_put, getLsbD_put]
  simp only [bits, Nat.testBit_mod_two_pow, Nat.testBit_div_two_pow, BitVec.getLsbD]
  by_cases h : i < 16
  · simp [h, hi, show ¬16 ≤ i by omega]
  · simp [h, hi, show 16 ≤ i by omega, show i - 16 < 16 by omega]

/-- The words of an UNCERTAIN entry that resolves the PENDING entry `e` (R117). -/
theorem restart_words (e : Vector Word 8) (seq : Nat) :
    (restartResolution e).words seq = #v[put seq 0 32,
      put 9 0 5 ||| put (bits e[1] 5 2) 5 2 ||| put (bits e[1] 7 7) 7 7 ||| put 131071 14 17 ||| putFlag true 31,
      e[2], e[3], e[4], e[5], put (seq - e[0].toNat) 16 16 ||| put 0 0 16, put seq 0 32] := by
  have hlane : (Fin.ofNat 4 (bits e[1] 5 2)).val = bits e[1] 5 2 := by
    show bits e[1] 5 2 % 4 = _
    exact bits_mod _ 5 2
  have hflags := flagsNumber_ofNumber (bits e[1] 7 7) (bits_lt _ 7 7)
  have hwords : (restartResolution e).words seq = #v[put seq 0 32,
      put 9 0 5 ||| put (Fin.ofNat 4 (bits e[1] 5 2)).val 5 2
        ||| put (flagsNumber (flagsOfNumber (bits e[1] 7 7)) ((bits e[1] 7 7).testBit 6)) 7 7 ||| put 131071 14 17
        ||| putFlag true 31,
      serialLow (serialOf e[2] e[3]), serialHigh (serialOf e[2] e[3]),
      put (bits e[4] 0 16) 0 16 ||| put (bits e[4] 16 16) 16 16, e[5], put (seq - e[0].toNat) 16 16 ||| put 0 0 16,
      put seq 0 32] := rfl
  rw [hwords, hlane, hflags, put_halves, serialLow_serialOf, serialHigh_serialOf]

theorem restart_kind (e : Vector Word 8) (seq : Nat) :
    bits ((restartResolution e).words seq)[1] 0 5 = 9 ∧ bits ((restartResolution e).words seq)[1] 5 9 = bits e[1] 5 9
    ∧ bits ((restartResolution e).words seq)[1] 14 17 = 131071 ∧ ((restartResolution e).words seq)[1].getLsbD 31 = true := by
  have hword : ((restartResolution e).words seq)[1] =
      put 9 0 5 ||| put (bits e[1] 5 2) 5 2 ||| put (bits e[1] 7 7) 7 7 ||| put 131071 14 17 ||| putFlag true 31 := by
    rw [restart_words]
    rfl
  rw [hword, bits_lane_flags, bits_lane_flags e[1]]
  generalize hl : bits e[1] 5 2 = lane
  generalize hf : bits e[1] 7 7 = flags
  have hlane : lane < 4 := hl ▸ bits_lt _ 5 2
  have hflags : flags < 128 := hf ▸ bits_lt _ 7 7
  have hlow : bits (put lane 5 2) 5 2 = lane := (bits_put_self _ (by omega)).trans (Nat.mod_eq_of_lt hlane)
  have hmid : bits (put flags 7 7) 7 7 = flags := (bits_put_self _ (by omega)).trans (Nat.mod_eq_of_lt hflags)
  have hkind : bits (put 9 0 5) 0 5 = 9 := bits_put_self _ (by omega)
  have htime : bits (put 131071 14 17) 14 17 = 131071 := bits_put_self _ (by omega)
  have hapart (v lo len lo' len' : Nat) (h : lo' + len' ≤ lo ∨ lo + len ≤ lo') : bits (put v lo' len') lo len = 0 :=
    bits_put_apart v h
  have hflag (lo len : Nat) (h : lo + len ≤ 31) : bits (putFlag true 31) lo len = 0 := bits_putFlag_apart true (.inr h)
  refine ⟨?_, ?_, ?_, ?_⟩
  · rw [bits_or, bits_or, bits_or, bits_or, hkind, hapart lane 0 5 5 2 (by omega), hapart flags 0 5 7 7 (by omega),
      hapart 131071 0 5 14 17 (by omega), hflag 0 5 (by omega)]
    rfl
  · simp only [bits_or, hlow, hmid, hapart 9 5 2 0 5 (by omega), hapart flags 5 2 7 7 (by omega),
      hapart 131071 5 2 14 17 (by omega), hflag 5 2 (by omega), hapart 9 7 7 0 5 (by omega), hapart lane 7 7 5 2 (by omega),
      hapart 131071 7 7 14 17 (by omega), hflag 7 7 (by omega), Nat.or_zero, Nat.zero_or]
  · rw [bits_or, bits_or, bits_or, bits_or, htime, hapart 9 14 17 0 5 (by omega), hapart lane 14 17 5 2 (by omega),
      hapart flags 14 17 7 7 (by omega), hflag 14 17 (by omega)]
    rfl
  · rw [BitVec.getLsbD_or, getLsbD_putFlag _ _ _ (by omega)]
    simp

theorem restart_distance (e : Vector Word 8) (seq : Nat) :
    bits ((restartResolution e).words seq)[6] 0 16 = 0
    ∧ bits ((restartResolution e).words seq)[6] 16 16 = (seq - e[0].toNat) % 65536 := by
  have hword : ((restartResolution e).words seq)[6] = put (seq - e[0].toNat) 16 16 ||| put 0 0 16 := by
    rw [restart_words]
    rfl
  rw [hword, bits_or, bits_or, bits_put_apart _ (by omega), bits_put_self _ (by omega), bits_put_self _ (by omega),
    bits_put_apart _ (by omega)]
  exact ⟨rfl, Nat.or_zero _⟩

end

end Sys2Proof.Machine

/-! ### START_UP_SCAN (R116 to R118, R189) -/

namespace Sys2Proof.Machine

section
variable {s : State} {k : Nat} {f : Scan}

theorem scanRuns_iff : s.scanRuns = true ↔
    s.unit = .scanning ∧ s.startUp.selectionDone = true ∧ s.startUp.scanDone = false ∧ s.journal.job = none := by
  simp [State.scanRuns, and_assoc]

/-- What the scan leaves in `v` before the Status Writer's bookkeeping, and before the Processor Port goes on. -/
structure State.ScanEnds (s : State) (k : Nat) (f : Scan) (v : State) : Prop where
  scanned : s.Scanned k f
  frame   : v = { s with
      memory := v.memory, budget := v.budget, faultRecord := v.faultRecord
      startUp := { s.startUp with scanDone := true }, banks := { s.banks with due := none }
      journal := { s.journal with
        next := f.found.next + s.scanMade f, released := releasedOf f.record
        resolutions := min (danglingPending f.found.entries).length (s.scanRoom f)
        unrecorded := if s.scanMade f < (f.drafts s.banks.due (s.scanRoom f)).length then
            min 65535 (s.journal.unrecorded + ((f.drafts s.banks.due (s.scanRoom f)).length - s.scanMade f))
          else s.journal.unrecorded }
      status := { s.status with notices := v.status.notices } }
  memory  : ∃ m : Memory, m.wf = true ∧ (∀ b, m.byte b = s.memory.byte b) ∧ v.memory = putAll m (s.scanCells f)
  faulted : f.found.cut ≠ none → v.faultRecord.first ≠ none
  high    : v.noticed .journalHigh = true ↔ s.noticed .journalHigh = true
      ∨ s.highWater ≤ f.found.next + s.scanMade f - 1 - releasedOf f.record

/-- The row, where its words are read and written with nothing before them at the arbiter. -/
theorem scan_ends (hruns : s.scanRuns = true) (hgot : s.startUp.got = []) (hpath : s.PathFree .startUp 7)
    (hwf : s.memory.wf = true) : ∃ k f v y t, s.ScanEnds k f v ∧ exec .startUpScan s = .next t ∧ v.Mirrored y
      ∧ y.resumeProcessor.Mirrored t := by
  obtain ⟨k, hs⟩ := scan_found hwf
  obtain ⟨q, hq, hsub⟩ := perform_among (scanReads_among s) (s := s) (by
    rintro b (rfl | rfl)
    · exact hpath
    · refine ⟨hpath.reader, hpath.processor, fun y hy => .inr ?_⟩
      rcases hpath.others y hy with rfl | h
      · decide
      · exact Nat.lt_trans (by decide) h)
  have hfound : (s.readThrough s.scanReads).1 = s.scanReads.finds s.memory := readThrough_finds hwf _
  have hleaves : s.ReadLeaves (s.readThrough s.scanReads).2 := readThrough_leaves _
  have huwf : (s.readThrough s.scanReads).2.memory.wf = true := readThrough_wf _ hwf
  have hhigh : (s.readThrough s.scanReads).2.noticed .journalHigh = s.noticed .journalHigh :=
    readThrough_noticed _ (by decide) (by decide)
  have hunit : s.unit = .scanning := (scanRuns_iff.1 hruns).1
  have hfault (hc : (s.scanReads.finds s.memory).found.cut ≠ none) : (s.readThrough s.scanReads).2.faultRecord.first ≠ none := by
    obtain ⟨c, hc⟩ := Option.ne_none_iff_exists'.1 hc
    exact readThrough_faults hwf (by rw [hunit]; decide) (scan_loses hwf hc)
  rw [hfound] at hq
  generalize s.scanReads.finds s.memory = f at hs hq hfault hfound
  generalize (s.readThrough s.scanReads).2 = u at hq hleaves huwf hhigh hfault
  unfold State.ReadLeaves at hleaves
  generalize u.memory.upsets = x1, u.budget = x2, u.faultRecord = x3, u.status.notices = x4 at hleaves
  subst hleaves
  set u : State := { s with
    memory := { s.memory with upsets := x1 }, budget := x2, faultRecord := x3
    status := { s.status with notices := x4 } } with hu
  have hexec : exec .startUpScan s = .next (s.settle (s.note ((u.queued q).endScan f)).resumeProcessor) := by
    have h : execStartUpScan s = .next (s.settle (State.resumeProcessor
        (s.note ((s.perform s.scanReads).2.endScan (s.perform s.scanReads).1)))) := by
      unfold execStartUpScan
      rw [if_pos hruns, hgot]
      rfl
    exact h.trans (by rw [hq])
  have hupath : (u.queued q).PathFree .journal 2 := by
    refine ⟨?_, ?_, fun y hy => .inr ?_⟩
    · exact hpath.reader
    · exact hpath.processor
    · rcases hpath.others y (hsub y hy) with rfl | h
      · decide
      · exact Nat.lt_trans (by decide) h
  obtain ⟨hm, hn⟩ := endScan_effect (s := u.queued q) (f := f) hupath (by have := hs.probed.next; omega)
  generalize (u.queued q).endScan f = w at hm hn hexec
  have hstart : ({ s.startUp with scanDone := true } : StartUp) = { s.startUp with scanDone := true, got := [] } := by
    rw [← hgot]
  refine ⟨k, f, { (u.queued q).scanDone f w.status.notices with arbiter := s.arbiter }, s.note w, _, ⟨hs, ?_, ?_, hfault, ?_⟩,
    hexec, ?_, settle_mirrored _ _⟩
  · rw [hstart]
    rfl
  · have hcells : (u.queued q).scanCells f = s.scanCells f := by
      unfold State.scanCells
      rw [entryCells_congr (s := s) (t := u.queued q) rfl]
      rfl
    refine ⟨u.memory, huwf, fun b => rfl, ?_⟩
    rw [← hcells]
    rfl
  · exact hn.trans (or_congr (by rw [← hhigh]; rfl) Iff.rfl)
  · have hnoted := hm.trans (note_mirrored s w)
    unfold State.Mirrored at hnoted ⊢
    exact hnoted

theorem resolvesByKind_eq (e : Vector Word 8) : resolvesByKind e = decide (2 ≤ entryKind e ∧ entryKind e ≤ 14) := by
  simp [resolvesByKind]

/-- A dangling entry's resolution is among the entries of the scan (R117). -/
theorem drafts_dangling {due : Option EntryBody} {room i : Nat} {e : Vector Word 8}
    (h : (danglingPending f.found.entries)[i]? = some e) : (f.drafts due room)[i]? = some (restartResolution e) := by
  obtain ⟨hlt, hget⟩ := List.getElem?_eq_some_iff.1 h
  rw [Scan.drafts, List.append_assoc, List.getElem?_append_left (by simpa using hlt), List.getElem?_map, h]
  rfl

/-- Settles O24: the scan finds Next Sequence, resolves the dangling PENDING entries and restores the journal. -/
theorem scanRestoresJournal : Obligations.ScanRestoresJournal := by
  intro s runs
  refine ⟨fun hnot => yields_of_eq (t := if s.scanRuns then _ else s) rfl (if_neg fun h => hnot (scanRuns_iff.1 h)),
    fun hruns hgot hpath hwf hsize => ?_⟩
  obtain ⟨k, f, v, y, t, ⟨hs, hframe, ⟨m, hmwf, hbytes, hmemory⟩, hfaulted, hhigh⟩, hexec, hy, ht⟩ :=
    scan_ends (scanRuns_iff.2 hruns) hgot hpath hwf
  rw [← hs.record]
  intro capacity slot entry damaged good record released
  obtain ⟨hnext, hroom, hfit⟩ := scanMade_within hs
  have hwithin : k ≤ capacity := hs.probed.within
  have hnext : f.found.next = released + 1 + k := hnext
  refine ⟨f.found.next, v, y, t, hexec, hy, ht, fun hwords => ?idle, by omega, by omega, fun q hlo hhi => ?good, fun hle => ?ended, ?_⟩
  case idle =>
    have hp : y.processor.words = [] := by
      rw [hy.processor, hframe]
      exact hwords
    have hresume : y.resumeProcessor = y := by
      unfold State.resumeProcessor
      rw [hp]
      rfl
    rw [hresume] at ht
    exact hy.trans ht
  case good =>
    have := hs.probed.good (q - (released + 1)) (by omega)
    have hq : releasedOf f.record + 1 + (q - (released + 1)) = q := by
      show released + 1 + (q - (released + 1)) = q
      omega
    rwa [hq] at this
  case ended =>
    rw [hnext]
    exact hs.probed.ended (by show k < capacity; omega)
  intro found resolved dangling room bare drafts made at_ cut
  have hfound : found = f.found.entries := by
    have hcount : f.found.next - released - 1 = k := by omega
    rw [hs.probed.entries, ← hcount]
    rfl
  have hdangling : dangling = danglingPending f.found.entries := by
    show found.filter _ = _
    unfold danglingPending
    rw [← hfound]
    simp only [resolvesByKind_eq]
    rfl
  have hdrafts : drafts = f.drafts s.banks.due (s.scanRoom f) := by
    show dangling.map _ ++ _ ++ [bare (.restart _ (min dangling.length room) _)] = _
    rw [hdangling]
    rfl
  have hmade : made = s.scanMade f := by
    show min drafts.length room = _
    rw [hdrafts]
    rfl
  rw [hdangling, hdrafts, hmade]
  have hentry (i : Nat) (d : EntryDraft) (hi : i < s.scanMade f)
      (hd : (f.drafts s.banks.due (s.scanRoom f))[i]? = some d) (j : Fin 8) :
      at_ (f.found.next + i) j.val = (d.words (f.found.next + i))[j.val]
      ∧ v.memory.health (slot (f.found.next + i) + 4 * j.val) = .clean := by
    have h := scan_entry hs hmwf hi hd j
    rw [← hmemory] at h
    exact h
  refine ⟨hframe, hentry, fun i e hi he => ?resolutions, fun q hq hbeyond => ?marks, fun hnone j => ?unitRecord,
    fun b hr he hc => ?bytes, fun hlost hle hne => hfaulted ?fault, hhigh⟩
  case resolutions =>
    have hword (j : Fin 8) := (hentry i _ hi (drafts_dangling he) j).1
    obtain ⟨hkind, hfield, htime, hlane⟩ := restart_kind e (f.found.next + i)
    obtain ⟨hday, hdistance⟩ := restart_distance e (f.found.next + i)
    have hwords := restart_words e (f.found.next + i)
    have h1 : at_ (f.found.next + i) 1 = ((restartResolution e).words (f.found.next + i))[1] := hword 1
    have h6 : at_ (f.found.next + i) 6 = ((restartResolution e).words (f.found.next + i))[6] := hword 6
    rw [h1, h6]
    exact ⟨(hword 0).trans (by rw [hwords, ← put_word]; rfl), (hword 7).trans (by rw [hwords, ← put_word]; rfl), hkind, hfield,
      htime, hlane, (hword 2).trans (by rw [hwords]; rfl), (hword 3).trans (by rw [hwords]; rfl),
      (hword 4).trans (by rw [hwords]; rfl), (hword 5).trans (by rw [hwords]; rfl), hday, hdistance⟩
  case marks =>
    have h := scan_mark hs hmwf hq hbeyond
    rw [← hmemory] at h
    exact h
  case unitRecord =>
    have h := scan_record hs hmwf hnone j
    rw [← hmemory] at h
    exact h
  case bytes =>
    rw [hmemory, ← hbytes b]
    exact scan_byte_other hs hr he hc
  case fault =>
    have h := (hs.probed.cut (f.found.next + 1)).2 ⟨by rw [hnext]; rfl, by show k < capacity; omega, ?_, ?_⟩
    · rw [h]
      simp
    · rw [hnext] at hne
      exact hne
    · rw [hnext] at hlost
      exact hlost

end

end Sys2Proof.Machine
